-- ==== Sys2Proof/Word.lean ====
section
/-! DEFINITION. The words of the device: bytes, register words, 64-bit words, and the index types of
its dies, mitts, ports and peers (spec/00 R1). -/

namespace Sys2Proof

/-- A byte of memory or of a packet. -/
abbrev Byte := BitVec 8
/-- A 16-bit word. -/
abbrev W16 := BitVec 16
/-- A register word (R337). -/
abbrev W32 := BitVec 32
/-- A 64-bit word. -/
abbrev W64 := BitVec 64
/-- A compute die CD0 to CD3 (R1). -/
abbrev Die := Fin 4
/-- A logical mitt of a die (R6). -/
abbrev Lm := Fin 64
/-- A Washa port (R265). -/
abbrev Port := Fin 16
/-- A peer index: an entry of the peer table (R271). -/
abbrev Peer := Fin 4096

end Sys2Proof
end

