-- ==== Sys2Proof/Syntax.lean ====
section
/-! DEFINITION. The commands of the block: one constructor of `Instr` for each row of the opcode table,
with the operands its rules name. What the device reads from outside (host memory, pins, peers, sensors)
comes as an operand (log entry 9). -/

namespace Sys2Proof

/-- Where a tensor lies: a die's tile memory or scratch, near memory or far memory (R198, R236, R255). -/
inductive Space where
  | tile (d : Die) | scratch (d : Die) | near | far
  deriving DecidableEq, Repr, Inhabited

/-- Bytes of a space (R1, R236, R255): a die's tile memory and scratch, near memory, two far ports of 4 TiB. -/
def Space.bytes : Space → Nat
  | .tile _ => 160 * 2 ^ 20
  | .scratch _ => 24 * 2 ^ 20
  | .near => 2 ^ 40
  | .far => 2 ^ 43

/-- A tensor descriptor: the fields that R83, R99, R113, R128, R143, R215 and R222 name. The manual gives
the 16-bit descriptors no layout, so an instruction carries the descriptor's contents (log entry 10).
`cols` is the innermost, contiguous dimension; `pitch` is in elements, as are `sidePitch`, the side tensor's, and
`wpitch`, that of the wide source at WSRC, whose format is `wfmt` and whose rows and columns `wtrans` exchanges (R222);
`rank` is set where the descriptor is that of a matrix of a low-rank pair (R118); `shard` names the directory entry where a source is a
weight that a peer owns (R282), and `toPeer` the peer that receives an output as its activation or gradient (R19, R136): the manual gives
neither a field (log entry 171). -/
structure TDesc where
  space : Space := .near
  addr : Nat := 0
  fmt : BitVec 5 := 0
  bs : BitVec 2 := 0
  scaleAddr : Nat := 0
  rows : Nat := 0
  cols : Nat := 0
  pitch : Nat := 0
  layer : BitVec 14 := 0
  row0 : W32 := 0
  col0 : W32 := 0
  ncols : W32 := 0
  rnd : BitVec 2 := 0
  inf : Bool := false
  hist : Bool := false
  histAddr : Nat := 0
  histBase : BitVec 8 := 0xD0
  histKeep : Bool := false
  dkind : BitVec 3 := 0
  drawTag : BitVec 8 := 0
  fder : BitVec 4 := 0
  fparam : W16 := 0
  side : Nat := 0
  sidePitch : Nat := 0
  sideResident : Bool := true
  tap : BitVec 2 := 0
  tlayer : BitVec 14 := 0
  tlast : Bool := false
  wsrc : Option Nat := none
  wfmt : BitVec 5 := 1
  wpitch : Nat := 0
  wtrans : Bool := false
  tsrc : Bool := false
  rank : Option Nat := none
  shard : Option Nat := none
  toPeer : Option Peer := none
  deriving DecidableEq, Repr, Inhabited

/-- A vector engine of a die (R1): 16 to a die. -/
abbrev Engine := Fin 16

/-- A vector engine of a die, and the address of the instruction that it issues (R107, R199). -/
structure EnginePc where
  engine : Engine := 0
  iaddr : W64 := 0
  deriving DecidableEq, Repr, Inhabited

/-- Where an instruction comes from: its die, the vector engine that issues it (R199), and its address (R107). -/
structure Issuer where
  die : Die := 0
  engine : Engine := 0
  iaddr : W64 := 0
  deriving DecidableEq, Repr, Inhabited

/-- The engine of an issuer, and the address of its instruction. -/
def Issuer.pc (i : Issuer) : EnginePc := { engine := i.engine, iaddr := i.iaddr }

/-- Where the lines of a MADD go (R247): a group of the die, or, where a directory entry is named that a peer owns, its owner. -/
structure MaddTarget where
  gid : BitVec 12 := 0
  shard : Option Nat := none
  deriving DecidableEq, Repr, Inhabited

/-- An MMA instruction (R83), with its instruction address for R107. `k` is K − 1 and `ksplit` is P − 1; `stage` is the hosted stage
whose work it is and `backward` says that it is backward work (R31, R32); `engine` is the vector engine that issues it (R199);
`mb` is the micro-batch whose product it is (R285); `mbLast` says that with it the micro-batch's F3 or B4 work of its die is complete (R146;
log entry 11). -/
structure Mma where
  iaddr : W64 := 0
  tile : BitVec 2 := 0
  shape : BitVec 2 := 0
  af : BitVec 5 := 0
  bf : BitVec 5 := 0
  a : TDesc := {}
  b : TDesc := {}
  o : TDesc := {}
  ta : Bool := false
  tb : Bool := false
  k : BitVec 20 := 0
  cont : Bool := false
  endReq : Bool := false
  sr : Bool := false
  ksplit : BitVec 6 := 0
  lm : Lm := 0
  stage : Fin 8 := 0
  backward : Bool := false
  engine : Engine := 0
  mb : Option W32 := none
  mbLast : Bool := false
  deriving DecidableEq, Repr, Inhabited

/-- An MMA.FX pass (R83, R102, R103): `k` is K − 1, `ksplit` is P − 1, `q` is the pass number, `acc` the scratch address of the 128-bit
accumulators, `byProgram` whether a job program issued it, then on `engine` (R83, R199). -/
structure MmaFx where
  iaddr : W64 := 0
  engine : Engine := 0
  byProgram : Bool := false
  shape : BitVec 2 := 0
  af : BitVec 5 := 9
  bf : BitVec 5 := 9
  a : TDesc := {}
  b : TDesc := {}
  ta : Bool := false
  tb : Bool := false
  k : BitVec 20 := 0
  sr : Bool := false
  ksplit : BitVec 6 := 0
  lm : Lm := 0
  pa : BitVec 2 := 0
  pb : BitVec 2 := 0
  npa : BitVec 2 := 3
  npb : BitVec 2 := 3
  q : Nat := 0
  acc : Nat := 0
  rows : Nat := 128
  cols : Nat := 128
  deriving DecidableEq, Repr, Inhabited

/-- A convert instruction of a vector engine (R57): the shared fields, and the engine that issues it (R199). -/
structure Vec where
  iaddr : W64 := 0
  engine : Engine := 0
  src : TDesc := {}
  dst : TDesc := {}
  srcf : BitVec 5 := 0
  dstf : BitVec 5 := 0
  rnd : BitVec 2 := 0
  inf : Bool := false
  bs : BitVec 2 := 0
  hist : Bool := false
  np : BitVec 2 := 0
  deriving DecidableEq, Repr, Inhabited

/-- HPUSH (R128): what is pushed, from where and in which format, or a tie-park write (R124). -/
structure HPush where
  iaddr : W64 := 0
  engine : Engine := 0
  stage : Fin 8 := 0
  layer : BitVec 14 := 0
  kind : Byte := 0
  mb : W32 := 0
  src : TDesc := {}
  dstf : BitVec 5 := 0
  bs : BitVec 2 := 0
  tokenMajor : Bool := false
  desc : BitVec 128 := 0
  park : Bool := false
  deriving DecidableEq, Repr, Inhabited

/-- HPOP (R129): the record named, whether it is the tie park's (R124), and where its data go. -/
structure HPop where
  iaddr : W64 := 0
  engine : Engine := 0
  stage : Fin 8 := 0
  layer : BitVec 14 := 0
  kind : Byte := 0
  mb : W32 := 0
  dst : Space := .near
  addr : Nat := 0
  park : Bool := false
  deriving DecidableEq, Repr, Inhabited

/-- A place in a Palm's program run: a section, or one chunk of the body (R201). -/
inductive PalmPlace where
  | prologue | chunk (c : Nat) | epilogue
  deriving DecidableEq, Repr, Inhabited

/-- The fields of a Palm instruction word but its opcode (R203). -/
structure PalmArgs where
  d : BitVec 6 := 0
  a : BitVec 6 := 0
  b : BitVec 6 := 0
  c : BitVec 6 := 0
  g : BitVec 3 := 0
  gn : Bool := false
  ge : Bool := false
  m : BitVec 3 := 0
  sa : Bool := false
  sb : Bool := false
  sc : Bool := false
  imm : W16 := 0
  deriving DecidableEq, Repr, Inhabited

/-- One issue of a Palm instruction: the die, the Palm, the place and the word's fields. -/
structure PalmIssue where
  die : Die := 0
  palm : Fin 4 := 0
  place : PalmPlace := .prologue
  x : PalmArgs := {}
  deriving DecidableEq, Repr, Inhabited

/-- What arrives for a key of a reduction group: a line of 64 FP32 elements (R247), or a tap row of 128
64-bit integers for a factor tile (R289) with what it reports of the rows behind it: sampled rows, rows dropped for NaN and
elements saturated (R144, R155). -/
inductive Item where
  | line (index : Nat) (words : List W32)
  | tapRow (layer : BitVec 14) (side : Bool) (addr : Nat) (words : List W64) (rowsSampled nanRows saturated : Nat)
  deriving DecidableEq, Repr, Inhabited

/-- The integer operations of a memory-side adder (R244). -/
inductive AddOp where
  | i64m | i64s | u32s
  deriving DecidableEq, Repr, Inhabited

/-- The result of the check code of a read (R234): good, corrected in one lane or over several, or not
correctable; a far read may return poison (R258). -/
inductive ReadOutcome where
  | good | corrected (lane : Option (Fin 72)) | uncorrectable | poison
  deriving DecidableEq, Repr, Inhabited

/-- Who asked for a read (R258). -/
inductive Requester where
  | jobUnit (unit : W16) | host
  deriving DecidableEq, Repr, Inhabited

/-- A flit as received on a port (R266): `crcGood` says what the receiver finds. -/
structure Flit where
  vc : Fin 8 := 0
  typ : BitVec 5 := 0
  seq : W16 := 0
  ack : W16 := 0
  creditVc : Fin 8 := 0
  credits : BitVec 5 := 0
  dest : Peer := 0
  payload : List Byte := []
  crcGood : Bool := true
  deriving DecidableEq, Repr, Inhabited

/-- A heartbeat (R272). The four times are those of the formula, in ns (log entry 22). -/
structure Beat where
  devId : W64 := 0
  peer : Peer := 0
  state : Byte := 1
  frm : W64 := 0
  step : W32 := 0
  epoch : Byte := 0
  links : W16 := 0
  t1 : Nat := 0
  t2 : Nat := 0
  t3 : Nat := 0
  t4 : Nat := 0
  deriving DecidableEq, Repr, Inhabited

/-- A link as a notice names it (R273): the port of the device that broadcasts, and the partner with its port (log entry 38). -/
structure LinkEnds where
  from_ : Peer := 0
  port : Port := 0
  partner : Peer := 0
  partnerPort : Port := 0
  deriving DecidableEq, Repr, Inhabited

/-- One end of a link: a device and its port. -/
structure LinkEnd where
  peer : Peer := 0
  port : Port := 0
  deriving DecidableEq, Repr, Inhabited

/-- The link between two ends. -/
def LinkEnd.link (a b : LinkEnd) : LinkEnds := { from_ := a.peer, port := a.port, partner := b.peer, partnerPort := b.port }

/-- The bus widths of a BAR0 access (R337). -/
inductive Width where
  | b8 | b16 | b32 | b64
  deriving DecidableEq, Repr, Inhabited

/-- A packet as Peak reads it from a ring (R307): the header's fields and the payload. `readOk` is false
when the host-memory read fails (R305); `strange` is the opcode it has where that is none of R313 (R312), in place of its row's. -/
structure Pkt where
  ring : Fin 4 := 0
  flags : W16 := 0
  seq : W32 := 0
  job : W64 := 0
  len : W32 := 0
  zero : W32 := 0
  cookie : W64 := 0
  payload : List Byte := []
  readOk : Bool := true
  strange : Option W16 := none
  deriving DecidableEq, Repr, Inhabited

/-- What the device reads of a job-image segment (R320): its bytes, or nothing where the read fails. -/
abbrev SegData := Option (List Byte)

/-- A host link as R299 has it: x8, x4, x2 or x1, at a PCIe rate from 2.5 to 128 GT/s, as JOB and VERSION replies give it: the rate in
GT/s over 2.5, rounded down (R315). -/
def hostLink (width rate : Byte) : Bool :=
  [8, 4, 2, 1].contains width.toNat && [1, 2, 3, 6, 12, 25, 51].contains rate.toNat

/-- The four firmware processors (R383). -/
inductive Proc where
  | crown | band | peak | bonnet
  deriving DecidableEq, Repr, Inhabited

/-- How a fetch is answered (R282, R284): with the shard's bytes, VERSION_GONE or WRONG_EPOCH. -/
inductive FetchOutcome where
  | data | gone | wrongEpoch
  deriving DecidableEq, Repr, Inhabited

/-- A restored shard (R295): its directory entry and, oldest first, the records the sinks hold. -/
structure Restored where
  entry : Nat := 0
  records : List (List Byte) := []
  deriving DecidableEq, Repr, Inhabited

/-- How the sinks answer a takeover (R296). -/
inductive RestoreOutcome where
  | restored (shards : List Restored) | behind | digestFailed | unreachable
  deriving DecidableEq, Repr, Inhabited

/-- The place of a shard in its matrix (R277). -/
structure Extent where
  row0 : Nat := 0
  col0 : Nat := 0
  rows : Nat := 0
  cols : Nat := 0
  deriving DecidableEq, Repr, Inhabited

/-- What one old owner has of a shard that moves (R291): the extent its data have, the weights, remainders, optimiser state and roots in
force as the segments of a base record (R293), and its factor blocks by side. -/
structure Moved where
  extent : Extent := {}
  segments : List (List Byte) := []
  blocks : List (Bool × List Byte) := []
  deriving DecidableEq, Repr, Inhabited

/-- A migrated shard: its entry in the new directory, and what has come from the peers that held it (R291). -/
structure Migrated where
  entry : Nat := 0
  parts : List Moved := []
  deriving DecidableEq, Repr, Inhabited

/-- A micro-batch of the program that cannot go on, and the peers that wait for a tensor of it (R285; log entry 11). -/
structure Stuck where
  mb : W32 := 0
  peers : List Peer := []
  deriving DecidableEq, Repr, Inhabited

/-- The micro-batches of the program that wait for a tensor of a peer lost by an event (R285; log entry 11) are the operand `waits` of
the events that can show a peer LOST or DEPARTED. -/
abbrev Waits := List Stuck
/-- What such an event names, with what waits. -/
structure Losing (α : Type) where
  subject : α
  waits : Waits := []
  deriving DecidableEq, Repr

/-- What RESET_RELEASE finds: RESET_N high, REFCLK_SYS running (R425; log entry 178), and the areas of the Lining with an uncorrectable
word, by their place in the table of R368. -/
structure Release where
  high : Bool := true
  clock : Bool := true
  badLining : List Nat := []
  deriving DecidableEq, Repr, Inhabited

/-- What of a step goes to a peer and is acknowledged by it: a forward activation, an input gradient, or the tap rows of a micro-batch (R19,
R151). -/
inductive OutKind where
  | activation | gradient | taps
  deriving DecidableEq, Repr, Inhabited

/-- An outgoing tensor of the step: the peer that receives it, and the micro-batch it is of where it is of one (R19, R285). -/
structure Outgoing where
  peer : Peer := 0
  kind : OutKind := .activation
  mb : Option W32 := none
  deriving DecidableEq, Repr, Inhabited

/-- What a tick needs to know of the program: whether it has issued all of its step, every micro-batch of it having completed B4 (first
bullet of R19), and which outgoing tensors their peers have acknowledged since the last tick (third bullet of R19; log entry 11). -/
structure StepEnd where
  issued : Bool := false
  acked : List Outgoing := []
  deriving DecidableEq, Repr, Inhabited

/-- The operand of a tick. -/
abbrev ProgDone := StepEnd

/-- The commands: one constructor for each row of spec/opcode_table.json, in the table's order. -/
inductive Instr where
  | frameTick (done : ProgDone)
  | tickInEdge (cycles : Nat) (done : ProgDone)
  | fabricTick (done : ProgDone)
  | tickLost (done : ProgDone)
  | mma (d : Die) (x : Mma)
  | mmaFx (d : Die) (x : MmaFx)
  | mdrain (d : Die) (pc : EnginePc) (lm : Lm) (tile : BitVec 2)
  | rowStoreHalfFree (d : Die)
  | tileDispatch (d : Die) (lm : Lm)
  | tileDrain (d : Die) (lm : Lm)
  | tapTileDrain (d : Die) (lm : Lm)
  | longSplitCombine (d : Die) (lm : Lm) (tile : BitVec 2) (part : Nat) (level : Nat)
  | profileSwitch (d : Die) (lm : Lm)
  | visorCheckComplete (d : Die)
  | vcvt (d : Die) (x : Vec)
  | vcvtB (d : Die) (x : Vec)
  | vcvtU (d : Die) (x : Vec)
  | vsplitF (d : Die) (x : Vec) (p1 p2 : TDesc)
  | vsplitI (d : Die) (x : Vec) (p1 p2 : TDesc)
  | vnarrowQ (d : Die) (x : Vec)
  | vmax (d : Die) (x : Vec) (src2 : TDesc)
  | vmin (d : Die) (x : Vec) (src2 : TDesc)
  | vectorFp32Add (i : Issuer) (out stream : TDesc)
  | hpush (d : Die) (x : HPush)
  | hpop (d : Die) (x : HPop)
  | gsolve (i : Issuer) (index : W16)
  | prun (i : Issuer) (layer : BitVec 14)
  | runpack (i : Issuer) (index : W16) (dst : TDesc) (form : BitVec 2)
  | jendDone (d : Die) (pc : EnginePc)
  | jendRelease (d : Die) (pc : EnginePc)
  | jstat (i : Issuer)
  | mgopen (i : Issuer) (gid : BitVec 12)
  | madd (i : Issuer) (target : MaddTarget) (key : W16) (epoch : Byte) (src : TDesc) (line0 : Nat) (endMark : Bool)
  | mskip (i : Issuer) (gid : BitVec 12) (key : W16) (epoch : Byte)
  | lineArrival (d : Die) (gid : BitVec 12) (key : W16) (epoch : Byte) (item : Item)
  | endMarker (d : Die) (gid : BitVec 12) (key : W16) (epoch : Byte)
  | stagingRetry (d : Die)
  | keyApply (d : Die) (gid : BitVec 12)
  | keyApplied (d : Die) (gid : BitVec 12)
  | memorySideAdd (op : AddOp) (addr : Nat) (words : List W64) (flagAddr : Nat) (mask : W32)
  | fold (d : Die)
  | foldComplete (d : Die)
  | solveStart (d : Die)
  | assemblyStart (d : Die)
  | assemblyComplete (d : Die)
  | panelComplete (d : Die)
  | iterationComplete (d : Die)
  | finalTestComplete (d : Die)
  | palmRunStart (d : Die)
  | palmRunComplete (d : Die)
  | copyRun (entry : Nat)
  | palmNop (i : PalmIssue)
  | ld (i : PalmIssue)
  | st (i : PalmIssue)
  | ldw (i : PalmIssue)
  | ldwo (i : PalmIssue)
  | stw (i : PalmIssue)
  | wcp (i : PalmIssue)
  | lds (i : PalmIssue)
  | ldh (i : PalmIssue)
  | sts (i : PalmIssue)
  | srd (i : PalmIssue)
  | idxr (i : PalmIssue)
  | idxc (i : PalmIssue)
  | fadd (i : PalmIssue)
  | fsub (i : PalmIssue)
  | fmul (i : PalmIssue)
  | fma (i : PalmIssue)
  | fnma (i : PalmIssue)
  | fdiv (i : PalmIssue)
  | fsqrt (i : PalmIssue)
  | frsq (i : PalmIssue)
  | fmax (i : PalmIssue)
  | fmin (i : PalmIssue)
  | fabs (i : PalmIssue)
  | fneg (i : PalmIssue)
  | fcps (i : PalmIssue)
  | fscl (i : PalmIssue)
  | fexp2 (i : PalmIssue)
  | flog2 (i : PalmIssue)
  | rndbf (i : PalmIssue)
  | rnde4 (i : PalmIssue)
  | iadd (i : PalmIssue)
  | iand (i : PalmIssue)
  | cvtfi (i : PalmIssue)
  | cvtif (i : PalmIssue)
  | fcmp (i : PalmIssue)
  | fcls (i : PalmIssue)
  | pand (i : PalmIssue)
  | por (i : PalmIssue)
  | pnot (i : PalmIssue)
  | sel (i : PalmIssue)
  | mov (i : PalmIssue)
  | bsum (i : PalmIssue)
  | bssq (i : PalmIssue)
  | bmax (i : PalmIssue)
  | bmin (i : PalmIssue)
  | bcnt (i : PalmIssue)
  | accs (i : PalmIssue)
  | dsExport (layer shard : Nat)
  | recordAck (peer : Peer) (host : Bool) (version : W32)
  | flit (p : Port) (x : Flit)
  | flitReplay (x : Losing Port)
  | portLaneFail (x : Losing Port)
  | portUp (p : Port) (lanes : BitVec 3) (partner : LinkEnd)
  | heartbeatSend
  | heartbeat (p : Port) (x : Beat)
  | linkSilent (x : Losing Port)
  | linkDown (x : LinkEnds) (waits : Waits)
  | linkUp (a b : LinkEnd)
  | departed (x : Losing Peer)
  | lost (x : Losing Peer)
  | publishNotice (entry : Nat) (version : W32) (digest : W64)
  | shardFetch (from_ : Peer) (entry : Nat) (version : W32) (epoch : Byte) (pin : Bool)
  | fetchResponse (entry : Nat) (version : W32) (mb : Stuck) (addr : Nat) (data : List Byte) (x : FetchOutcome)
  | pinRelease (from_ : Peer) (entry : Nat) (version : W32)
  | abandon (from_ : Peer) (mb : Stuck)
  | cutoff
  | skipNotice (owner : Peer) (entry : Nat) (k n : W16) (late : Bool) (step : W32) (epoch : Byte)
  | reshardAck (peer : Peer) (epoch : Byte)
  | shardMigration (x : Migrated)
  | spareFramesExpiry (lostPeer : Peer)
  | takeover (lostPeer spare : Peer)
  | restoreComplete (x : RestoreOutcome)
  | doorbell (r : Fin 4) (tail : W32)
  | ringEnable (r : Fin 4) (value : W32)
  | ringDisable (r : Fin 4) (value : W32)
  | statusRingHead (r : Fin 4) (value : W32)
  | nop (p : Pkt)
  | version (p : Pkt)
  | status (p : Pkt)
  | hostColdReset (p : Pkt)
  | hostWarmReset (p : Pkt)
  | jobSubmit (p : Pkt)
  | jobWithdraw (p : Pkt)
  | jobYield (p : Pkt)
  | yieldCancel (p : Pkt)
  | jobAbort (p : Pkt)
  | jobQuery (p : Pkt)
  | acctRead (p : Pkt)
  | seqJoin (p : Pkt)
  | seqLeave (p : Pkt)
  | reshard (p : Pkt) (image : List Byte)
  | baseExport (p : Pkt)
  | dsHostRing (p : Pkt)
  | dsAck (p : Pkt)
  | memWrite (p : Pkt) (data : List Byte)
  | memRead (p : Pkt) (outcome : ReadOutcome) (good : Nat)
  | fwStage (p : Pkt) (bundle : List Byte)
  | fwActivate (p : Pkt)
  | calRead (p : Pkt)
  | calWrite (p : Pkt) (set : List Byte)
  | calRestore (p : Pkt)
  | calRestoreDone
  | attest (p : Pkt)
  | advance (p : Pkt)
  | installIdCert (p : Pkt)
  | revokeRoot0 (p : Pkt)
  | raiseMinSv (p : Pkt)
  | jobChoose
  | jobStart (segs : List SegData)
  | endingExportDone
  | pcieLinkDown
  | pcieLinkUp (width rate : Byte)
  | pcieHotReset
  | commitPost (value : W32)
  | commitApply (group : Fin 11) (d : Die) (unit : Lm)
  | registerWrite (off : Nat) (w : Width) (value : W64)
  | unmappedAccess (off : Nat) (write : Bool) (w : Width)
  | statusRead (off : Nat) (w : Width)
  | statusWriteBack (off : Nat) (value : W32)
  | counterLoRead (off : Nat)
  | paritySweep
  | indAddrWrite (value : W32)
  | indDataRead
  | indDataWrite (value : W32)
  | indTimeout (write : Bool)
  | errRetire (value : W32)
  | mittBlockReset (index : BitVec 4)
  | cuffBlockReset (index : BitVec 4)
  | gauntletBlockReset (index : BitVec 4)
  | palmBlockReset (index : BitVec 4)
  | vectorBlockReset (index : BitVec 4)
  | visorBlockReset (index : BitVec 4)
  | washaPortReset (index : BitVec 4)
  | cxlPortReset (index : BitVec 4)
  | blockResetDone (target : BitVec 4) (index : BitVec 4)
  | i3cPrivateWrite (index : Byte) (data : Option W32)
  | i3cPrivateRead
  | entdaa (addr : BitVec 7)
  | setdasa (static : BitVec 7) (addr : BitVec 7)
  | setnewda (addr : BitVec 7)
  | rstdaa
  | getpid
  | getbcr
  | getdcr
  | getstatus
  | getmwl
  | getmrl
  | setmwl (n : W16)
  | setmrl (n : W16)
  | enec (events : Byte)
  | disec (events : Byte)
  | rstact (action : Byte)
  | extest
  | idcode
  | samplePreload (preload : BitVec 15)
  | clamp
  | highz
  | bypass (opcode : Byte)
  | lumovTestInstruction (opcode : Byte)
  | burstRead (far : Bool) (addr : Nat) (outcome : ReadOutcome) (by_ : Requester)
  | patrolScrub (outcome : ReadOutcome)
  | bonnetLoop (temps : List Byte)
  | stackTrainingDone (k : Fin 8) (failedLanes : List (Fin 32 × List (Fin 74)))
  | stackRetrain (k : Fin 8) (done : Bool)
  | cxlEnumerate (p : Fin 2) (capacity : Nat) (width : BitVec 5) (rate : BitVec 2)
  | memFarDown (p : Fin 2)
  | memFarEvent (p : Fin 2) (addr : Nat)
  | wipeComplete
  | powerOn
  | resetNAssert
  | resetRelease (x : Release)
  | bootVerify
  | vinShutdown
  | vauxLoss
  | refclkLost
  | refclkPcieLost
  | refclkCxlLost (p : Fin 2)
  | refclkWashaLost (x : Losing (Fin 2))
  | watchdogExpiry (p : Proc)
  | processorFailure (p : Proc)
  | processorReady (x : Losing Proc)
  | restartTimeout (p : Proc)
  | fwStable (p : Proc)
  | sensorSample (diodes : List Int)
  | bucketUpdate (vin : List Nat) (current : List Nat)
  | clampEnforce
  | clampHandback
  | crownLoop
  | activationWaitExpiry
  | fwAbandoned
  | fwActivated
  | tickOutLow
  | applyF (d : Die) (pc : EnginePc) (fder : BitVec 4) (fparam : W16) (src dst : TDesc) (side : TDesc)
  | testLogicReset
  | boundaryRegisterUpdate (cells : BitVec 15)
  deriving DecidableEq, Repr

end Sys2Proof
end

