-- ==== Sys2Proof/Config.lean ====
section
/-! DEFINITION. What a part fixes (grade, stepping, identity) and the values the manual leaves open.
Every constant here is opaque: no proof can see its value (log entries 2, 5, 6, 7). -/

namespace Sys2Proof

/-- The two grades of R5. -/
inductive Grade where
  | a | b
  deriving DecidableEq, Repr, Inhabited

/-- The grade of this part (R5, GLB_ID.GRADE). -/
opaque Config.grade : Grade
/-- Silicon stepping (R355, R315): by part. -/
opaque Config.stepping : BitVec 8
/-- Enabled physical mitts of each die, by grade (R5, R315). -/
def Config.enabledMitts (_ : Nat) : BitVec 8 :=
  match Config.grade with
  | .a => 64
  | .b => 56
/-- Recovery sequencer revision (R315): by part. -/
opaque Config.seqRevision : BitVec 32
/-- I3C provisioned ID, bus and device characteristics (R401): by part. -/
opaque Config.i3cPid : BitVec 48
/-- See `Config.i3cPid`. -/
opaque Config.i3cBcr : BitVec 8
/-- See `Config.i3cPid`. -/
opaque Config.i3cDcr : BitVec 8
/-- The two status bytes a GETSTATUS returns (R401 names the code and gives no layout); the argument
says whether an in-band interrupt is pending. FREE VALUE, log entry 26. -/
opaque Config.i3cStatus : Bool → BitVec 16

/-- What the unit of FEXP2 gives a finite operand inside its range, one fixed unit on every device; taken where it is within the 2 ulp
of R204. FREE VALUE, log entry 5. -/
opaque Config.exp2 : BitVec 32 → BitVec 32
/-- What the unit of FLOG2 gives a positive finite operand, as for `Config.exp2`. FREE VALUE, log entry 5. -/
opaque Config.log2 : BitVec 32 → BitVec 32
/-- What the unit of fused derivatives 0x4 to 0x7 gives a finite side value, identical on every device; taken where it is within the 2
FP32 ulp of R114. FREE VALUE, log entry 5. -/
opaque Config.fusedFactor : Nat → BitVec 16 → BitVec 32
/-- The product of an integer slot and a fused derivative's factor: R114 forms it "in the slot's format, FP32
or W48" and names no integer slot. Slot, factor. FREE VALUE, log entry 18. -/
opaque Config.fusedInteger : BitVec 64 → BitVec 32 → BitVec 64
/-- The forward value of function 0x4 to 0x7 (R113 names f; R116 gives its second output only).
FREE VALUE, log entry 5. -/
opaque Config.forwardFn : Nat → BitVec 32 → BitVec 32

/-- R58 gives the 48-bit form one code and two scales, "Q2.45 or Q8.39, by the source word": which of them a
conversion takes that has no Q word beside it (true: Q8.39). FREE VALUE, log entry 15. -/
opaque Config.form48IsQ8 : Bool

/-- The scale s of a solve whose U + δ, here at its place, is not positive (R172): no integer is the smallest then.
FREE VALUE, log entry 62. -/
opaque Config.openScale : Int → Int

/-- An account's usage in microseconds after a decay over a number of microseconds with a half-life in
seconds (R325): the rule gives a real number and no rounding, and this takes one of the two whole numbers beside it. FREE VALUE, log
entry 6. -/
opaque Config.decayed : Nat → Nat → Nat → Nat

/-- The Falcon-1024 public key (1,793 bytes) of a seed (R407). FREE VALUE, log entry 7. -/
opaque Config.falconPublic : BitVec 256 → List Byte
/-- The Falcon-1024 signature (1,280 bytes) over a digest by the key of a seed (R407). FREE VALUE, log entry 7. -/
opaque Config.falconSign : BitVec 256 → BitVec 256 → List Byte
/-- The digest of the Lumov test root, which the boot ROM holds (R409). -/
opaque Config.testRootDigest : BitVec 256
/-- The n-th draw of the on-die entropy source (R406, R417). FREE VALUE, log entry 7. -/
opaque Config.entropy : Nat → BitVec 256
/-- The 64-bit device ID (R406), by fuse. -/
opaque Config.deviceId : BitVec 64
/-- The digests ROOT_KD0 and ROOT_KD1 (R406), by fuse. -/
opaque Config.rootDigest : Nat → BitVec 256
/-- The device-unique secret (R406), by fuse. -/
opaque Config.uds : BitVec 256
/-- The identity certificate installed in the part (R417), by store. -/
opaque Config.idCert : List Byte
/-- The bundle in slot 0 as the part arrives (R398), by store. -/
opaque Config.shippedBundle : List Byte
/-- The factory calibration set behind its 64-byte header (R395), by store. -/
opaque Config.shippedCal : List Byte
/-- The re-calibrated set that the n-th CAL_RESTORE measures (R397). FREE VALUE, log entry 7. -/
opaque Config.recalibrated : Nat → List Byte
/-- Whether every trim of a calibration set lies within its field (R396): the manual gives the regulator trims no layout. FREE VALUE,
log entry 36. -/
opaque Config.calInRange : List Byte → Bool
/-- The delay in ns of a link of two other devices, by the index and port of one end: each device measures its own links, and the
manual names no message that tells another (R272). FREE VALUE, log entry 158. -/
opaque Config.linkDelay : Nat → Nat → Nat
/-- What a register of the BRIM sub-block reads in test mode (R335 gives none of them). FREE VALUE, log entry 8. -/
opaque Config.brimTest : Nat → BitVec 32
/-- Busy cycles that an end record reports: time in µs and the field. The model counts no cycles (timing). FREE VALUE, log entry 48. -/
opaque Config.cycleCount : Nat → Nat → BitVec 64
/-- What a plain code path reads where the manual fixes no value, drawn by a counter. FREE VALUE, log entry 2. -/
opaque Config.freeWord : Nat → BitVec 64

end Sys2Proof
end

