-- ==== Sys2Proof/Machine/Sparse.lean ====
section
/-! DEFINITION. Sparse data by key, the one form in which memories, register copies and tables are held:
a list of (key, value) pairs with keys strictly rising and no value equal to what an unlisted key reads as. -/

namespace Sys2Proof.Machine

/-- Sparse data by key (a memory is one of bytes: `Host.Cell`). -/
abbrev Sparse (α : Type) := List (Nat × α)

/-- An element put before the first that does not come before it. -/
def insertBy {α : Type} (le : α → α → Bool) (x : α) : List α → List α
  | [] => [x]
  | y :: rest => if le x y then x :: y :: rest else y :: insertBy le x rest

/-- A list in ascending order, equals in the order they had. -/
def sortBy {α : Type} (le : α → α → Bool) (l : List α) : List α := l.foldr (insertBy le) []

namespace Sparse

variable {α : Type}

/-- What key `k` reads as, `d` being what an unlisted key reads as. -/
def get (d : α) (k : Nat) : Sparse α → α
  | [] => d
  | (a, v) :: rest => if k = a then v else get d k rest

/-- The pair kept for key `k`, or none where the value is the unlisted one. -/
def cell [DecidableEq α] (d : α) (k : Nat) (v : α) : Sparse α := if v = d then [] else [(k, v)]

/-- Keys strictly rising above `lo` and no value equal to the unlisted one. -/
def wfFrom [DecidableEq α] (d : α) : Nat → Sparse α → Bool
  | _, [] => true
  | lo, (a, v) :: rest => decide (lo ≤ a) && decide (v ≠ d) && wfFrom d (a + 1) rest

/-- The canonical form. -/
def wf [DecidableEq α] (d : α) (s : Sparse α) : Bool := wfFrom d 0 s

/-- The entries whose key a predicate keeps. -/
def keep (p : Nat → Bool) (s : Sparse α) : Sparse α := s.filter fun x => p x.1

/-- Key `k` made to read as `v`, the canonical form kept. -/
def put [DecidableEq α] (d : α) (k : Nat) (v : α) (s : Sparse α) : Sparse α :=
  keep (fun a => decide (a < k)) s ++ cell d k v ++ keep (fun a => decide (k < a)) s

/-- New data at the keys that a predicate names, the old ones at all others. -/
def overlay [DecidableEq α] (d : α) (p : Nat → Bool) (new old : Sparse α) : Sparse α :=
  (keep p new).foldr (fun c z => put d c.1 c.2 z) (keep (fun k => !p k) old)

end Sparse

/-- A byte memory: an unlisted address reads 0, because every start and change of job set wipes device
memory with zeros (R262). -/
abbrev Memory := Sparse Byte

namespace Memory

/-- The canonical form of a memory. -/
def wf (m : Memory) : Bool := Sparse.wf (0 : Byte) m
/-- One byte. -/
def read (m : Memory) (a : Nat) : Byte := Sparse.get (0 : Byte) a m
/-- `n` bytes from address `a` up. -/
def readBytes (m : Memory) (a : Nat) : Nat → List Byte
  | 0 => []
  | n + 1 => m.read a :: m.readBytes (a + 1) n

/-- The cells of bytes laid from address `a` up: zeros are not listed. -/
def cellsOf (a : Nat) : List Byte → Memory
  | [] => []
  | b :: bs => if b = 0 then cellsOf (a + 1) bs else (a, b) :: cellsOf (a + 1) bs

/-- Bytes stored from address `a` up. -/
def writeBytes (m : Memory) (a : Nat) (bs : List Byte) : Memory :=
  Sparse.keep (fun k => decide (k < a)) m ++ cellsOf a bs ++ Sparse.keep (fun k => decide (a + bs.length ≤ k)) m

/-- The bytes below a bound and from another bound up: what is left when the range between is zeroed. -/
def clear (m : Memory) (a n : Nat) : Memory := Sparse.keep (fun k => decide (k < a ∨ a + n ≤ k)) m

end Memory

/-- The little-endian value of a byte string (spec/00, Reading this manual). -/
def leVal : List Byte → Nat
  | [] => 0
  | b :: bs => b.toNat + 256 * leVal bs

/-- The `n` little-endian bytes of a value. -/
def leBytes : Nat → Nat → List Byte
  | 0, _ => []
  | n + 1, v => BitVec.ofNat 8 v :: leBytes n (v / 256)

namespace Memory

/-- An unsigned little-endian integer of `n` bytes. -/
def readLE (m : Memory) (a n : Nat) : Nat := leVal (m.readBytes a n)
/-- An integer stored as `n` little-endian bytes. -/
def writeLE (m : Memory) (a n v : Nat) : Memory := m.writeBytes a (leBytes n v)

end Memory

/-- Bits [hi:lo] of a number. -/
def bitsOf (v hi lo : Nat) : Nat := v / 2 ^ lo % 2 ^ (hi + 1 - lo)
/-- Bit `i` of a number. -/
def bitOf (v i : Nat) : Bool := v.testBit i
/-- A number 0 or 1 from a flag. -/
def b2n (b : Bool) : Nat := if b then 1 else 0
/-- The signed value of an n-bit two's-complement code. -/
def signedOf (n v : Nat) : Int := if v % 2 ^ n < 2 ^ (n - 1) then ((v % 2 ^ n : Nat) : Int) else ((v % 2 ^ n : Nat) : Int) - 2 ^ n
/-- The n-bit two's-complement code of an integer. -/
def codeOf (n : Nat) (v : Int) : Nat := (v % 2 ^ n).toNat
/-- An integer held inside the range of n-bit two's complement. -/
def satSigned (n : Nat) (v : Int) : Int := max (-(2 ^ (n - 1))) (min v (2 ^ (n - 1) - 1))
/-- An unsigned count held at its largest n-bit value. -/
def satCount (n v : Nat) : Nat := min v (2 ^ n - 1)
/-- A list with its i-th element replaced. -/
def setAt {α : Type} (l : List α) (i : Nat) (v : α) : List α := l.set i v
/-- A list cut into runs of `n` (the last run may be shorter). -/
def chunksOf {α : Type} (n : Nat) (l : List α) : List (List α) :=
  (List.range ((l.length + n - 1) / n)).map fun i => (l.drop (i * n)).take n

end Sys2Proof.Machine
end

