-- ==== Sys2Proof/Machine/Shake.lean ====
section
/-! DEFINITION. SHAKE256 of FIPS 202, which the spec names for every hash (spec/00 R4; spec/15 R405; log entry 7). -/

namespace Sys2Proof.Machine

namespace Shake

/-- The constants of the 24 rounds. -/
def rounds : List W64 :=
  [0x0000000000000001, 0x0000000000008082, 0x800000000000808A, 0x8000000080008000, 0x000000000000808B, 0x0000000080000001,
   0x8000000080008081, 0x8000000000008009, 0x000000000000008A, 0x0000000000000088, 0x0000000080008009, 0x000000008000000A] ++
  [0x000000008000808B, 0x800000000000008B, 0x8000000000008089, 0x8000000000008003, 0x8000000000008002, 0x8000000000000080,
   0x000000000000800A, 0x800000008000000A, 0x8000000080008081, 0x8000000000008080, 0x0000000080000001, 0x8000000080008008]

/-- How far the lane at x + 5 * y turns. -/
def turns : List Nat :=
  [0, 1, 62, 28, 27, 36, 44, 6, 55, 20, 3, 10, 43, 25, 39, 41, 45, 15, 21, 8, 18, 2, 61, 56, 14]

/-- The lane of a state at column x and row y. -/
def lane (a : List W64) (x y : Nat) : W64 := a.getD (x % 5 + 5 * (y % 5)) 0
/-- A state from its lanes. -/
def state (f : Nat → Nat → W64) : List W64 := (List.range 25).map fun i => f (i % 5) (i / 5)

/-- One round: theta, rho, pi, chi, iota. -/
def round (a : List W64) (rc : W64) : List W64 :=
  let c := (List.range 5).map fun x => lane a x 0 ^^^ lane a x 1 ^^^ lane a x 2 ^^^ lane a x 3 ^^^ lane a x 4
  let a := state fun x y => lane a x y ^^^ c.getD ((x + 4) % 5) 0 ^^^ (c.getD ((x + 1) % 5) 0).rotateLeft 1
  let b := state fun x y => (lane a (x + 3 * y) x).rotateLeft (turns.getD ((x + 3 * y) % 5 + 5 * x) 0)
  state fun x y => lane b x y ^^^ (~~~(lane b (x + 1) y) &&& lane b (x + 2) y) ^^^ (if x = 0 ∧ y = 0 then rc else 0)

def permute (a : List W64) : List W64 := rounds.foldl round a

/-- Bytes of a block. -/
def rate : Nat := 136

/-- The message in whole blocks: 1111 behind it, and a last bit. -/
def padded (m : List Byte) : List Byte :=
  let n := rate - m.length % rate
  if n = 1 then m ++ [0x9F] else m ++ (0x1F :: List.replicate (n - 2) 0) ++ [0x80]

/-- The blocks of a padded message taken in. -/
def absorb : Nat → List Byte → List W64 → List W64
  | 0, _, a => a
  | n + 1, m, a =>
    let x := (List.range 25).map fun i =>
      a.getD i 0 ^^^ (if i < 17 then BitVec.ofNat 64 (leVal ((m.drop (8 * i)).take 8)) else 0)
    absorb n (m.drop rate) (permute x)

/-- Blocks given out. -/
def squeeze : Nat → List W64 → List Byte
  | 0, _ => []
  | n + 1, a => (a.take 17).flatMap (fun x => leBytes 8 x.toNat) ++ squeeze n (permute a)

/-- The first `n` blocks of SHAKE256's output. -/
def blocks (n : Nat) (m : List Byte) : List Byte :=
  let p := padded m
  squeeze n (absorb (p.length / rate) p (List.replicate 25 0))

/-- SHAKE256 with 32 bytes of output (R405), its first byte lowest. -/
def digest (m : List Byte) : BitVec 256 := BitVec.ofNat 256 (leVal ((blocks 1 m).take 32))

end Shake

end Sys2Proof.Machine
end

