-- ==== Sys2Proof/Machine/Num.lean ====
section
/-! DEFINITION. Exact values, the one rounding every conversion and every sum uses, and the element
formats (spec/02 R34 to R58). -/

namespace Sys2Proof.Machine

/-- An exact value: not a number, an infinity, or (-1)^neg * m * 2^e. -/
inductive Val where
  | nan | inf (neg : Bool) | fin (neg : Bool) (m : Nat) (e : Int)
  deriving DecidableEq, Repr, Inhabited

/-- The rounding modes of R51; a stochastic draw `u` is compared with the discarded part cut to `w` bits
(32 in R51, 16 in R101). -/
inductive Rnd where
  | rne | rtz | sr (w : Nat) (u : Nat)
  deriving DecidableEq, Repr, Inhabited

/-- m / 2^sh rounded to an integer (R51). -/
def roundShift (r : Rnd) (m sh : Nat) : Nat :=
  let fl := m / 2 ^ sh
  let rem := m % 2 ^ sh
  match r with
  | .rtz => fl
  | .rne => if 2 * rem > 2 ^ sh ∨ (2 * rem = 2 ^ sh ∧ fl % 2 = 1) then fl + 1 else fl
  | .sr w u => if rem * 2 ^ w / 2 ^ sh > u then fl + 1 else fl

/-- m * 2^e as a number of units 2^q, rounded. -/
def roundTo (r : Rnd) (m : Nat) (e q : Int) : Nat :=
  if q ≤ e then m * 2 ^ (e - q).toNat else roundShift r m (q - e).toNat

/-- floor(log2 (m * 2^e)) of a positive value. -/
def expOf (m : Nat) (e : Int) : Int := (Nat.log2 m : Int) + e

namespace Val

/-- The value of an integer times 2^e. -/
def ofInt (v : Int) (e : Int) : Val := .fin (v < 0) v.natAbs e
def zero : Val := .fin false 0 0
def isNan : Val → Bool
  | .nan => true
  | _ => false
def isInf : Val → Bool
  | .inf _ => true
  | _ => false
def isFin : Val → Bool
  | .fin .. => true
  | _ => false
def isZero : Val → Bool
  | .fin _ 0 _ => true
  | _ => false
def sign : Val → Bool
  | .nan => false
  | .inf n => n
  | .fin n _ _ => n
def neg : Val → Val
  | .nan => .nan
  | .inf n => .inf !n
  | .fin n m e => .fin (!n) m e
def abs : Val → Val
  | .nan => .nan
  | .inf _ => .inf false
  | .fin _ m e => .fin false m e
/-- The value times 2^k. -/
def scale (k : Int) : Val → Val
  | .fin n m e => .fin n m (e + k)
  | v => v
/-- The signed integer a finite value is of units 2^q, for q at or below its exponent. -/
def units (q : Int) : Val → Int
  | .fin n m e => let a : Int := (m * 2 ^ (e - q).toNat : Nat); if n then -a else a
  | _ => 0
def lowExp : Val → Int
  | .fin _ _ e => e
  | _ => 0

/-- Exact sum, with the zero sign of R54: +0 unless both addends are -0. -/
def add : Val → Val → Val
  | .nan, _ => .nan
  | _, .nan => .nan
  | .inf a, .inf b => if a = b then .inf a else .nan
  | .inf a, _ => .inf a
  | _, .inf b => .inf b
  | .fin a m e, .fin b n f =>
    let q := min e f
    let s := (Val.fin a m e).units q + (Val.fin b n f).units q
    if s = 0 then .fin (a && b && m == 0 && n == 0) 0 0 else .fin (s < 0) s.natAbs q

/-- Exact product; infinity times zero is not a number (R54, R75). -/
def mul : Val → Val → Val
  | .nan, _ => .nan
  | _, .nan => .nan
  | .inf a, v => if v.isZero then .nan else .inf (a != v.sign)
  | v, .inf b => if v.isZero then .nan else .inf (b != v.sign)
  | .fin a m e, .fin b n f => .fin (a != b) (m * n) (e + f)

/-- A quotient with at least 64 significant bits and a sticky bit below them: it rounds as the exact one
does, to nearest or towards zero, in every format of at most 62 bits. -/
def div : Val → Val → Val
  | .nan, _ => .nan
  | _, .nan => .nan
  | .inf _, .inf _ => .nan
  | .inf a, v => .inf (a != v.sign)
  | v, .inf b => .fin (v.sign != b) 0 0
  | .fin a m e, .fin b n f =>
    if n = 0 then (if m = 0 then .nan else .inf (a != b))
    else
      let k := 65 + Nat.log2 n
      let q := m * 2 ^ k / n
      .fin (a != b) (2 * q + (if m * 2 ^ k % n = 0 then 0 else 1)) (e - f - (k : Int) - 1)

/-- Integer square root, one result bit a turn. -/
def isqrtFrom (n : Nat) : Nat → Nat → Nat
  | 0, r => r
  | k + 1, r => let c := r + 2 ^ k; isqrtFrom n k (if c * c ≤ n then c else r)
def isqrt (n : Nat) : Nat := isqrtFrom n (Nat.log2 n / 2 + 1) 0

/-- Square root with a sticky bit (correctly rounded after one rounding); -0 keeps its sign. -/
def sqrt : Val → Val
  | .nan => .nan
  | .inf n => if n then .nan else .inf false
  | .fin n m e =>
    if m = 0 then .fin n 0 0 else if n then .nan
    else
      let k := 140 + (e % 2).toNat
      let a := m * 2 ^ k
      let r := isqrt a
      .fin false (2 * r + (if r * r = a then 0 else 1)) ((e - (k : Int)) / 2 - 1)

/-- Reciprocal square root with a sticky bit; of a zero, the infinity of its sign. -/
def rsqrt : Val → Val
  | .nan => .nan
  | .inf n => if n then .nan else .fin false 0 0
  | .fin n m e =>
    if m = 0 then .inf n else if n then .nan
    else
      let k := 140 + Nat.log2 m
      let j := if ((k : Int) + e) % 2 = 0 then k else k + 1
      let r := isqrt (2 ^ j / m)
      .fin false (2 * r + (if r * r * m = 2 ^ j then 0 else 1)) (-((j : Int) + e) / 2 - 1)

/-- Strict order of two values that are numbers; -0 and +0 are equal here. -/
def lt : Val → Val → Bool
  | .nan, _ => false
  | _, .nan => false
  | .inf a, .inf b => a && !b
  | .inf a, _ => a
  | _, .inf b => !b
  | .fin a m e, .fin b n f => let q := min e f; decide ((Val.fin a m e).units q < (Val.fin b n f).units q)
/-- IEEE equality. -/
def eq (x y : Val) : Bool := !x.isNan && !y.isNan && !x.lt y && !y.lt x

/-- Maximum of R56 (-0 below +0). -/
def max2 (x y : Val) : Val :=
  if x.isNan || y.isNan then .nan else if x.lt y then y else if y.lt x then x else if x.sign then y else x
/-- Minimum of R56. -/
def min2 (x y : Val) : Val :=
  if x.isNan || y.isNan then .nan else if x.lt y then x else if y.lt x then y else if x.sign then x else y

end Val

/-- A float format (R34, R49): widths, bias, the code of the largest finite magnitude, infinity where
there is one, and the canonical quiet NaN (R53). -/
structure FloatFmt where
  ew : Nat
  fw : Nat
  bias : Nat
  maxCode : Nat
  infCode : Option Nat
  nanCode : Nat
  deriving DecidableEq, Repr, Inhabited

namespace FloatFmt

def fp32 : FloatFmt := ⟨8, 23, 127, 0x7F7FFFFF, some 0x7F800000, 0x7FC00000⟩
def bf16 : FloatFmt := ⟨8, 7, 127, 0x7F7F, some 0x7F80, 0x7FC0⟩
def fp16 : FloatFmt := ⟨5, 10, 15, 0x7BFF, some 0x7C00, 0x7E00⟩
def e5m2 : FloatFmt := ⟨5, 2, 15, 0x7B, some 0x7C, 0x7E⟩
def e4m3 : FloatFmt := ⟨4, 3, 7, 0x7E, none, 0x7F⟩
def e3m2 : FloatFmt := ⟨3, 2, 3, 0x1F, none, 0⟩
def e2m3 : FloatFmt := ⟨2, 3, 1, 0x1F, none, 0⟩
def e2m1 : FloatFmt := ⟨2, 1, 1, 0x7, none, 0⟩
/-- IEEE binary64, the Visor's accumulator (R219) and the arithmetic of R326. -/
def f64 : FloatFmt := ⟨11, 52, 1023, 0x7FEFFFFFFFFFFFFF, some 0x7FF0000000000000, 0x7FF8000000000000⟩
/-- The slot format of profile N (R49). -/
def w48 : FloatFmt := ⟨8, 39, 127, 0x7F7FFFFFFFFF, some 0x7F8000000000, 0x7FC000000000⟩

/-- Width in bits. -/
def width (f : FloatFmt) : Nat := 1 + f.ew + f.fw
/-- The exponent of one unit of the smallest subnormal. -/
def qmin (f : FloatFmt) : Int := 1 - (f.bias : Int) - f.fw
/-- Whether a magnitude code is a NaN. -/
def isNanCode (f : FloatFmt) (c : Nat) : Bool :=
  match f.infCode with
  | some i => decide (c > i)
  | none => decide (f.nanCode ≠ 0 ∧ c = f.nanCode)

/-- The value of a code (R34). -/
def decode (f : FloatFmt) (code : Nat) : Val :=
  let neg := bitOf code (f.ew + f.fw)
  let c := code % 2 ^ (f.ew + f.fw)
  if f.isNanCode c then .nan
  else if f.infCode = some c then .inf neg
  else
    let e := c / 2 ^ f.fw
    let x := c % 2 ^ f.fw
    if e = 0 then .fin neg x f.qmin else .fin neg (2 ^ f.fw + x) (f.qmin + (e : Int) - 1)

/-- The magnitude code of m * 2^e rounded with unbounded exponent: above `maxCode` where it overflows (R52). -/
def roundMag (f : FloatFmt) (r : Rnd) (m : Nat) (e : Int) : Nat :=
  if m = 0 then 0
  else
    let q := max (expOf m e - f.fw) f.qmin
    (q - f.qmin).toNat * 2 ^ f.fw + roundTo r m e q

/-- A magnitude code with its sign. -/
def withSign (f : FloatFmt) (neg : Bool) (c : Nat) : Nat := if neg then 2 ^ (f.ew + f.fw) + c else c

/-- An arithmetic result: the rounded value, infinity beyond the range, the canonical quiet NaN (R75). -/
def ieee (f : FloatFmt) (r : Rnd) : Val → Nat
  | .nan => f.nanCode
  | .inf n => f.withSign n (f.infCode.getD f.maxCode)
  | .fin n m e =>
    let c := f.roundMag r m e
    f.withSign n (if c > f.maxCode then f.infCode.getD f.maxCode else c)

/-- The largest finite value. -/
def maxVal (f : FloatFmt) : Val := f.decode f.maxCode
/-- The exponent of the top binade, emax of R44. -/
def emax (f : FloatFmt) : Int := match f.maxVal with
  | .fin _ m e => expOf m e
  | _ => 0

end FloatFmt

/-- What a conversion wrote: the code, and whether the element counts as overflow or as NaN (R52, R53). -/
structure Conv where
  code : Nat
  ovf : Bool := false
  nan : Bool := false
  deriving DecidableEq, Repr, Inhabited

/-- A value converted to a float format (R52, R53). -/
def convFloat (f : FloatFmt) (r : Rnd) (infBit : Bool) : Val → Conv
  | .nan => { code := f.nanCode, nan := true }
  | .inf n => match f.infCode with
    | some i => { code := f.withSign n i }
    | none => { code := f.withSign n f.maxCode, ovf := true }
  | .fin n m e =>
    let c := f.roundMag r m e
    if c > f.maxCode then
      { code := f.withSign n (if infBit then f.infCode.getD f.maxCode else f.maxCode), ovf := true }
    else { code := f.withSign n c }

/-- A value converted to a two's-complement word of `w` bits with `frac` fraction bits (R53): beyond the
range the nearer end, NaN becomes 0. -/
def convFixed (w frac : Nat) (r : Rnd) : Val → Conv
  | .nan => { code := 0, nan := true }
  | .inf n => { code := codeOf w (if n then -(2 ^ (w - 1)) else 2 ^ (w - 1) - 1), ovf := true }
  | .fin n m e =>
    let a : Int := (roundTo r m e (-(frac : Int)) : Nat)
    let v := if n then -a else a
    { code := codeOf w (satSigned w v), ovf := satSigned w v ≠ v }

/-- The element formats of R58; `f48q2` and `f48q8` are the 48-bit form beside a source word that fixes its scale
(Q2.45 from Q2.61, Q8.39 from Q8.55). -/
inductive Fmt where
  | fp32 | bf16 | fp16 | e4m3 | e5m2 | i8 | i16 | i32 | q2 | q8 | f48 | f48q2 | f48q8
  | be4m3 | be5m2 | be3m2 | be2m3 | be2m1
  deriving DecidableEq, Repr, Inhabited

namespace Fmt

/-- The format of a 5-bit field: a code of R58 with bit 4 for the block-scaled form; none where the
rule refuses it. -/
def ofCode (c : BitVec 5) : Option Fmt :=
  match c.toNat with
  | 0x0 => some .fp32 | 0x1 => some .bf16 | 0x2 => some .fp16 | 0x3 => some .e4m3 | 0x4 => some .e5m2
  | 0x8 => some .i8 | 0x9 => some .i16 | 0xA => some .i32 | 0xB => some .q2 | 0xC => some .q8 | 0xD => some .f48
  | 0x13 => some .be4m3 | 0x14 => some .be5m2 | 0x15 => some .be3m2 | 0x16 => some .be2m3 | 0x17 => some .be2m1
  | _ => none

/-- The float format of a float or block-scaled element. -/
def float? : Fmt → Option FloatFmt
  | .fp32 => some .fp32 | .bf16 => some .bf16 | .fp16 => some .fp16
  | .e4m3 | .be4m3 => some .e4m3 | .e5m2 | .be5m2 => some .e5m2
  | .be3m2 => some .e3m2 | .be2m3 => some .e2m3 | .be2m1 => some .e2m1
  | _ => none

/-- Fraction bits of the 48-bit form where no Q word stands beside it (log entry 15). -/
def frac48 : Nat := if Config.form48IsQ8 then 39 else 45

/-- Width and fraction bits of a fixed-point element. -/
def fixed? : Fmt → Option (Nat × Nat)
  | .i8 => some (8, 0) | .i16 => some (16, 0) | .i32 => some (32, 0)
  | .q2 => some (64, 61) | .q8 => some (64, 55) | .f48 => some (48, frac48) | .f48q2 => some (48, 45) | .f48q8 => some (48, 39)
  | _ => none

/-- A destination format beside its source's: the 48-bit form takes the scale of the source word (R58). -/
def beside (df sf : Fmt) : Fmt :=
  match df, sf with
  | .f48, .q2 => .f48q2
  | .f48, .q8 => .f48q8
  | _, _ => df

def blocked : Fmt → Bool
  | .be4m3 | .be5m2 | .be3m2 | .be2m3 | .be2m1 => true
  | _ => false

/-- A wide float of R55. -/
def wide : Fmt → Bool
  | .fp32 | .bf16 | .fp16 => true
  | _ => false

/-- Bits an element takes in memory (R34, R36, R47; the 48-bit form takes six bytes, R41). -/
def bits (f : Fmt) : Nat :=
  match f.float?, f.fixed? with
  | some g, _ => g.width
  | none, some (w, _) => w
  | none, none => 0

/-- The value of an element code. -/
def value (f : Fmt) (code : Nat) : Val :=
  match f.float?, f.fixed? with
  | some g, _ => g.decode code
  | none, some (w, q) => .ofInt (signedOf w code) (-(q : Int))
  | none, none => .nan

/-- A value converted to one plain element. -/
def convert (f : Fmt) (r : Rnd) (infBit : Bool) (v : Val) : Conv :=
  match f.float?, f.fixed? with
  | some g, _ => convFloat g r infBit v
  | none, some (w, q) => convFixed w q r v
  | none, none => { code := 0 }

end Fmt

/-- The block sizes of R43. -/
def blockSize (bs : BitVec 2) : Nat := 16 * 2 ^ bs.toNat

/-- The smallest X from `x` up (R44 needs one step at most) for which a <= max finite * 2^X. -/
def scaleFrom (g : FloatFmt) (a : Val) (x : Int) : Int :=
  if (g.maxVal.scale x).lt a then x + 1 else x

/-- The scale exponent that R44 chooses for a block whose largest finite magnitude is `a`. -/
def chooseScale (g : FloatFmt) (a : Val) : Int :=
  match a with
  | .fin _ m e => if m = 0 then -127 else max (-127) (min 127 (scaleFrom g a (expOf m e - g.emax)))
  | _ => -127

/-- The largest magnitude of a block: an infinity counts as the largest finite FP32 value (R44). -/
def blockMax (vs : List Val) : Val :=
  vs.foldl (fun acc v =>
    let a := match v with
      | .inf _ => FloatFmt.fp32.maxVal
      | v => v.abs
    if acc.lt a then a else acc) Val.zero

/-- A block written under R44, R45, R52 and R53: the scale byte and the elements. -/
def convBlock (g : FloatFmt) (infBit : Bool) (vs : List (Val × Rnd)) : Byte × List Conv :=
  if vs.any (fun v => v.1.isNan) then (0xFF, vs.map fun _ => { code := 0, nan := true })
  else
    let x := chooseScale g (blockMax (vs.map (·.1)))
    (BitVec.ofInt 8 (x + 127), vs.map fun v =>
      match v.1 with
      | .inf n => if infBit && g.infCode.isSome then { code := g.withSign n (g.infCode.getD 0) }
                  else { code := g.withSign n g.maxCode, ovf := true }
      | a => convFloat g v.2 infBit (a.scale (-x)))

/-- The value of a block-scaled element under its scale byte (R42). -/
def blockValue (g : FloatFmt) (s : Byte) (code : Nat) : Val :=
  if s = 0xFF then .nan else (g.decode code).scale ((s.toNat : Int) - 127)

/-! Stochastic draws (R98). -/

def mixMul1 : W64 := 0xBF58476D1CE4E5B9
def mixMul2 : W64 := 0x94D049BB133111EB

/-- The bit mixer of R98. -/
def mix64 (z : W64) : W64 :=
  let a := (z ^^^ (z >>> 30)) * mixMul1
  let b := (a ^^^ (a >>> 27)) * mixMul2
  b ^^^ (b >>> 31)

/-- The draw of R98. -/
def srDraw (seed : W64) (step layer : Nat) (idx n : Nat) : Nat :=
  let key := mix64 (seed ^^^ mix64 (BitVec.ofNat 64 (step * 2 ^ 32) ||| BitVec.ofNat 64 layer))
  let z := mix64 (key ^^^ mix64 (BitVec.ofNat 64 idx ||| BitVec.ofNat 64 (n * 2 ^ 40)))
  z.toNat / 2 ^ 32

/-- Where draws come from: the job seed and the step number (R98). -/
structure DrawKey where
  seed : W64 := 0
  step : Nat := 0
  deriving DecidableEq, Repr, Inhabited

def DrawKey.draw (k : DrawKey) (layer idx n : Nat) : Nat := srDraw k.seed k.step layer idx n

/-- The rounding of an RND field: stochastic rounding draws once for each element (R51). -/
def rndOf (rnd : BitVec 2) (u : Nat) : Rnd :=
  if rnd = 1 then .rtz else if rnd = 2 then .sr 32 u else .rne

end Sys2Proof.Machine
end

