-- ==== Sys2Proof/Machine/RegTable.lean ====
section
/-! DEFINITION. The register tables: every register of BAR0 with its offset and its fields
(spec/03 R106, 04 R138, 05 R162, 06 R190, 07 R214, 08 R232, 09 R264, 10 R298, 11 R333, 12 R355 to R358,
13 R382, 14 R404, 15 R419), and a name for every field that is not reserved. -/

namespace Sys2Proof.Machine

/-- The access codes of R9. -/
inductive Acc where
  | rw | rwi | ro | sq | wo | rsv
  deriving DecidableEq, Repr, Inhabited

/-- A field row of a register table: bits [hi:lo], access, reset value; `live` marks an RO field that
this model computes from the state it reports. -/
structure FieldDef where
  hi : Nat
  lo : Nat
  acc : Acc
  reset : Nat := 0
  live : Bool := false
  deriving DecidableEq, Repr, Inhabited

/-- A register: its BAR0 offset (first of `count` at steps of `stride`; `perDie` repeats it for each
compute die) and its fields. -/
structure RegDef where
  off : Nat
  count : Nat := 1
  stride : Nat := 4
  perDie : Bool := false
  fields : List FieldDef
  deriving DecidableEq, Repr, Inhabited

/-- A field by place: BAR0 offset of its register, lowest bit, width, and the step of its family. -/
structure Fld where
  off : Nat
  lo : Nat
  w : Nat
  stride : Nat := 0
  deriving DecidableEq, Repr, Inhabited

/-- The distance between the register windows of two compute dies (R334). -/
def dieStep : Nat := 0x1000000
/-- The field in die `d`. -/
def Fld.die (f : Fld) (d : Fin 4) : Fld := { f with off := f.off + d.val * dieStep }
/-- The field in the k-th register of its family. -/
def Fld.nth (f : Fld) (k : Nat) : Fld := { f with off := f.off + k * f.stride }

namespace R

def GLB_ID : Nat := 0x0
def GLB_ID_ARITH_REV : Fld := ⟨0x0, 0, 8, 0x0⟩
def GLB_ID_STEPPING : Fld := ⟨0x0, 8, 8, 0x0⟩
def GLB_ID_GRADE : Fld := ⟨0x0, 16, 8, 0x0⟩
def GLB_MODE : Nat := 0x4
def GLB_MODE_SVC : Fld := ⟨0x4, 0, 2, 0x0⟩
def GLB_STAT : Nat := 0x8
def GLB_STAT_SEQ : Fld := ⟨0x8, 0, 8, 0x0⟩
def GLB_STAT_UNMAPPED : Fld := ⟨0x8, 8, 1, 0x0⟩
def GLB_STAT_WIDTH_ERR : Fld := ⟨0x8, 9, 1, 0x0⟩
def GLB_STAT_RSV_WR : Fld := ⟨0x8, 10, 1, 0x0⟩
def GLB_STAT_CFG_FAULT : Fld := ⟨0x8, 11, 1, 0x0⟩
def GLB_STAT_PARITY : Fld := ⟨0x8, 12, 1, 0x0⟩
def GLB_CFG_FAULT : Nat := 0xC
def GLB_CFG_FAULT_OFFSET : Fld := ⟨0xC, 0, 28, 0x0⟩
def GLB_CFG_FAULT_CAUSE : Fld := ⟨0xC, 28, 4, 0x0⟩
def GLB_UNMAPPED : Nat := 0x10
def GLB_UNMAPPED_OFFSET : Fld := ⟨0x10, 0, 28, 0x0⟩
def GLB_UNMAPPED_CAUSE : Fld := ⟨0x10, 28, 4, 0x0⟩
def GLB_COMMIT : Nat := 0x14
def GLB_COMMIT_GROUP : Fld := ⟨0x14, 0, 4, 0x0⟩
def GLB_COMMIT_DIES : Fld := ⟨0x14, 4, 4, 0x0⟩
def GLB_COMMIT_TAG : Fld := ⟨0x14, 8, 8, 0x0⟩
def GLB_COMMIT_STAT : Nat := 0x18
def GLB_COMMIT_STAT_PEND : Fld := ⟨0x18, 0, 11, 0x0⟩
def GLB_COMMIT_STAT_POSTED_TAG : Fld := ⟨0x18, 16, 8, 0x0⟩
def GLB_COMMIT_STAT_DONE_TAG : Fld := ⟨0x18, 24, 8, 0x0⟩
def GLB_DET : Nat := 0x20
def GLB_DET_MODE : Fld := ⟨0x20, 0, 1, 0x0⟩
def GLB_DET_EFFECTIVE : Fld := ⟨0x20, 1, 1, 0x0⟩
def GLB_DET_LOST : Fld := ⟨0x20, 2, 1, 0x0⟩
def GLB_NDET_CNT_LO : Nat := 0x28
def GLB_NDET_CNT_LO_VALUE : Fld := ⟨0x28, 0, 32, 0x0⟩
def GLB_NDET_CNT_HI : Nat := 0x2C
def GLB_NDET_CNT_HI_VALUE : Fld := ⟨0x2C, 0, 32, 0x0⟩
def GLB_NDET_DEMOTED : Nat := 0x30
def GLB_NDET_DEMOTED_VALUE : Fld := ⟨0x30, 0, 32, 0x0⟩
def GLB_NDET_FIRST : Nat := 0x34
def GLB_NDET_FIRST_VALUE : Fld := ⟨0x34, 0, 32, 0x0⟩
def GLB_ERR_CTL : Nat := 0x40
def GLB_ERR_CTL_AUTO_WARN : Fld := ⟨0x40, 0, 1, 0x0⟩
def GLB_ERR_CTL_WARN_ALERT : Fld := ⟨0x40, 1, 1, 0x0⟩
def GLB_ERR_CTL_ILL_WARN : Fld := ⟨0x40, 2, 1, 0x0⟩
def GLB_ERR_STAT : Nat := 0x44
def GLB_ERR_STAT_SEQ : Fld := ⟨0x44, 0, 8, 0x0⟩
def GLB_ERR_STAT_WARN : Fld := ⟨0x44, 8, 1, 0x0⟩
def GLB_ERR_STAT_JOB_FATAL : Fld := ⟨0x44, 9, 1, 0x0⟩
def GLB_ERR_STAT_FATAL : Fld := ⟨0x44, 10, 1, 0x0⟩
def GLB_ERR_STAT_LATCHED : Fld := ⟨0x44, 11, 1, 0x0⟩
def GLB_ERR_STAT_HOLD : Fld := ⟨0x44, 12, 1, 0x0⟩
def GLB_ERR_STAT_DEPTH : Fld := ⟨0x44, 13, 7, 0x0⟩
def GLB_ERR_RETIRE : Nat := 0x48
def GLB_ERR_RETIRE_SEQ : Fld := ⟨0x48, 0, 32, 0x0⟩
def GLB_ERR_LOST : Nat := 0x4C
def GLB_ERR_LOST_COUNT : Fld := ⟨0x4C, 0, 32, 0x0⟩
def GLB_RST_STAT : Nat := 0x50
def GLB_RST_STAT_SEQ : Fld := ⟨0x50, 0, 8, 0x0⟩
def GLB_RST_STAT_CAUSE : Fld := ⟨0x50, 8, 2, 0x0⟩
def GLB_RST_STAT_LINING_INIT : Fld := ⟨0x50, 10, 1, 0x0⟩
def GLB_RST_STAT_BLK_DONE : Fld := ⟨0x50, 11, 1, 0x0⟩
def GLB_RST_STAT_BLK_REFUSED : Fld := ⟨0x50, 12, 1, 0x0⟩
def GLB_BLK_RST : Nat := 0x54
def GLB_BLK_RST_TARGET : Fld := ⟨0x54, 0, 4, 0x0⟩
def GLB_BLK_RST_INDEX : Fld := ⟨0x54, 4, 4, 0x0⟩
def GLB_RSEQ_STAT : Nat := 0x58
def GLB_RSEQ_STAT_RESTARTING : Fld := ⟨0x58, 0, 4, 0x0⟩
def GLB_RSEQ_STAT_FAILS : Fld := ⟨0x58, 4, 4, 0x0⟩
def GLB_RSEQ_STAT_CLAMP : Fld := ⟨0x58, 8, 1, 0x0⟩
def CMD_RBASE_LO : Nat := 0x100000
def CMD_RBASE_LO_ADDR : Fld := ⟨0x100000, 0, 32, 0x40⟩
def CMD_RBASE_HI : Nat := 0x100004
def CMD_RBASE_HI_ADDR : Fld := ⟨0x100004, 0, 32, 0x40⟩
def CMD_SBASE_LO : Nat := 0x100008
def CMD_SBASE_LO_ADDR : Fld := ⟨0x100008, 0, 32, 0x40⟩
def CMD_SBASE_HI : Nat := 0x10000C
def CMD_SBASE_HI_ADDR : Fld := ⟨0x10000C, 0, 32, 0x40⟩
def CMD_RCTL : Nat := 0x100010
def CMD_RCTL_EN : Fld := ⟨0x100010, 0, 1, 0x40⟩
def CMD_RCTL_RLOG2 : Fld := ⟨0x100010, 1, 4, 0x40⟩
def CMD_RCTL_SLOG2 : Fld := ⟨0x100010, 5, 4, 0x40⟩
def CMD_RHEAD : Nat := 0x100014
def CMD_RHEAD_HEAD : Fld := ⟨0x100014, 0, 24, 0x40⟩
def CMD_SHEAD : Nat := 0x100018
def CMD_SHEAD_HEAD : Fld := ⟨0x100018, 0, 16, 0x40⟩
def CMD_SHEAD_WIDX : Fld := ⟨0x100018, 16, 16, 0x40⟩
def CMD_RSTAT : Nat := 0x10001C
def CMD_RSTAT_SEQ : Fld := ⟨0x10001C, 0, 8, 0x40⟩
def CMD_RSTAT_DB_ERR : Fld := ⟨0x10001C, 8, 1, 0x40⟩
def CMD_RSTAT_READ_ERR : Fld := ⟨0x10001C, 9, 1, 0x40⟩
def CMD_RSTAT_SFULL : Fld := ⟨0x10001C, 10, 1, 0x40⟩
def CMD_RSTAT_STOPPED : Fld := ⟨0x10001C, 11, 1, 0x40⟩
def CMD_RSEQ : Nat := 0x100020
def CMD_RSEQ_NEXT : Fld := ⟨0x100020, 0, 32, 0x40⟩
def CMD_DB : Nat := 0x101000
def CMD_DB_TAIL : Fld := ⟨0x101000, 0, 24, 0x1000⟩
def CMD_STAT : Nat := 0x100200
def CMD_STAT_SEQ : Fld := ⟨0x100200, 0, 8, 0x0⟩
def CMD_STAT_HANDSHAKE : Fld := ⟨0x100200, 8, 1, 0x0⟩
def CMD_STAT_MISMATCH : Fld := ⟨0x100200, 9, 1, 0x0⟩
def CMD_STAT_DSTATE : Fld := ⟨0x100200, 10, 3, 0x0⟩
def CMD_STAT_YIELD : Fld := ⟨0x100200, 13, 1, 0x0⟩
def CMD_STAT_QDEPTH : Fld := ⟨0x100200, 14, 5, 0x0⟩
def CMD_CTL : Nat := 0x100204
def CMD_CTL_TICK_IRQ : Fld := ⟨0x100204, 0, 1, 0x0⟩
def CMD_SCHED : Nat := 0x100208
def CMD_SCHED_HALF_LIFE_S : Fld := ⟨0x100208, 0, 16, 0x0⟩
def CMD_SCHED_AFF_S : Fld := ⟨0x100208, 16, 16, 0x0⟩
def CMD_JOB_LO : Nat := 0x10020C
def CMD_JOB_LO_JOB : Fld := ⟨0x10020C, 0, 32, 0x0⟩
def CMD_JOB_HI : Nat := 0x100210
def CMD_JOB_HI_JOB : Fld := ⟨0x100210, 0, 32, 0x0⟩
def CMD_RSID : Nat := 0x100214
def CMD_RSID_RETAINED : Fld := ⟨0x100214, 0, 16, 0x0⟩
def FRM_CTL : Nat := 0x200000
def FRM_CTL_PERIOD_US : Fld := ⟨0x200000, 0, 26, 0x0⟩
def FRM_CTL_SRC : Fld := ⟨0x200000, 26, 2, 0x0⟩
def FRM_CTL_POLICY : Fld := ⟨0x200000, 28, 1, 0x0⟩
def FRM_STAT : Nat := 0x200004
def FRM_STAT_SEQ : Fld := ⟨0x200004, 0, 8, 0x0⟩
def FRM_STAT_CLAMP : Fld := ⟨0x200004, 8, 1, 0x0⟩
def FRM_STAT_TICK_LOST : Fld := ⟨0x200004, 9, 1, 0x0⟩
def FRM_STAT_PHASE_ERR : Fld := ⟨0x200004, 10, 1, 0x0⟩
def FRM_STAT_ON_TIMER : Fld := ⟨0x200004, 11, 1, 0x0⟩
def FRM_STAT_OVERRUN_CNT : Fld := ⟨0x200004, 16, 8, 0x0⟩
def FRM_STAT_SKIPPED_CNT : Fld := ⟨0x200004, 24, 8, 0x0⟩
def FRM_COUNT_LO : Nat := 0x200008
def FRM_COUNT_LO_VALUE : Fld := ⟨0x200008, 0, 32, 0x0⟩
def FRM_COUNT_HI : Nat := 0x20000C
def FRM_COUNT_HI_VALUE : Fld := ⟨0x20000C, 0, 32, 0x0⟩
def FRM_OVERRUN_JOB : Nat := 0x200010
def FRM_OVERRUN_JOB_COUNT : Fld := ⟨0x200010, 0, 32, 0x0⟩
def FRM_SINCE_TICK : Nat := 0x200014
def FRM_SINCE_TICK_US : Fld := ⟨0x200014, 0, 26, 0x0⟩
def MITT_PROFILE_LO : Nat := 0x1000000
def MITT_PROFILE_LO_PROFILE : Fld := ⟨0x1000000, 0, 32, 0x0⟩
def MITT_PROFILE_HI : Nat := 0x1000004
def MITT_PROFILE_HI_PROFILE : Fld := ⟨0x1000004, 0, 32, 0x0⟩
def MITT_CTL : Nat := 0x1000008
def MITT_CTL_SR_EN : Fld := ⟨0x1000008, 0, 1, 0x0⟩
def MITT_CTL_OVF_EVENT : Fld := ⟨0x1000008, 1, 1, 0x0⟩
def MITT_STAT : Nat := 0x100000C
def MITT_STAT_SEQ : Fld := ⟨0x100000C, 0, 8, 0x0⟩
def MITT_STAT_INT_OVF : Fld := ⟨0x100000C, 8, 1, 0x0⟩
def MITT_STAT_FLT_INV : Fld := ⟨0x100000C, 9, 1, 0x0⟩
def MITT_STAT_ILL_INSTR : Fld := ⟨0x100000C, 10, 1, 0x0⟩
def MITT_STAT_SWITCHING : Fld := ⟨0x100000C, 11, 1, 0x0⟩
def MITT_STAT_DUP_DRAIN_CNT : Fld := ⟨0x100000C, 16, 8, 0x0⟩
def MITT_OVF_MAP_LO : Nat := 0x1000010
def MITT_OVF_MAP_LO_OVF : Fld := ⟨0x1000010, 0, 32, 0x0⟩
def MITT_OVF_MAP_HI : Nat := 0x1000014
def MITT_OVF_MAP_HI_OVF : Fld := ⟨0x1000014, 0, 32, 0x0⟩
def MITT_DRAIN_STALL : Nat := 0x1000018
def MITT_DRAIN_STALL_CYCLES : Fld := ⟨0x1000018, 0, 32, 0x0⟩
def CUFF_CTL : Nat := 0x1100000
def CUFF_CTL_EN : Fld := ⟨0x1100000, 0, 1, 0x0⟩
def CUFF_CTL_EVENT : Fld := ⟨0x1100000, 1, 1, 0x0⟩
def CUFF_CTL_BATCH : Fld := ⟨0x1100000, 16, 13, 0x0⟩
def CUFF_TDT_BASE : Nat := 0x1100004
def CUFF_TDT_BASE_UNITS : Fld := ⟨0x1100004, 0, 28, 0x0⟩
def CUFF_STORE_BASE : Nat := 0x1100008
def CUFF_STORE_BASE_UNITS : Fld := ⟨0x1100008, 0, 16, 0x0⟩
def CUFF_STORE_SIZE : Nat := 0x110000C
def CUFF_STORE_SIZE_UNITS : Fld := ⟨0x110000C, 0, 16, 0x0⟩
def CUFF_STAT : Nat := 0x1100010
def CUFF_STAT_SEQ : Fld := ⟨0x1100010, 0, 8, 0x0⟩
def CUFF_STAT_SAT : Fld := ⟨0x1100010, 8, 1, 0x0⟩
def CUFF_STAT_NAN_ROW : Fld := ⟨0x1100010, 9, 1, 0x0⟩
def CUFF_STAT_PROFILE_ERR : Fld := ⟨0x1100010, 10, 1, 0x0⟩
def CUFF_STAT_DESC_ERR : Fld := ⟨0x1100010, 11, 1, 0x0⟩
def CUFF_STAT_FACT_OVF : Fld := ⟨0x1100010, 12, 1, 0x0⟩
def CUFF_STAT_OLD_EPOCH : Fld := ⟨0x1100010, 13, 1, 0x0⟩
def CUFF_ROWS : Nat := 0x1100014
def CUFF_ROWS_COUNT : Fld := ⟨0x1100014, 0, 32, 0x0⟩
def CUFF_TAP_CYCLES : Nat := 0x1100018
def CUFF_TAP_CYCLES_COUNT : Fld := ⟨0x1100018, 0, 32, 0x0⟩
def CUFF_STALL : Nat := 0x110001C
def CUFF_STALL_COUNT : Fld := ⟨0x110001C, 0, 32, 0x0⟩
def GNT_CTL : Nat := 0x1300000
def GNT_CTL_EN : Fld := ⟨0x1300000, 0, 1, 0x0⟩
def GNT_CTL_DLR_EN : Fld := ⟨0x1300000, 1, 1, 0x0⟩
def GNT_CTL_REPLAY : Fld := ⟨0x1300000, 2, 1, 0x0⟩
def GNT_CTL_EVENT : Fld := ⟨0x1300000, 3, 1, 0x0⟩
def GNT_CTL_RESUME_MAX : Fld := ⟨0x1300000, 8, 8, 0x0⟩
def GNT_SDT_BASE : Nat := 0x1300004
def GNT_SDT_BASE_UNITS : Fld := ⟨0x1300004, 0, 28, 0x0⟩
def GNT_DLR_BASE : Nat := 0x1300008
def GNT_DLR_BASE_UNITS : Fld := ⟨0x1300008, 0, 28, 0x0⟩
def GNT_RPL_BASE : Nat := 0x130000C
def GNT_RPL_BASE_UNITS : Fld := ⟨0x130000C, 0, 28, 0x0⟩
def GNT_DLR_SIZE : Nat := 0x1300010
def GNT_DLR_SIZE_ENTRIES : Fld := ⟨0x1300010, 0, 16, 0x0⟩
def GNT_RPL_SIZE : Nat := 0x1300014
def GNT_RPL_SIZE_ENTRIES : Fld := ⟨0x1300014, 0, 16, 0x0⟩
def GNT_DLR_WPTR : Nat := 0x1300018
def GNT_DLR_WPTR_NEXT : Fld := ⟨0x1300018, 0, 16, 0x0⟩
def GNT_DLR_WPTR_WRAPS : Fld := ⟨0x1300018, 16, 16, 0x0⟩
def GNT_STAT : Nat := 0x130001C
def GNT_STAT_SEQ : Fld := ⟨0x130001C, 0, 8, 0x0⟩
def GNT_STAT_FAIL : Fld := ⟨0x130001C, 8, 1, 0x0⟩
def GNT_STAT_NOT_DEF : Fld := ⟨0x130001C, 9, 1, 0x0⟩
def GNT_STAT_OVF : Fld := ⟨0x130001C, 10, 1, 0x0⟩
def GNT_STAT_DEADLINE : Fld := ⟨0x130001C, 11, 1, 0x0⟩
def GNT_STAT_BUSY : Fld := ⟨0x130001C, 12, 1, 0x0⟩
def GNT_STAT_DESC_ERR : Fld := ⟨0x130001C, 13, 1, 0x0⟩
def GNT_STAT_REPLAY_ERR : Fld := ⟨0x130001C, 14, 1, 0x0⟩
def GNT_STAT_STATE : Fld := ⟨0x130001C, 16, 4, 0x0⟩
def GNT_RUN : Nat := 0x1300020
def GNT_RUN_DESC : Fld := ⟨0x1300020, 0, 16, 0x0⟩
def GNT_RUN_PROGRESS : Fld := ⟨0x1300020, 16, 16, 0x0⟩
def GNT_COMMITS : Nat := 0x1300024
def GNT_COMMITS_COUNT : Fld := ⟨0x1300024, 0, 32, 0x0⟩
def GNT_FAILS : Nat := 0x1300028
def GNT_FAILS_COUNT : Fld := ⟨0x1300028, 0, 32, 0x0⟩
def GNT_BUSY_CNT : Nat := 0x130002C
def GNT_BUSY_CNT_COUNT : Fld := ⟨0x130002C, 0, 32, 0x0⟩
def PALM_CTL : Nat := 0x1400000
def PALM_CTL_EN : Fld := ⟨0x1400000, 0, 1, 0x0⟩
def PALM_CTL_EVENT : Fld := ⟨0x1400000, 1, 1, 0x0⟩
def PALM_UDT_BASE : Nat := 0x1400004
def PALM_UDT_BASE_UNITS : Fld := ⟨0x1400004, 0, 28, 0x0⟩
def PALM_STAT : Nat := 0x1400008
def PALM_STAT_SEQ : Fld := ⟨0x1400008, 0, 8, 0x0⟩
def PALM_STAT_PROG_ERR : Fld := ⟨0x1400008, 8, 1, 0x0⟩
def PALM_STAT_NAN_SKIP : Fld := ⟨0x1400008, 9, 1, 0x0⟩
def PALM_STAT_REM_SAT : Fld := ⟨0x1400008, 10, 1, 0x0⟩
def PALM_STAT_OVF : Fld := ⟨0x1400008, 11, 1, 0x0⟩
def PALM_STAT_DUP_RUN : Fld := ⟨0x1400008, 12, 1, 0x0⟩
def PALM_STAT_NOROOT : Fld := ⟨0x1400008, 13, 1, 0x0⟩
def PALM_STAT_BUSY : Fld := ⟨0x1400008, 16, 1, 0x0⟩
def PALM_STAT_QDEPTH : Fld := ⟨0x1400008, 17, 7, 0x0⟩
def PALM_CUR : Nat := 0x140000C
def PALM_CUR_LAYER : Fld := ⟨0x140000C, 0, 14, 0x0⟩
def PALM_RUNS : Nat := 0x1400010
def PALM_RUNS_COUNT : Fld := ⟨0x1400010, 0, 32, 0x0⟩
def PALM_CYCLES : Nat := 0x1400014
def PALM_CYCLES_COUNT : Fld := ⟨0x1400014, 0, 32, 0x0⟩
def PALM_NAN_CNT : Nat := 0x1400018
def PALM_NAN_CNT_COUNT : Fld := ⟨0x1400018, 0, 32, 0x0⟩
def PALM_OVF_CNT : Nat := 0x140001C
def PALM_OVF_CNT_COUNT : Fld := ⟨0x140001C, 0, 32, 0x0⟩
def PALM_SAT_CNT : Nat := 0x1400020
def PALM_SAT_CNT_COUNT : Fld := ⟨0x1400020, 0, 32, 0x0⟩
def VEC_STAT : Nat := 0x1500000
def VEC_STAT_SEQ : Fld := ⟨0x1500000, 0, 8, 0x0⟩
def VEC_STAT_CVT_OVF : Fld := ⟨0x1500000, 8, 1, 0x0⟩
def VEC_STAT_CVT_INV : Fld := ⟨0x1500000, 9, 1, 0x0⟩
def HBX_BASE : Nat := 0x1600000
def HBX_BASE_UNITS : Fld := ⟨0x1600000, 0, 28, 0x20⟩
def HBX_SIZE : Nat := 0x1600004
def HBX_SIZE_UNITS : Fld := ⟨0x1600004, 0, 28, 0x20⟩
def HBX_PARK : Nat := 0x1600008
def HBX_PARK_UNITS : Fld := ⟨0x1600008, 0, 28, 0x20⟩
def HBX_BUDGET : Nat := 0x160000C
def HBX_BUDGET_MIB : Fld := ⟨0x160000C, 0, 20, 0x20⟩
def HBX_HWM : Nat := 0x1600010
def HBX_HWM_UNITS : Fld := ⟨0x1600010, 0, 28, 0x20⟩
def HBX_SPILL_BASE : Nat := 0x1600100
def HBX_SPILL_BASE_UNITS : Fld := ⟨0x1600100, 0, 31, 0x0⟩
def HBX_SPILL_SIZE : Nat := 0x1600104
def HBX_SPILL_SIZE_UNITS : Fld := ⟨0x1600104, 0, 31, 0x0⟩
def HBX_STAT : Nat := 0x1600108
def HBX_STAT_SEQ : Fld := ⟨0x1600108, 0, 8, 0x0⟩
def HBX_STAT_SPILL : Fld := ⟨0x1600108, 8, 1, 0x0⟩
def HBX_STAT_ORDER_ERR : Fld := ⟨0x1600108, 9, 1, 0x0⟩
def HBX_STAT_SPILL_FULL : Fld := ⟨0x1600108, 10, 1, 0x0⟩
def HBX_STAT_DEFER : Fld := ⟨0x1600108, 11, 1, 0x0⟩
def HBX_STAT_OPEN_SEG : Fld := ⟨0x1600108, 12, 8, 0x0⟩
def HBX_SPILL_UNITS : Nat := 0x160010C
def HBX_SPILL_UNITS_COUNT : Fld := ⟨0x160010C, 0, 32, 0x0⟩
def HBX_DEFER_CNT : Nat := 0x1600110
def HBX_DEFER_CNT_COUNT : Fld := ⟨0x1600110, 0, 32, 0x0⟩
def HBX_LEFTOVER : Nat := 0x1600114
def HBX_LEFTOVER_COUNT : Fld := ⟨0x1600114, 0, 32, 0x0⟩
def VIS_CTL : Nat := 0x1700000
def VIS_CTL_EN : Fld := ⟨0x1700000, 0, 1, 0x0⟩
def VIS_CTL_EVENT : Fld := ⟨0x1700000, 1, 1, 0x0⟩
def VIS_CTL_MODE_F : Fld := ⟨0x1700000, 2, 2, 0x0⟩
def VIS_CTL_MODE_I : Fld := ⟨0x1700000, 4, 2, 0x0⟩
def VIS_CTL_MODE_W : Fld := ⟨0x1700000, 6, 2, 0x0⟩
def VIS_CTL_FAULT_FATAL : Fld := ⟨0x1700000, 8, 1, 0x0⟩
def VIS_CTL_RATE : Fld := ⟨0x1700000, 16, 5, 0x0⟩
def VIS_CTL_DRIFT_TOL : Fld := ⟨0x1700000, 24, 6, 0x0⟩
def VIS_WATCH_BASE : Nat := 0x1700004
def VIS_WATCH_BASE_UNITS : Fld := ⟨0x1700004, 0, 28, 0x0⟩
def VIS_STARVE_BASE : Nat := 0x1700008
def VIS_STARVE_BASE_UNITS : Fld := ⟨0x1700008, 0, 28, 0x0⟩
def VIS_LOG_BASE : Nat := 0x170000C
def VIS_LOG_BASE_UNITS : Fld := ⟨0x170000C, 0, 28, 0x0⟩
def VIS_LOG_SIZE : Nat := 0x1700010
def VIS_LOG_SIZE_VALUE : Fld := ⟨0x1700010, 0, 16, 0x0⟩
def VIS_STARVE_CTL : Nat := 0x1700014
def VIS_STARVE_CTL_VALUE : Fld := ⟨0x1700014, 0, 16, 0x0⟩
def VIS_LOG_WPTR : Nat := 0x1700018
def VIS_LOG_WPTR_NEXT : Fld := ⟨0x1700018, 0, 16, 0x0⟩
def VIS_LOG_WPTR_WRAPS : Fld := ⟨0x1700018, 16, 16, 0x0⟩
def VIS_STAT : Nat := 0x170001C
def VIS_STAT_SEQ : Fld := ⟨0x170001C, 0, 8, 0x0⟩
def VIS_STAT_FAULT : Fld := ⟨0x170001C, 8, 1, 0x0⟩
def VIS_STAT_DRIFT : Fld := ⟨0x170001C, 9, 1, 0x0⟩
def VIS_STAT_SKIP : Fld := ⟨0x170001C, 10, 1, 0x0⟩
def VIS_STAT_STARVED : Fld := ⟨0x170001C, 11, 1, 0x0⟩
def VIS_STAT_BUSY : Fld := ⟨0x170001C, 12, 1, 0x0⟩
def VIS_CHECKS : Nat := 0x1700020
def VIS_CHECKS_COUNT : Fld := ⟨0x1700020, 0, 32, 0x0⟩
def VIS_SKIPS : Nat := 0x1700024
def VIS_SKIPS_COUNT : Fld := ⟨0x1700024, 0, 32, 0x0⟩
def VIS_WATCH_SUM : Nat := 0x1700028
def VIS_WATCH_SUM_SUM : Fld := ⟨0x1700028, 0, 12, 0x0⟩
def MEM_CTL : Nat := 0x5000000
def MEM_CTL_RETRAIN_IDLE : Fld := ⟨0x5000000, 0, 1, 0x0⟩
def MEM_CTL_EVENT : Fld := ⟨0x5000000, 1, 1, 0x0⟩
def MEM_STAT : Nat := 0x5000004
def MEM_STAT_SEQ : Fld := ⟨0x5000004, 0, 8, 0x0⟩
def MEM_STAT_CE : Fld := ⟨0x5000004, 8, 1, 0x0⟩
def MEM_STAT_UE : Fld := ⟨0x5000004, 9, 1, 0x0⟩
def MEM_STAT_MAP_ERR : Fld := ⟨0x5000004, 10, 1, 0x0⟩
def MEM_STAT_GRP_ERR : Fld := ⟨0x5000004, 11, 1, 0x0⟩
def MEM_STAT_KEY_ERR : Fld := ⟨0x5000004, 12, 1, 0x0⟩
def MEM_STAT_TRAINED : Fld := ⟨0x5000004, 13, 1, 0x0⟩
def MEM_STAT_STACK_FAIL : Fld := ⟨0x5000004, 14, 1, 0x0⟩
def MEM_STAT_WIPING : Fld := ⟨0x5000004, 15, 1, 0x0⟩
def MEM_STACK : Nat := 0x5000010
def MEM_STACK_STATE : Fld := ⟨0x5000010, 0, 2, 0x4⟩
def MEM_STACK_SPARES : Fld := ⟨0x5000010, 2, 7, 0x4⟩
def MEM_STACK_PENDING : Fld := ⟨0x5000010, 9, 7, 0x4⟩
def MEM_STACK_TEMP : Fld := ⟨0x5000010, 16, 8, 0x4⟩
def MEM_TRAIN : Nat := 0x5000030
def MEM_TRAIN_MARGIN : Fld := ⟨0x5000030, 0, 8, 0x0⟩
def MEM_SCRUB_CTL : Nat := 0x5000034
def MEM_SCRUB_CTL_PERIOD_H : Fld := ⟨0x5000034, 0, 8, 0x0⟩
def MEM_SCRUB_CTL_EN : Fld := ⟨0x5000034, 8, 1, 0x0⟩
def MEM_SCRUB_CTL_LANE_TH : Fld := ⟨0x5000034, 16, 16, 0x0⟩
def MEM_GRP_BASE : Nat := 0x5000040
def MEM_GRP_BASE_UNITS : Fld := ⟨0x5000040, 0, 28, 0x10⟩
def MEM_STAGE_BASE : Nat := 0x5000044
def MEM_STAGE_BASE_UNITS : Fld := ⟨0x5000044, 0, 28, 0x10⟩
def MEM_STAGE_SIZE : Nat := 0x5000048
def MEM_STAGE_SIZE_UNITS : Fld := ⟨0x5000048, 0, 28, 0x10⟩
def MEM_FAR_CTL : Nat := 0x5000080
def MEM_FAR_CTL_ILV : Fld := ⟨0x5000080, 0, 1, 0x0⟩
def MEM_FAR_CTL_ILV_ERR : Fld := ⟨0x5000080, 1, 1, 0x0⟩
def MEM_FAR_CAP : Nat := 0x5000084
def MEM_FAR_CAP_CAP : Fld := ⟨0x5000084, 0, 15, 0x8⟩
def MEM_FAR_STAT : Nat := 0x5000088
def MEM_FAR_STAT_WIDTH : Fld := ⟨0x5000088, 0, 5, 0x8⟩
def MEM_FAR_STAT_RATE : Fld := ⟨0x5000088, 5, 2, 0x8⟩
def MEM_FAR_STAT_DOWN : Fld := ⟨0x5000088, 7, 1, 0x8⟩
def MEM_FAR_STAT_TRUNC : Fld := ⟨0x5000088, 8, 1, 0x8⟩
def MEM_LOG_BASE : Nat := 0x50000A0
def MEM_LOG_BASE_UNITS : Fld := ⟨0x50000A0, 0, 28, 0x0⟩
def MEM_LOG_SIZE : Nat := 0x50000A4
def MEM_LOG_SIZE_ENTRIES : Fld := ⟨0x50000A4, 0, 16, 0x0⟩
def MEM_LOG_WPTR : Nat := 0x50000A8
def MEM_LOG_WPTR_NEXT : Fld := ⟨0x50000A8, 0, 16, 0x0⟩
def MEM_LOG_WPTR_WRAPS : Fld := ⟨0x50000A8, 16, 16, 0x0⟩
def MEM_CE_CNT : Nat := 0x50000B0
def MEM_CE_CNT_COUNT : Fld := ⟨0x50000B0, 0, 32, 0x4⟩
def MEM_UE_CNT : Nat := 0x50000D0
def MEM_UE_CNT_COUNT : Fld := ⟨0x50000D0, 0, 32, 0x0⟩
def MEM_LATE_CNT : Nat := 0x50000D4
def MEM_LATE_CNT_COUNT : Fld := ⟨0x50000D4, 0, 32, 0x0⟩
def FAB_CTL : Nat := 0x6000000
def FAB_CTL_EN : Fld := ⟨0x6000000, 0, 1, 0x0⟩
def FAB_CTL_GATE : Fld := ⟨0x6000000, 1, 1, 0x0⟩
def FAB_CTL_EVENT : Fld := ⟨0x6000000, 2, 1, 0x0⟩
def FAB_CTL_SPARE_FRAMES : Fld := ⟨0x6000000, 8, 8, 0x0⟩
def FAB_CTL_CUTOFF_PCT : Fld := ⟨0x6000000, 16, 7, 0x0⟩
def FAB_CTL_ACK_MIN : Fld := ⟨0x6000000, 24, 3, 0x0⟩
def FAB_SELF : Nat := 0x6000004
def FAB_SELF_INDEX : Fld := ⟨0x6000004, 0, 12, 0x0⟩
def FAB_SELF_MASTER : Fld := ⟨0x6000004, 16, 12, 0x0⟩
def FAB_SELF_NO_MASTER : Fld := ⟨0x6000004, 28, 1, 0x0⟩
def FAB_LOSS : Nat := 0x6000008
def FAB_LOSS_LOSS_US : Fld := ⟨0x6000008, 0, 14, 0x0⟩
def FAB_VC_WEIGHT : Nat := 0x600000C
def FAB_VC_WEIGHT_W1 : Fld := ⟨0x600000C, 0, 4, 0x0⟩
def FAB_VC_WEIGHT_W2 : Fld := ⟨0x600000C, 4, 4, 0x0⟩
def FAB_VC_WEIGHT_W3 : Fld := ⟨0x600000C, 8, 4, 0x0⟩
def FAB_VC_WEIGHT_W4 : Fld := ⟨0x600000C, 12, 4, 0x0⟩
def FAB_VC_WEIGHT_W5 : Fld := ⟨0x600000C, 16, 4, 0x0⟩
def FAB_VC_WEIGHT_W6 : Fld := ⟨0x600000C, 20, 4, 0x0⟩
def FAB_VC_WEIGHT_W7 : Fld := ⟨0x600000C, 24, 4, 0x0⟩
def FAB_STAT : Nat := 0x6000010
def FAB_STAT_SEQ : Fld := ⟨0x6000010, 0, 8, 0x0⟩
def FAB_STAT_PEER_LOST : Fld := ⟨0x6000010, 8, 1, 0x0⟩
def FAB_STAT_GONE : Fld := ⟨0x6000010, 9, 1, 0x0⟩
def FAB_STAT_DROP : Fld := ⟨0x6000010, 10, 1, 0x0⟩
def FAB_STAT_EPOCH_DEFER : Fld := ⟨0x6000010, 11, 1, 0x0⟩
def FAB_STAT_TAKEOVER : Fld := ⟨0x6000010, 12, 1, 0x0⟩
def FAB_STAT_NO_SINK : Fld := ⟨0x6000010, 13, 1, 0x0⟩
def FAB_STAT_DIV_OPEN : Fld := ⟨0x6000010, 16, 12, 0x0⟩
def FAB_DIR_BASE : Nat := 0x6000014
def FAB_DIR_BASE_UNITS : Fld := ⟨0x6000014, 0, 28, 0x0⟩
def FAB_DS_CTL : Nat := 0x6000018
def FAB_DS_CTL_BASE_EVERY : Fld := ⟨0x6000018, 0, 16, 0x0⟩
def FAB_DS_SINK : Nat := 0x6000020
def FAB_DS_SINK_PEER : Fld := ⟨0x6000020, 0, 12, 0x4⟩
def FAB_DS_SINK_HOST : Fld := ⟨0x6000020, 12, 1, 0x4⟩
def FAB_DS_SINK_EN : Fld := ⟨0x6000020, 13, 1, 0x4⟩
def FAB_PORT_STAT : Nat := 0x6000040
def FAB_PORT_STAT_WIDTH : Fld := ⟨0x6000040, 0, 3, 0x4⟩
def FAB_PORT_STAT_UP : Fld := ⟨0x6000040, 3, 1, 0x4⟩
def FAB_PORT_STAT_PARTNER : Fld := ⟨0x6000040, 4, 12, 0x4⟩
def FAB_PORT_STAT_REPLAYS : Fld := ⟨0x6000040, 16, 8, 0x4⟩
def FAB_FOLD_CNT : Nat := 0x6000080
def FAB_FOLD_CNT_COUNT : Fld := ⟨0x6000080, 0, 32, 0x0⟩
def FAB_DROP_CNT : Nat := 0x6000084
def FAB_DROP_CNT_COUNT : Fld := ⟨0x6000084, 0, 32, 0x0⟩
def FAB_GONE_CNT : Nat := 0x6000088
def FAB_GONE_CNT_COUNT : Fld := ⟨0x6000088, 0, 32, 0x0⟩
def FAB_PIN_BROKEN : Nat := 0x600008C
def FAB_PIN_BROKEN_COUNT : Fld := ⟨0x600008C, 0, 32, 0x0⟩
def FAB_REFETCH_CNT : Nat := 0x6000090
def FAB_REFETCH_CNT_COUNT : Fld := ⟨0x6000090, 0, 32, 0x0⟩
def FAB_DIV_CNT : Nat := 0x6000094
def FAB_DIV_CNT_COUNT : Fld := ⟨0x6000094, 0, 32, 0x0⟩
def FAB_ABANDON_CNT : Nat := 0x6000098
def FAB_ABANDON_CNT_COUNT : Fld := ⟨0x6000098, 0, 32, 0x0⟩
def FAB_OLD_EPOCH_CNT : Nat := 0x600009C
def FAB_OLD_EPOCH_CNT_COUNT : Fld := ⟨0x600009C, 0, 32, 0x0⟩
def FAB_IDLE_PACT_LO : Nat := 0x6000100
def FAB_IDLE_PACT_LO_VALUE : Fld := ⟨0x6000100, 0, 32, 0x40⟩
def FAB_IDLE_PACT_HI : Nat := 0x6000104
def FAB_IDLE_PACT_HI_VALUE : Fld := ⟨0x6000104, 0, 32, 0x40⟩
def FAB_IDLE_PGRD_LO : Nat := 0x6000108
def FAB_IDLE_PGRD_LO_VALUE : Fld := ⟨0x6000108, 0, 32, 0x40⟩
def FAB_IDLE_PGRD_HI : Nat := 0x600010C
def FAB_IDLE_PGRD_HI_VALUE : Fld := ⟨0x600010C, 0, 32, 0x40⟩
def FAB_IDLE_FETCH_LO : Nat := 0x6000110
def FAB_IDLE_FETCH_LO_VALUE : Fld := ⟨0x6000110, 0, 32, 0x40⟩
def FAB_IDLE_FETCH_HI : Nat := 0x6000114
def FAB_IDLE_FETCH_HI_VALUE : Fld := ⟨0x6000114, 0, 32, 0x40⟩
def FAB_IDLE_MEM_LO : Nat := 0x6000118
def FAB_IDLE_MEM_LO_VALUE : Fld := ⟨0x6000118, 0, 32, 0x40⟩
def FAB_IDLE_MEM_HI : Nat := 0x600011C
def FAB_IDLE_MEM_HI_VALUE : Fld := ⟨0x600011C, 0, 32, 0x40⟩
def FAB_IDLE_FRAME_LO : Nat := 0x6000120
def FAB_IDLE_FRAME_LO_VALUE : Fld := ⟨0x6000120, 0, 32, 0x40⟩
def FAB_IDLE_FRAME_HI : Nat := 0x6000124
def FAB_IDLE_FRAME_HI_VALUE : Fld := ⟨0x6000124, 0, 32, 0x40⟩
def FAB_IDLE_HOST_LO : Nat := 0x6000128
def FAB_IDLE_HOST_LO_VALUE : Fld := ⟨0x6000128, 0, 32, 0x40⟩
def FAB_IDLE_HOST_HI : Nat := 0x600012C
def FAB_IDLE_HOST_HI_VALUE : Fld := ⟨0x600012C, 0, 32, 0x40⟩
def PWR_CTL : Nat := 0x7000000
def PWR_CTL_EVENT : Fld := ⟨0x7000000, 0, 1, 0x0⟩
def PWR_PL_SUST : Nat := 0x7000004
def PWR_PL_SUST_VALUE : Fld := ⟨0x7000004, 0, 11, 0x0⟩
def PWR_PL_PEAK : Nat := 0x7000008
def PWR_PL_PEAK_VALUE : Fld := ⟨0x7000008, 0, 11, 0x0⟩
def PWR_PL_TIME : Nat := 0x700000C
def PWR_PL_TIME_VALUE : Fld := ⟨0x700000C, 0, 11, 0x0⟩
def PWR_TJ_TARGET : Nat := 0x7000010
def PWR_TJ_TARGET_VALUE : Fld := ⟨0x7000010, 0, 11, 0x0⟩
def PWR_STK_TARGET : Nat := 0x7000014
def PWR_STK_TARGET_VALUE : Fld := ⟨0x7000014, 0, 11, 0x0⟩
def PWR_STAT : Nat := 0x7000020
def PWR_STAT_SEQ : Fld := ⟨0x7000020, 0, 8, 0x0⟩
def PWR_STAT_POWER : Fld := ⟨0x7000020, 8, 1, 0x0⟩
def PWR_STAT_THERMAL : Fld := ⟨0x7000020, 9, 1, 0x0⟩
def PWR_STAT_TRIP : Fld := ⟨0x7000020, 10, 1, 0x0⟩
def PWR_STAT_VIN : Fld := ⟨0x7000020, 11, 1, 0x0⟩
def PWR_STAT_CLAMP : Fld := ⟨0x7000020, 12, 1, 0x0⟩
def PWR_STAT_EMERG : Fld := ⟨0x7000020, 13, 1, 0x0⟩
def PWR_IN : Nat := 0x7000024
def PWR_IN_VALUE : Fld := ⟨0x7000024, 0, 16, 0x0⟩
def PWR_IN_AUX : Fld := ⟨0x7000024, 16, 16, 0x0⟩
def PWR_BUCKET : Nat := 0x7000028
def PWR_BUCKET_VALUE : Fld := ⟨0x7000028, 0, 16, 0x0⟩
def PWR_BUCKET_AUX : Fld := ⟨0x7000028, 16, 16, 0x0⟩
def PWR_TJ_MAX : Nat := 0x700002C
def PWR_TJ_MAX_VALUE : Fld := ⟨0x700002C, 0, 16, 0x0⟩
def PWR_TJ_MAX_AUX : Fld := ⟨0x700002C, 16, 16, 0x0⟩
def PWR_DUTY : Nat := 0x7000030
def PWR_DUTY_VALUE : Fld := ⟨0x7000030, 0, 32, 0x4⟩
def PWR_THR_US : Nat := 0x7000040
def PWR_THR_US_VALUE : Fld := ⟨0x7000040, 0, 32, 0x4⟩
def PWR_FW_STAT : Nat := 0x7000050
def PWR_FW_STAT_BOOT : Fld := ⟨0x7000050, 0, 1, 0x0⟩
def PWR_FW_STAT_PENDING : Fld := ⟨0x7000050, 1, 1, 0x0⟩
def PWR_FW_STAT_DEFERRED : Fld := ⟨0x7000050, 2, 1, 0x0⟩
def PWR_FW_STAT_STAGED1 : Fld := ⟨0x7000050, 3, 1, 0x0⟩
def PWR_FW_STAT_STAGED0 : Fld := ⟨0x7000050, 4, 1, 0x0⟩
def PWR_FW_STAT_NOBOOT : Fld := ⟨0x7000050, 5, 1, 0x0⟩
def PWR_CAL_STAT : Nat := 0x7000054
def PWR_CAL_STAT_FACTORY : Fld := ⟨0x7000054, 0, 1, 0x0⟩
def PWR_CAL_STAT_RECAL : Fld := ⟨0x7000054, 1, 1, 0x0⟩
def PWR_CAL_STAT_USER : Fld := ⟨0x7000054, 2, 1, 0x0⟩
def PWR_CAL_STAT_INVALID : Fld := ⟨0x7000054, 3, 1, 0x0⟩
def PWR_CLAMP_CAUSE : Nat := 0x7000058
def PWR_CLAMP_CAUSE_CAUSE : Fld := ⟨0x7000058, 0, 7, 0x0⟩
def SEC_DEVID_LO : Nat := 0x7800000
def SEC_DEVID_LO_VALUE : Fld := ⟨0x7800000, 0, 32, 0x0⟩
def SEC_DEVID_HI : Nat := 0x7800004
def SEC_DEVID_HI_VALUE : Fld := ⟨0x7800004, 0, 32, 0x0⟩
def SEC_LC : Nat := 0x7800008
def SEC_LC_STATE : Fld := ⟨0x7800008, 0, 3, 0x0⟩
def SEC_LC_IDCERT : Fld := ⟨0x7800008, 3, 1, 0x0⟩
def SEC_LC_DEBUG : Fld := ⟨0x7800008, 4, 1, 0x0⟩
def SEC_STAT : Nat := 0x780000C
def SEC_STAT_SEQ : Fld := ⟨0x780000C, 0, 8, 0x0⟩
def SEC_STAT_BOOT_FALLBACK : Fld := ⟨0x780000C, 8, 1, 0x0⟩
def SEC_STAT_SIG_REJECT : Fld := ⟨0x780000C, 9, 1, 0x0⟩
def SEC_STAT_FUSE_REPAIRED : Fld := ⟨0x780000C, 10, 1, 0x0⟩
def SEC_STAT_KEYS_READY : Fld := ⟨0x780000C, 11, 1, 0x0⟩
def SEC_FUSE : Nat := 0x7800010
def SEC_FUSE_ROOT0 : Fld := ⟨0x7800010, 0, 1, 0x0⟩
def SEC_FUSE_ROOT1 : Fld := ⟨0x7800010, 1, 1, 0x0⟩
def SEC_FUSE_ROOT0_REVOKED : Fld := ⟨0x7800010, 2, 1, 0x0⟩
def SEC_FUSE_UDS : Fld := ⟨0x7800010, 3, 1, 0x0⟩
def SEC_FUSE_MIN_SV : Fld := ⟨0x7800010, 4, 7, 0x0⟩
def SEC_LC_NONCE : Nat := 0x7800020
def SEC_LC_NONCE_VALUE : Fld := ⟨0x7800020, 0, 32, 0x4⟩
def IND_ADDR : Nat := 0x7C00000
def IND_ADDR_OFFSET : Fld := ⟨0x7C00000, 2, 26, 0x0⟩
def IND_ADDR_SPACE : Fld := ⟨0x7C00000, 28, 4, 0x0⟩
def IND_DATA : Nat := 0x7C00004
def IND_DATA_DATA : Fld := ⟨0x7C00004, 0, 32, 0x0⟩
def IND_CTL : Nat := 0x7C00008
def IND_CTL_AINC : Fld := ⟨0x7C00008, 0, 1, 0x0⟩
def IND_CTL_STRIDE : Fld := ⟨0x7C00008, 8, 8, 0x0⟩
def IND_STAT : Nat := 0x7C0000C
def IND_STAT_TIMEOUT : Fld := ⟨0x7C0000C, 0, 1, 0x0⟩
def IND_STAT_SPACE_ERR : Fld := ⟨0x7C0000C, 1, 1, 0x0⟩
def IND_STAT_BUSY : Fld := ⟨0x7C0000C, 2, 1, 0x0⟩

end R

def regsGlbA : List RegDef := [
  ⟨R.GLB_ID, 1, 0x4, false, [⟨7, 0, .ro, 0x1, false⟩, ⟨15, 8, .ro, 0x0, true⟩, ⟨23, 16, .ro, 0x0, true⟩, ⟨31, 24, .rsv, 0x0, false⟩]⟩,
  ⟨R.GLB_MODE, 1, 0x4, false, [⟨1, 0, .ro, 0x0, true⟩, ⟨31, 2, .rsv, 0x0, false⟩]⟩,
  ⟨R.GLB_STAT, 1, 0x4, false, [⟨7, 0, .ro, 0x0, false⟩, ⟨8, 8, .sq, 0x0, false⟩, ⟨9, 9, .sq, 0x0, false⟩, ⟨10, 10, .sq, 0x0, false⟩, ⟨11, 11, .sq, 0x0, false⟩, ⟨12, 12, .sq, 0x0, false⟩, ⟨31, 13, .rsv, 0x0, false⟩]⟩,
  ⟨R.GLB_CFG_FAULT, 1, 0x4, false, [⟨27, 0, .ro, 0x0, false⟩, ⟨31, 28, .ro, 0x0, false⟩]⟩,
  ⟨R.GLB_UNMAPPED, 1, 0x4, false, [⟨27, 0, .ro, 0x0, false⟩, ⟨31, 28, .ro, 0x0, false⟩]⟩,
  ⟨R.GLB_COMMIT, 1, 0x4, false, [⟨3, 0, .wo, 0x0, false⟩, ⟨7, 4, .wo, 0x0, false⟩, ⟨15, 8, .wo, 0x0, false⟩, ⟨31, 16, .rsv, 0x0, false⟩]⟩,
  ⟨R.GLB_COMMIT_STAT, 1, 0x4, false, [⟨10, 0, .ro, 0x0, true⟩, ⟨15, 11, .rsv, 0x0, false⟩, ⟨23, 16, .ro, 0x0, false⟩, ⟨31, 24, .ro, 0x0, false⟩]⟩,
  ⟨R.GLB_DET, 1, 0x4, false, [⟨0, 0, .rw, 0x1, false⟩, ⟨1, 1, .ro, 0x0, false⟩, ⟨2, 2, .ro, 0x0, false⟩, ⟨31, 3, .rsv, 0x0, false⟩]⟩,
  ⟨R.GLB_NDET_CNT_LO, 1, 0x4, false, [⟨31, 0, .ro, 0x0, false⟩]⟩,
  ⟨R.GLB_NDET_CNT_HI, 1, 0x4, false, [⟨31, 0, .ro, 0x0, false⟩]⟩,
  ⟨R.GLB_NDET_DEMOTED, 1, 0x4, false, [⟨31, 0, .ro, 0x0, false⟩]⟩,
  ⟨R.GLB_NDET_FIRST, 1, 0x4, false, [⟨31, 0, .ro, 0xFFFFFFFF, false⟩]⟩]
def regsGlbB : List RegDef := [
  ⟨R.GLB_ERR_CTL, 1, 0x4, false, [⟨0, 0, .rwi, 0x0, false⟩, ⟨1, 1, .rwi, 0x0, false⟩, ⟨2, 2, .rwi, 0x0, false⟩, ⟨31, 3, .rsv, 0x0, false⟩]⟩,
  ⟨R.GLB_ERR_STAT, 1, 0x4, false, [⟨7, 0, .ro, 0x0, false⟩, ⟨8, 8, .sq, 0x0, false⟩, ⟨9, 9, .sq, 0x0, false⟩, ⟨10, 10, .sq, 0x0, false⟩, ⟨11, 11, .ro, 0x0, false⟩, ⟨12, 12, .ro, 0x0, true⟩, ⟨19, 13, .ro, 0x0, true⟩, ⟨31, 20, .rsv, 0x0, false⟩]⟩,
  ⟨R.GLB_ERR_RETIRE, 1, 0x4, false, [⟨31, 0, .wo, 0x0, false⟩]⟩,
  ⟨R.GLB_ERR_LOST, 1, 0x4, false, [⟨31, 0, .ro, 0x0, false⟩]⟩,
  ⟨R.GLB_RST_STAT, 1, 0x4, false, [⟨7, 0, .ro, 0x0, false⟩, ⟨9, 8, .ro, 0x0, false⟩, ⟨10, 10, .ro, 0x0, false⟩, ⟨11, 11, .sq, 0x0, false⟩, ⟨12, 12, .sq, 0x0, false⟩, ⟨31, 13, .rsv, 0x0, false⟩]⟩,
  ⟨R.GLB_BLK_RST, 1, 0x4, false, [⟨3, 0, .wo, 0x0, false⟩, ⟨7, 4, .wo, 0x0, false⟩, ⟨31, 8, .rsv, 0x0, false⟩]⟩,
  ⟨R.GLB_RSEQ_STAT, 1, 0x4, false, [⟨3, 0, .ro, 0x0, true⟩, ⟨7, 4, .ro, 0x0, true⟩, ⟨8, 8, .ro, 0x0, true⟩, ⟨31, 9, .rsv, 0x0, false⟩]⟩]
def regsGlb : List RegDef := regsGlbA ++ regsGlbB

def regsCmdA : List RegDef := [
  ⟨R.CMD_RBASE_LO, 4, 0x40, false, [⟨31, 0, .rwi, 0x0, false⟩]⟩,
  ⟨R.CMD_RBASE_HI, 4, 0x40, false, [⟨31, 0, .rwi, 0x0, false⟩]⟩,
  ⟨R.CMD_SBASE_LO, 4, 0x40, false, [⟨31, 0, .rwi, 0x0, false⟩]⟩,
  ⟨R.CMD_SBASE_HI, 4, 0x40, false, [⟨31, 0, .rwi, 0x0, false⟩]⟩,
  ⟨R.CMD_RCTL, 4, 0x40, false, [⟨0, 0, .rwi, 0x0, false⟩, ⟨4, 1, .rwi, 0x0, false⟩, ⟨8, 5, .rwi, 0x0, false⟩, ⟨31, 9, .rsv, 0x0, false⟩]⟩,
  ⟨R.CMD_RHEAD, 4, 0x40, false, [⟨23, 0, .ro, 0x0, true⟩, ⟨31, 24, .rsv, 0x0, false⟩]⟩,
  ⟨R.CMD_SHEAD, 4, 0x40, false, [⟨15, 0, .rwi, 0x0, false⟩, ⟨31, 16, .ro, 0x0, true⟩]⟩,
  ⟨R.CMD_RSTAT, 4, 0x40, false, [⟨7, 0, .ro, 0x0, false⟩, ⟨8, 8, .sq, 0x0, false⟩, ⟨9, 9, .sq, 0x0, false⟩, ⟨10, 10, .sq, 0x0, false⟩, ⟨11, 11, .ro, 0x0, true⟩, ⟨31, 12, .rsv, 0x0, false⟩]⟩,
  ⟨R.CMD_RSEQ, 4, 0x40, false, [⟨31, 0, .ro, 0x0, true⟩]⟩,
  ⟨R.CMD_DB, 4, 0x1000, false, [⟨23, 0, .wo, 0x0, false⟩, ⟨31, 24, .rsv, 0x0, false⟩]⟩,
  ⟨R.CMD_STAT, 1, 0x4, false, [⟨7, 0, .ro, 0x0, false⟩, ⟨8, 8, .ro, 0x0, true⟩, ⟨9, 9, .ro, 0x0, true⟩, ⟨12, 10, .ro, 0x0, true⟩, ⟨13, 13, .ro, 0x0, true⟩, ⟨18, 14, .ro, 0x0, true⟩, ⟨31, 19, .rsv, 0x0, false⟩]⟩,
  ⟨R.CMD_CTL, 1, 0x4, false, [⟨0, 0, .rwi, 0x0, false⟩, ⟨31, 1, .rsv, 0x0, false⟩]⟩]
def regsCmdB : List RegDef := [
  ⟨R.CMD_SCHED, 1, 0x4, false, [⟨15, 0, .rwi, 0xE10, false⟩, ⟨31, 16, .rwi, 0x3C, false⟩]⟩,
  ⟨R.CMD_JOB_LO, 1, 0x4, false, [⟨31, 0, .ro, 0x0, true⟩]⟩,
  ⟨R.CMD_JOB_HI, 1, 0x4, false, [⟨31, 0, .ro, 0x0, true⟩]⟩,
  ⟨R.CMD_RSID, 1, 0x4, false, [⟨15, 0, .ro, 0x0, true⟩, ⟨31, 16, .rsv, 0x0, false⟩]⟩]
def regsCmd : List RegDef := regsCmdA ++ regsCmdB

def regsFrm : List RegDef := [
  ⟨R.FRM_CTL, 1, 0x4, false, [⟨25, 0, .rw, 0xF4240, false⟩, ⟨27, 26, .rw, 0x0, false⟩, ⟨28, 28, .rw, 0x0, false⟩, ⟨31, 29, .rsv, 0x0, false⟩]⟩,
  ⟨R.FRM_STAT, 1, 0x4, false, [⟨7, 0, .ro, 0x0, false⟩, ⟨8, 8, .sq, 0x0, false⟩, ⟨9, 9, .sq, 0x0, false⟩, ⟨10, 10, .sq, 0x0, false⟩, ⟨11, 11, .ro, 0x0, true⟩, ⟨15, 12, .rsv, 0x0, false⟩, ⟨23, 16, .sq, 0x0, false⟩, ⟨31, 24, .sq, 0x0, false⟩]⟩,
  ⟨R.FRM_COUNT_LO, 1, 0x4, false, [⟨31, 0, .ro, 0x0, true⟩]⟩,
  ⟨R.FRM_COUNT_HI, 1, 0x4, false, [⟨31, 0, .ro, 0x0, true⟩]⟩,
  ⟨R.FRM_OVERRUN_JOB, 1, 0x4, false, [⟨31, 0, .ro, 0x0, false⟩]⟩,
  ⟨R.FRM_SINCE_TICK, 1, 0x4, false, [⟨25, 0, .ro, 0x0, true⟩, ⟨31, 26, .rsv, 0x0, false⟩]⟩]

def regsMitt : List RegDef := [
  ⟨R.MITT_PROFILE_LO, 1, 0x4, true, [⟨31, 0, .rw, 0x0, false⟩]⟩,
  ⟨R.MITT_PROFILE_HI, 1, 0x4, true, [⟨31, 0, .rw, 0x0, false⟩]⟩,
  ⟨R.MITT_CTL, 1, 0x4, true, [⟨0, 0, .rw, 0x0, false⟩, ⟨1, 1, .rwi, 0x1, false⟩, ⟨7, 2, .rsv, 0x0, false⟩, ⟨31, 8, .rsv, 0x0, false⟩]⟩,
  ⟨R.MITT_STAT, 1, 0x4, true, [⟨7, 0, .ro, 0x0, false⟩, ⟨8, 8, .sq, 0x0, false⟩, ⟨9, 9, .sq, 0x0, false⟩, ⟨10, 10, .sq, 0x0, false⟩, ⟨11, 11, .ro, 0x0, true⟩, ⟨15, 12, .rsv, 0x0, false⟩, ⟨23, 16, .sq, 0x0, false⟩, ⟨31, 24, .rsv, 0x0, false⟩]⟩,
  ⟨R.MITT_OVF_MAP_LO, 1, 0x4, true, [⟨31, 0, .ro, 0x0, false⟩]⟩,
  ⟨R.MITT_OVF_MAP_HI, 1, 0x4, true, [⟨31, 0, .ro, 0x0, false⟩]⟩,
  ⟨R.MITT_DRAIN_STALL, 1, 0x4, true, [⟨31, 0, .ro, 0x0, false⟩]⟩]

def regsCuff : List RegDef := [
  ⟨R.CUFF_CTL, 1, 0x4, true, [⟨0, 0, .rw, 0x0, false⟩, ⟨1, 1, .rwi, 0x1, false⟩, ⟨15, 2, .rsv, 0x0, false⟩, ⟨28, 16, .rw, 0x400, false⟩, ⟨31, 29, .rsv, 0x0, false⟩]⟩,
  ⟨R.CUFF_TDT_BASE, 1, 0x4, true, [⟨27, 0, .rw, 0x0, false⟩, ⟨31, 28, .rsv, 0x0, false⟩]⟩,
  ⟨R.CUFF_STORE_BASE, 1, 0x4, true, [⟨15, 0, .rw, 0x0, false⟩, ⟨31, 16, .rsv, 0x0, false⟩]⟩,
  ⟨R.CUFF_STORE_SIZE, 1, 0x4, true, [⟨15, 0, .rw, 0x0, false⟩, ⟨31, 16, .rsv, 0x0, false⟩]⟩,
  ⟨R.CUFF_STAT, 1, 0x4, true, [⟨7, 0, .ro, 0x0, false⟩, ⟨8, 8, .sq, 0x0, false⟩, ⟨9, 9, .sq, 0x0, false⟩, ⟨10, 10, .sq, 0x0, false⟩, ⟨11, 11, .sq, 0x0, false⟩, ⟨12, 12, .sq, 0x0, false⟩, ⟨13, 13, .sq, 0x0, false⟩, ⟨31, 14, .rsv, 0x0, false⟩]⟩,
  ⟨R.CUFF_ROWS, 1, 0x4, true, [⟨31, 0, .ro, 0x0, false⟩]⟩,
  ⟨R.CUFF_TAP_CYCLES, 1, 0x4, true, [⟨31, 0, .ro, 0x0, false⟩]⟩,
  ⟨R.CUFF_STALL, 1, 0x4, true, [⟨31, 0, .ro, 0x0, false⟩]⟩]

def regsGnt : List RegDef := [
  ⟨R.GNT_CTL, 1, 0x4, true, [⟨0, 0, .rw, 0x0, false⟩, ⟨1, 1, .rw, 0x0, false⟩, ⟨2, 2, .rw, 0x0, false⟩, ⟨3, 3, .rwi, 0x1, false⟩, ⟨7, 4, .rsv, 0x0, false⟩, ⟨15, 8, .rw, 0x4, false⟩, ⟨31, 16, .rsv, 0x0, false⟩]⟩,
  ⟨R.GNT_SDT_BASE, 1, 0x4, true, [⟨27, 0, .rw, 0x0, false⟩, ⟨31, 28, .rsv, 0x0, false⟩]⟩,
  ⟨R.GNT_DLR_BASE, 1, 0x4, true, [⟨27, 0, .rw, 0x0, false⟩, ⟨31, 28, .rsv, 0x0, false⟩]⟩,
  ⟨R.GNT_RPL_BASE, 1, 0x4, true, [⟨27, 0, .rw, 0x0, false⟩, ⟨31, 28, .rsv, 0x0, false⟩]⟩,
  ⟨R.GNT_DLR_SIZE, 1, 0x4, true, [⟨15, 0, .rw, 0x0, false⟩, ⟨31, 16, .rsv, 0x0, false⟩]⟩,
  ⟨R.GNT_RPL_SIZE, 1, 0x4, true, [⟨15, 0, .rw, 0x0, false⟩, ⟨31, 16, .rsv, 0x0, false⟩]⟩,
  ⟨R.GNT_DLR_WPTR, 1, 0x4, true, [⟨15, 0, .ro, 0x0, false⟩, ⟨31, 16, .ro, 0x0, false⟩]⟩,
  ⟨R.GNT_STAT, 1, 0x4, true, [⟨7, 0, .ro, 0x0, false⟩, ⟨8, 8, .sq, 0x0, false⟩, ⟨9, 9, .sq, 0x0, false⟩, ⟨10, 10, .sq, 0x0, false⟩, ⟨11, 11, .sq, 0x0, false⟩, ⟨12, 12, .sq, 0x0, false⟩, ⟨13, 13, .sq, 0x0, false⟩, ⟨14, 14, .sq, 0x0, false⟩, ⟨15, 15, .rsv, 0x0, false⟩, ⟨19, 16, .ro, 0x0, true⟩, ⟨31, 20, .rsv, 0x0, false⟩]⟩,
  ⟨R.GNT_RUN, 1, 0x4, true, [⟨15, 0, .ro, 0x0, true⟩, ⟨31, 16, .ro, 0x0, true⟩]⟩,
  ⟨R.GNT_COMMITS, 1, 0x4, true, [⟨31, 0, .ro, 0x0, false⟩]⟩,
  ⟨R.GNT_FAILS, 1, 0x4, true, [⟨31, 0, .ro, 0x0, false⟩]⟩,
  ⟨R.GNT_BUSY_CNT, 1, 0x4, true, [⟨31, 0, .ro, 0x0, false⟩]⟩]

def regsPalm : List RegDef := [
  ⟨R.PALM_CTL, 1, 0x4, true, [⟨0, 0, .rw, 0x0, false⟩, ⟨1, 1, .rwi, 0x1, false⟩, ⟨31, 2, .rsv, 0x0, false⟩]⟩,
  ⟨R.PALM_UDT_BASE, 1, 0x4, true, [⟨27, 0, .rw, 0x0, false⟩, ⟨31, 28, .rsv, 0x0, false⟩]⟩,
  ⟨R.PALM_STAT, 1, 0x4, true, [⟨7, 0, .ro, 0x0, false⟩, ⟨8, 8, .sq, 0x0, false⟩, ⟨9, 9, .sq, 0x0, false⟩, ⟨10, 10, .sq, 0x0, false⟩, ⟨11, 11, .sq, 0x0, false⟩, ⟨12, 12, .sq, 0x0, false⟩, ⟨13, 13, .sq, 0x0, false⟩, ⟨15, 14, .rsv, 0x0, false⟩, ⟨16, 16, .ro, 0x0, true⟩, ⟨23, 17, .ro, 0x0, true⟩, ⟨31, 24, .rsv, 0x0, false⟩]⟩,
  ⟨R.PALM_CUR, 1, 0x4, true, [⟨13, 0, .ro, 0x0, false⟩, ⟨31, 14, .rsv, 0x0, false⟩]⟩,
  ⟨R.PALM_RUNS, 1, 0x4, true, [⟨31, 0, .ro, 0x0, false⟩]⟩,
  ⟨R.PALM_CYCLES, 1, 0x4, true, [⟨31, 0, .ro, 0x0, false⟩]⟩,
  ⟨R.PALM_NAN_CNT, 1, 0x4, true, [⟨31, 0, .ro, 0x0, false⟩]⟩,
  ⟨R.PALM_OVF_CNT, 1, 0x4, true, [⟨31, 0, .ro, 0x0, false⟩]⟩,
  ⟨R.PALM_SAT_CNT, 1, 0x4, true, [⟨31, 0, .ro, 0x0, false⟩]⟩]

def regsVec : List RegDef := [
  ⟨R.VEC_STAT, 1, 0x4, true, [⟨7, 0, .ro, 0x0, false⟩, ⟨8, 8, .sq, 0x0, false⟩, ⟨9, 9, .sq, 0x0, false⟩, ⟨31, 10, .rsv, 0x0, false⟩]⟩]

def regsHbx : List RegDef := [
  ⟨R.HBX_BASE, 8, 0x20, true, [⟨27, 0, .rw, 0x0, false⟩, ⟨31, 28, .rsv, 0x0, false⟩]⟩,
  ⟨R.HBX_SIZE, 8, 0x20, true, [⟨27, 0, .rw, 0x0, false⟩, ⟨31, 28, .rsv, 0x0, false⟩]⟩,
  ⟨R.HBX_PARK, 8, 0x20, true, [⟨27, 0, .rw, 0x0, false⟩, ⟨31, 28, .rsv, 0x0, false⟩]⟩,
  ⟨R.HBX_BUDGET, 8, 0x20, true, [⟨19, 0, .rw, 0x0, false⟩, ⟨31, 20, .rsv, 0x0, false⟩]⟩,
  ⟨R.HBX_HWM, 8, 0x20, true, [⟨27, 0, .ro, 0x0, false⟩, ⟨31, 28, .rsv, 0x0, false⟩]⟩,
  ⟨R.HBX_SPILL_BASE, 1, 0x4, true, [⟨30, 0, .rw, 0x0, false⟩, ⟨31, 31, .rsv, 0x0, false⟩]⟩,
  ⟨R.HBX_SPILL_SIZE, 1, 0x4, true, [⟨30, 0, .rw, 0x0, false⟩, ⟨31, 31, .rsv, 0x0, false⟩]⟩,
  ⟨R.HBX_STAT, 1, 0x4, true, [⟨7, 0, .ro, 0x0, false⟩, ⟨8, 8, .sq, 0x0, false⟩, ⟨9, 9, .sq, 0x0, false⟩, ⟨10, 10, .sq, 0x0, false⟩, ⟨11, 11, .sq, 0x0, false⟩, ⟨19, 12, .ro, 0x0, true⟩, ⟨31, 20, .rsv, 0x0, false⟩]⟩,
  ⟨R.HBX_SPILL_UNITS, 1, 0x4, true, [⟨31, 0, .ro, 0x0, false⟩]⟩,
  ⟨R.HBX_DEFER_CNT, 1, 0x4, true, [⟨31, 0, .ro, 0x0, false⟩]⟩,
  ⟨R.HBX_LEFTOVER, 1, 0x4, true, [⟨31, 0, .ro, 0x0, false⟩]⟩]

def regsVis : List RegDef := [
  ⟨R.VIS_CTL, 1, 0x4, true, [⟨0, 0, .rw, 0x0, false⟩, ⟨1, 1, .rwi, 0x1, false⟩, ⟨3, 2, .rw, 0x1, false⟩, ⟨5, 4, .rw, 0x1, false⟩, ⟨7, 6, .rw, 0x1, false⟩, ⟨8, 8, .rw, 0x0, false⟩, ⟨15, 9, .rsv, 0x0, false⟩, ⟨20, 16, .rw, 0xA, false⟩, ⟨23, 21, .rsv, 0x0, false⟩, ⟨29, 24, .rw, 0x8, false⟩, ⟨31, 30, .rsv, 0x0, false⟩]⟩,
  ⟨R.VIS_WATCH_BASE, 1, 0x4, true, [⟨27, 0, .rw, 0x0, false⟩, ⟨31, 28, .rsv, 0x0, false⟩]⟩,
  ⟨R.VIS_STARVE_BASE, 1, 0x4, true, [⟨27, 0, .rw, 0x0, false⟩, ⟨31, 28, .rsv, 0x0, false⟩]⟩,
  ⟨R.VIS_LOG_BASE, 1, 0x4, true, [⟨27, 0, .rw, 0x0, false⟩, ⟨31, 28, .rsv, 0x0, false⟩]⟩,
  ⟨R.VIS_LOG_SIZE, 1, 0x4, true, [⟨15, 0, .rw, 0x0, false⟩, ⟨31, 16, .rsv, 0x0, false⟩]⟩,
  ⟨R.VIS_STARVE_CTL, 1, 0x4, true, [⟨15, 0, .rw, 0x100, false⟩, ⟨31, 16, .rsv, 0x0, false⟩]⟩,
  ⟨R.VIS_LOG_WPTR, 1, 0x4, true, [⟨15, 0, .ro, 0x0, false⟩, ⟨31, 16, .ro, 0x0, false⟩]⟩,
  ⟨R.VIS_STAT, 1, 0x4, true, [⟨7, 0, .ro, 0x0, false⟩, ⟨8, 8, .sq, 0x0, false⟩, ⟨9, 9, .sq, 0x0, false⟩, ⟨10, 10, .sq, 0x0, false⟩, ⟨11, 11, .sq, 0x0, false⟩, ⟨12, 12, .ro, 0x0, true⟩, ⟨31, 13, .rsv, 0x0, false⟩]⟩,
  ⟨R.VIS_CHECKS, 1, 0x4, true, [⟨31, 0, .ro, 0x0, false⟩]⟩,
  ⟨R.VIS_SKIPS, 1, 0x4, true, [⟨31, 0, .ro, 0x0, false⟩]⟩,
  ⟨R.VIS_WATCH_SUM, 1, 0x4, true, [⟨11, 0, .ro, 0x0, true⟩, ⟨31, 12, .rsv, 0x0, false⟩]⟩]

def regsMemA : List RegDef := [
  ⟨R.MEM_CTL, 1, 0x4, false, [⟨0, 0, .rw, 0x1, false⟩, ⟨1, 1, .rwi, 0x1, false⟩, ⟨31, 2, .rsv, 0x0, false⟩]⟩,
  ⟨R.MEM_STAT, 1, 0x4, false, [⟨7, 0, .ro, 0x0, false⟩, ⟨8, 8, .sq, 0x0, false⟩, ⟨9, 9, .sq, 0x0, false⟩, ⟨10, 10, .sq, 0x0, false⟩, ⟨11, 11, .sq, 0x0, false⟩, ⟨12, 12, .sq, 0x0, false⟩, ⟨13, 13, .ro, 0x0, false⟩, ⟨14, 14, .ro, 0x0, false⟩, ⟨15, 15, .ro, 0x0, false⟩, ⟨31, 16, .rsv, 0x0, false⟩]⟩,
  ⟨R.MEM_STACK, 8, 0x4, false, [⟨1, 0, .ro, 0x0, false⟩, ⟨8, 2, .ro, 0x0, false⟩, ⟨15, 9, .ro, 0x0, false⟩, ⟨23, 16, .ro, 0x0, false⟩, ⟨31, 24, .rsv, 0x0, false⟩]⟩,
  ⟨R.MEM_TRAIN, 1, 0x4, false, [⟨7, 0, .rwi, 0x20, false⟩, ⟨31, 8, .rsv, 0x0, false⟩]⟩,
  ⟨R.MEM_SCRUB_CTL, 1, 0x4, false, [⟨7, 0, .rwi, 0x18, false⟩, ⟨8, 8, .rwi, 0x1, false⟩, ⟨15, 9, .rsv, 0x0, false⟩, ⟨31, 16, .rwi, 0x40, false⟩]⟩,
  ⟨R.MEM_GRP_BASE, 4, 0x10, false, [⟨27, 0, .rw, 0x0, false⟩, ⟨31, 28, .rsv, 0x0, false⟩]⟩,
  ⟨R.MEM_STAGE_BASE, 4, 0x10, false, [⟨27, 0, .rw, 0x0, false⟩, ⟨31, 28, .rsv, 0x0, false⟩]⟩,
  ⟨R.MEM_STAGE_SIZE, 4, 0x10, false, [⟨27, 0, .rw, 0x0, false⟩, ⟨31, 28, .rsv, 0x0, false⟩]⟩,
  ⟨R.MEM_FAR_CTL, 1, 0x4, false, [⟨0, 0, .rw, 0x0, false⟩, ⟨1, 1, .ro, 0x0, false⟩, ⟨31, 2, .rsv, 0x0, false⟩]⟩,
  ⟨R.MEM_FAR_CAP, 2, 0x8, false, [⟨14, 0, .ro, 0x0, false⟩, ⟨31, 15, .rsv, 0x0, false⟩]⟩,
  ⟨R.MEM_FAR_STAT, 2, 0x8, false, [⟨4, 0, .ro, 0x0, false⟩, ⟨6, 5, .ro, 0x0, false⟩, ⟨7, 7, .sq, 0x0, false⟩, ⟨8, 8, .ro, 0x0, false⟩, ⟨31, 9, .rsv, 0x0, false⟩]⟩,
  ⟨R.MEM_LOG_BASE, 1, 0x4, false, [⟨27, 0, .rwi, 0x0, false⟩, ⟨31, 28, .rsv, 0x0, false⟩]⟩]
def regsMemB : List RegDef := [
  ⟨R.MEM_LOG_SIZE, 1, 0x4, false, [⟨15, 0, .rwi, 0x0, false⟩, ⟨31, 16, .rsv, 0x0, false⟩]⟩,
  ⟨R.MEM_LOG_WPTR, 1, 0x4, false, [⟨15, 0, .ro, 0x0, false⟩, ⟨31, 16, .ro, 0x0, false⟩]⟩,
  ⟨R.MEM_CE_CNT, 8, 0x4, false, [⟨31, 0, .ro, 0x0, false⟩]⟩,
  ⟨R.MEM_UE_CNT, 1, 0x4, false, [⟨31, 0, .ro, 0x0, false⟩]⟩,
  ⟨R.MEM_LATE_CNT, 1, 0x4, false, [⟨31, 0, .ro, 0x0, false⟩]⟩]
def regsMem : List RegDef := regsMemA ++ regsMemB

def regsFabA : List RegDef := [
  ⟨R.FAB_CTL, 1, 0x4, false, [⟨0, 0, .rw, 0x0, false⟩, ⟨1, 1, .rw, 0x1, false⟩, ⟨2, 2, .rwi, 0x1, false⟩, ⟨7, 3, .rsv, 0x0, false⟩, ⟨15, 8, .rw, 0x2, false⟩, ⟨22, 16, .rw, 0x0, false⟩, ⟨23, 23, .rsv, 0x0, false⟩, ⟨26, 24, .rw, 0x1, false⟩, ⟨31, 27, .rsv, 0x0, false⟩]⟩,
  ⟨R.FAB_SELF, 1, 0x4, false, [⟨11, 0, .ro, 0x0, false⟩, ⟨15, 12, .rsv, 0x0, false⟩, ⟨27, 16, .ro, 0x0, true⟩, ⟨28, 28, .ro, 0x0, true⟩, ⟨31, 29, .rsv, 0x0, false⟩]⟩,
  ⟨R.FAB_LOSS, 1, 0x4, false, [⟨13, 0, .rwi, 0x64, false⟩, ⟨31, 14, .rsv, 0x0, false⟩]⟩,
  ⟨R.FAB_VC_WEIGHT, 1, 0x4, false, [⟨3, 0, .rw, 0x1, false⟩, ⟨7, 4, .rw, 0x1, false⟩, ⟨11, 8, .rw, 0x1, false⟩, ⟨15, 12, .rw, 0x1, false⟩, ⟨19, 16, .rw, 0x1, false⟩, ⟨23, 20, .rw, 0x1, false⟩, ⟨27, 24, .rw, 0x1, false⟩, ⟨31, 28, .rsv, 0x0, false⟩]⟩,
  ⟨R.FAB_STAT, 1, 0x4, false, [⟨7, 0, .ro, 0x0, false⟩, ⟨8, 8, .sq, 0x0, false⟩, ⟨9, 9, .sq, 0x0, false⟩, ⟨10, 10, .sq, 0x0, false⟩, ⟨11, 11, .sq, 0x0, false⟩, ⟨12, 12, .sq, 0x0, false⟩, ⟨13, 13, .ro, 0x0, true⟩, ⟨15, 14, .rsv, 0x0, false⟩, ⟨27, 16, .ro, 0x0, true⟩, ⟨31, 28, .rsv, 0x0, false⟩]⟩,
  ⟨R.FAB_DIR_BASE, 1, 0x4, false, [⟨27, 0, .rw, 0x0, false⟩, ⟨31, 28, .rsv, 0x0, false⟩]⟩,
  ⟨R.FAB_DS_CTL, 1, 0x4, false, [⟨15, 0, .rw, 0x0, false⟩, ⟨31, 16, .rsv, 0x0, false⟩]⟩,
  ⟨R.FAB_DS_SINK, 4, 0x4, false, [⟨11, 0, .rw, 0x0, false⟩, ⟨12, 12, .rw, 0x0, false⟩, ⟨13, 13, .rw, 0x0, false⟩, ⟨31, 14, .rsv, 0x0, false⟩]⟩,
  ⟨R.FAB_PORT_STAT, 16, 0x4, false, [⟨2, 0, .ro, 0x0, true⟩, ⟨3, 3, .ro, 0x0, true⟩, ⟨15, 4, .ro, 0x0, true⟩, ⟨23, 16, .sq, 0x0, false⟩, ⟨31, 24, .rsv, 0x0, false⟩]⟩,
  ⟨R.FAB_FOLD_CNT, 1, 0x4, false, [⟨31, 0, .ro, 0x0, false⟩]⟩,
  ⟨R.FAB_DROP_CNT, 1, 0x4, false, [⟨31, 0, .ro, 0x0, false⟩]⟩,
  ⟨R.FAB_GONE_CNT, 1, 0x4, false, [⟨31, 0, .ro, 0x0, false⟩]⟩]
def regsFabB : List RegDef := [
  ⟨R.FAB_PIN_BROKEN, 1, 0x4, false, [⟨31, 0, .ro, 0x0, false⟩]⟩,
  ⟨R.FAB_REFETCH_CNT, 1, 0x4, false, [⟨31, 0, .ro, 0x0, false⟩]⟩,
  ⟨R.FAB_DIV_CNT, 1, 0x4, false, [⟨31, 0, .ro, 0x0, false⟩]⟩,
  ⟨R.FAB_ABANDON_CNT, 1, 0x4, false, [⟨31, 0, .ro, 0x0, false⟩]⟩,
  ⟨R.FAB_OLD_EPOCH_CNT, 1, 0x4, false, [⟨31, 0, .ro, 0x0, false⟩]⟩,
  ⟨R.FAB_IDLE_PACT_LO, 4, 0x40, false, [⟨31, 0, .ro, 0x0, false⟩]⟩,
  ⟨R.FAB_IDLE_PACT_HI, 4, 0x40, false, [⟨31, 0, .ro, 0x0, false⟩]⟩,
  ⟨R.FAB_IDLE_PGRD_LO, 4, 0x40, false, [⟨31, 0, .ro, 0x0, false⟩]⟩,
  ⟨R.FAB_IDLE_PGRD_HI, 4, 0x40, false, [⟨31, 0, .ro, 0x0, false⟩]⟩,
  ⟨R.FAB_IDLE_FETCH_LO, 4, 0x40, false, [⟨31, 0, .ro, 0x0, false⟩]⟩,
  ⟨R.FAB_IDLE_FETCH_HI, 4, 0x40, false, [⟨31, 0, .ro, 0x0, false⟩]⟩,
  ⟨R.FAB_IDLE_MEM_LO, 4, 0x40, false, [⟨31, 0, .ro, 0x0, false⟩]⟩]
def regsFabC : List RegDef := [
  ⟨R.FAB_IDLE_MEM_HI, 4, 0x40, false, [⟨31, 0, .ro, 0x0, false⟩]⟩,
  ⟨R.FAB_IDLE_FRAME_LO, 4, 0x40, false, [⟨31, 0, .ro, 0x0, false⟩]⟩,
  ⟨R.FAB_IDLE_FRAME_HI, 4, 0x40, false, [⟨31, 0, .ro, 0x0, false⟩]⟩,
  ⟨R.FAB_IDLE_HOST_LO, 4, 0x40, false, [⟨31, 0, .ro, 0x0, false⟩]⟩,
  ⟨R.FAB_IDLE_HOST_HI, 4, 0x40, false, [⟨31, 0, .ro, 0x0, false⟩]⟩]
def regsFab : List RegDef := regsFabA ++ regsFabB ++ regsFabC

def regsPwrA : List RegDef := [
  ⟨R.PWR_CTL, 1, 0x4, false, [⟨0, 0, .rwi, 0x1, false⟩, ⟨31, 1, .rsv, 0x0, false⟩]⟩,
  ⟨R.PWR_PL_SUST, 1, 0x4, false, [⟨10, 0, .rwi, 0x3E8, false⟩, ⟨31, 11, .rsv, 0x0, false⟩]⟩,
  ⟨R.PWR_PL_PEAK, 1, 0x4, false, [⟨10, 0, .rwi, 0x4B0, false⟩, ⟨31, 11, .rsv, 0x0, false⟩]⟩,
  ⟨R.PWR_PL_TIME, 1, 0x4, false, [⟨10, 0, .rwi, 0xA, false⟩, ⟨31, 11, .rsv, 0x0, false⟩]⟩,
  ⟨R.PWR_TJ_TARGET, 1, 0x4, false, [⟨10, 0, .rwi, 0x5F, false⟩, ⟨31, 11, .rsv, 0x0, false⟩]⟩,
  ⟨R.PWR_STK_TARGET, 1, 0x4, false, [⟨10, 0, .rwi, 0x55, false⟩, ⟨31, 11, .rsv, 0x0, false⟩]⟩,
  ⟨R.PWR_STAT, 1, 0x4, false, [⟨7, 0, .ro, 0x0, false⟩, ⟨8, 8, .sq, 0x0, false⟩, ⟨9, 9, .sq, 0x0, false⟩, ⟨10, 10, .sq, 0x0, false⟩, ⟨11, 11, .sq, 0x0, false⟩, ⟨12, 12, .ro, 0x0, true⟩, ⟨13, 13, .ro, 0x0, true⟩, ⟨31, 14, .rsv, 0x0, false⟩]⟩,
  ⟨R.PWR_IN, 1, 0x4, false, [⟨15, 0, .ro, 0x0, true⟩, ⟨31, 16, .ro, 0x0, true⟩]⟩,
  ⟨R.PWR_BUCKET, 1, 0x4, false, [⟨15, 0, .ro, 0x0, true⟩, ⟨31, 16, .ro, 0x0, true⟩]⟩,
  ⟨R.PWR_TJ_MAX, 1, 0x4, false, [⟨15, 0, .ro, 0x0, true⟩, ⟨31, 16, .ro, 0x0, true⟩]⟩,
  ⟨R.PWR_DUTY, 4, 0x4, false, [⟨31, 0, .ro, 0x0, true⟩]⟩,
  ⟨R.PWR_THR_US, 4, 0x4, false, [⟨31, 0, .ro, 0x0, false⟩]⟩]
def regsPwrB : List RegDef := [
  ⟨R.PWR_FW_STAT, 1, 0x4, false, [⟨0, 0, .ro, 0x0, true⟩, ⟨1, 1, .ro, 0x0, true⟩, ⟨2, 2, .ro, 0x0, true⟩, ⟨3, 3, .ro, 0x0, true⟩, ⟨4, 4, .ro, 0x0, true⟩, ⟨5, 5, .ro, 0x0, true⟩, ⟨31, 6, .rsv, 0x0, false⟩]⟩,
  ⟨R.PWR_CAL_STAT, 1, 0x4, false, [⟨0, 0, .ro, 0x0, true⟩, ⟨1, 1, .ro, 0x0, true⟩, ⟨2, 2, .ro, 0x0, true⟩, ⟨3, 3, .ro, 0x0, true⟩, ⟨31, 4, .rsv, 0x0, false⟩]⟩,
  ⟨R.PWR_CLAMP_CAUSE, 1, 0x4, false, [⟨6, 0, .ro, 0x0, true⟩, ⟨31, 7, .rsv, 0x0, false⟩]⟩]
def regsPwr : List RegDef := regsPwrA ++ regsPwrB

def regsSec : List RegDef := [
  ⟨R.SEC_DEVID_LO, 1, 0x4, false, [⟨31, 0, .ro, 0x0, true⟩]⟩,
  ⟨R.SEC_DEVID_HI, 1, 0x4, false, [⟨31, 0, .ro, 0x0, true⟩]⟩,
  ⟨R.SEC_LC, 1, 0x4, false, [⟨2, 0, .ro, 0x0, true⟩, ⟨3, 3, .ro, 0x0, true⟩, ⟨4, 4, .ro, 0x0, true⟩, ⟨31, 5, .rsv, 0x0, false⟩]⟩,
  ⟨R.SEC_STAT, 1, 0x4, false, [⟨7, 0, .ro, 0x0, false⟩, ⟨8, 8, .sq, 0x0, false⟩, ⟨9, 9, .sq, 0x0, false⟩, ⟨10, 10, .sq, 0x0, false⟩, ⟨11, 11, .ro, 0x0, true⟩, ⟨31, 12, .rsv, 0x0, false⟩]⟩,
  ⟨R.SEC_FUSE, 1, 0x4, false, [⟨0, 0, .ro, 0x0, true⟩, ⟨1, 1, .ro, 0x0, true⟩, ⟨2, 2, .ro, 0x0, true⟩, ⟨3, 3, .ro, 0x0, true⟩, ⟨10, 4, .ro, 0x0, true⟩, ⟨31, 11, .rsv, 0x0, false⟩]⟩,
  ⟨R.SEC_LC_NONCE, 8, 0x4, false, [⟨31, 0, .ro, 0x0, true⟩]⟩]

def regsInd : List RegDef := [
  ⟨R.IND_ADDR, 1, 0x4, false, [⟨1, 0, .rsv, 0x0, false⟩, ⟨27, 2, .rwi, 0x0, false⟩, ⟨31, 28, .rwi, 0x0, false⟩]⟩,
  ⟨R.IND_DATA, 1, 0x4, false, [⟨31, 0, .rwi, 0x0, false⟩]⟩,
  ⟨R.IND_CTL, 1, 0x4, false, [⟨0, 0, .rwi, 0x1, false⟩, ⟨7, 1, .rsv, 0x0, false⟩, ⟨15, 8, .rwi, 0x1, false⟩, ⟨31, 16, .rsv, 0x0, false⟩]⟩,
  ⟨R.IND_STAT, 1, 0x4, false, [⟨0, 0, .ro, 0x0, false⟩, ⟨1, 1, .ro, 0x0, false⟩, ⟨2, 2, .ro, 0x0, false⟩, ⟨31, 3, .rsv, 0x0, false⟩]⟩]

/-- The blocks of BAR0 (R334) and the sub-blocks of a compute die (R335). -/
inductive Block where
  | glb | cmd | frm | mitt | cuff | brim | gnt | palm | vec | hbx | vis | mem | fab | pwr | sec | ind
  deriving DecidableEq, Repr, Inhabited

/-- The sub-block a page of a die's window holds (R335). -/
def subBlock (page : Nat) : Option Block :=
  match page with
  | 0 => some .mitt | 1 => some .cuff | 2 => some .brim | 3 => some .gnt
  | 4 => some .palm | 5 => some .vec | 6 => some .hbx | 7 => some .vis
  | _ => none

/-- The block an offset lies in, and the die for a die's sub-block (R334, R335). -/
def blockOf (off : Nat) : Option (Block × Fin 4) :=
  if off < 0x100000 then some (.glb, 0)
  else if off < 0x200000 then some (.cmd, 0)
  else if off < 0x300000 then some (.frm, 0)
  else if off < 0x1000000 then none
  else if off < 0x5000000 then
    (subBlock (off % dieStep / 0x100000)).map fun b => (b, Fin.ofNat 4 (off / dieStep - 1))
  else if off < 0x6000000 then some (.mem, 0)
  else if off < 0x7000000 then some (.fab, 0)
  else if off < 0x7800000 then some (.pwr, 0)
  else if off < 0x7C00000 then some (.sec, 0)
  else if off < 0x8000000 then some (.ind, 0)
  else none

/-- The registers of a block. -/
def blockRegs : Block → List RegDef
  | .glb => regsGlb
  | .cmd => regsCmd
  | .frm => regsFrm
  | .mitt => regsMitt
  | .cuff => regsCuff
  | .gnt => regsGnt
  | .palm => regsPalm
  | .vec => regsVec
  | .hbx => regsHbx
  | .vis => regsVis
  | .mem => regsMem
  | .fab => regsFab
  | .pwr => regsPwr
  | .sec => regsSec
  | .ind => regsInd
  | .brim => []

/-- Whether a table row places a register at an offset (given for die 0). -/
def RegDef.has (r : RegDef) (off : Nat) : Bool :=
  decide (r.off ≤ off) && decide ((off - r.off) % r.stride = 0) && decide ((off - r.off) / r.stride < r.count)

/-- The row of the register at a BAR0 offset of the lower half of a page; none where nothing is mapped. -/
def regAt (off : Nat) : Option RegDef :=
  match blockOf off with
  | none => none
  | some (b, d) => (blockRegs b).find? fun r => r.has (if r.perDie then off - d.val * dieStep else off)

/-- The fields of the register at an offset. -/
def fieldsAt (off : Nat) : List FieldDef := match regAt off with
  | some r => r.fields
  | none => []

/-- A field's bits in place. -/
def FieldDef.mask (f : FieldDef) : Nat := (2 ^ (f.hi + 1 - f.lo) - 1) * 2 ^ f.lo
/-- The bits of the fields of an access code. -/
def maskOf (p : Acc → Bool) (fs : List FieldDef) : Nat :=
  fs.foldl (fun m f => if p f.acc then m + f.mask else m) 0
/-- The reset word of a register's fields. -/
def resetOf (fs : List FieldDef) : Nat := fs.foldl (fun m f => m + f.reset * 2 ^ f.lo) 0

/-- The commit group whose registers a block holds (R340). -/
def groupOf : Block → Option Nat
  | .glb => some 0 | .frm => some 1 | .mitt => some 2 | .cuff => some 3 | .gnt => some 4 | .palm => some 5
  | .vec => some 6 | .hbx => some 7 | .vis => some 8 | .mem => some 9 | .fab => some 10
  | .cmd | .brim | .pwr | .sec | .ind => none

end Sys2Proof.Machine
end

