-- ==== Sys2Proof/Machine/Types.lean ====
section
/-! DEFINITION. The data the device's blocks hold: register copies, the error queue, the frame block,
rings and jobs, tiles. One structure per thing the manual names. -/

namespace Sys2Proof.Machine

/-! ## Four of a kind -/

/-- One value for each of four dies, rings or processors. -/
structure Quad (α : Type) where
  q0 : α
  q1 : α
  q2 : α
  q3 : α
  deriving DecidableEq, Repr, Inhabited

def Quad.all {α : Type} (x : α) : Quad α := ⟨x, x, x, x⟩

def Quad.get {α : Type} (q : Quad α) (i : Fin 4) : α :=
  match i with
  | 0 => q.q0
  | 1 => q.q1
  | 2 => q.q2
  | 3 => q.q3

def Quad.set {α : Type} (q : Quad α) (i : Fin 4) (x : α) : Quad α :=
  match i with
  | 0 => { q with q0 := x }
  | 1 => { q with q1 := x }
  | 2 => { q with q2 := x }
  | 3 => { q with q3 := x }

def Quad.map {α β : Type} (f : α → β) (q : Quad α) : Quad β := ⟨f q.q0, f q.q1, f q.q2, f q.q3⟩
def Quad.toList {α : Type} (q : Quad α) : List α := [q.q0, q.q1, q.q2, q.q3]

/-! ## Registers (spec/12) -/

/-- One copy of a register with one parity bit per byte (R339, R350). -/
structure RegCopy where
  val : W32
  par : BitVec 4
  deriving DecidableEq, Repr, Inhabited

/-- A posted commit and the units that have not applied it (R339, R341). -/
structure PendCommit where
  group : Nat
  tag : Byte
  units : List (Die × Nat)
  deriving DecidableEq, Repr, Inhabited

/-- The register file. A copy that is not listed holds its register's reset value. -/
structure RegFile where
  /-- The in-force copy of RW fields and the one copy of every other field. -/
  live : Sparse RegCopy := []
  shadow : Sparse RegCopy := []
  pend : Sparse RegCopy := []
  /-- The sequence number of the event that last changed an SQ field (R346); the key is offset * 32 + bit. -/
  sqSeq : Sparse Byte := []
  /-- The counts snapshotted at the last read of their status register (R347). -/
  snap : Sparse Nat := []
  /-- The SEQ the last read of a status register returned (R347). -/
  readSeq : Sparse (Option Byte) := []
  /-- The _HI word latched by a read of its _LO word (R337); the key is the _LO offset. -/
  hiLatch : Sparse (Option W32) := []
  commits : List PendCommit := []
  /-- The data of the last read completion sent to the host or to the I3C controller. -/
  readData : W64 := 0
  deriving DecidableEq, Repr, Inhabited

/-! ## Errors (spec/13) -/

inductive EntryState where
  | waiting | active | handled
  deriving DecidableEq, Repr, Inhabited

/-- An entry of the error queue (R370). -/
structure ErrEntry where
  seq : W32
  code : W16
  sev : Nat
  state : EntryState
  occ : Nat
  unit : W16
  step : W32
  frm : W64
  detail : W64
  deriving DecidableEq, Repr, Inhabited

/-- The 64-slot error queue (R370); an unlisted slot is FREE. -/
structure ErrQueue where
  slots : Sparse (Option ErrEntry) := []
  nextSeq : W32 := 1
  /-- Code of the entry that set GLB_ERR_STAT.LATCHED (R371). -/
  latchCode : W16 := 0
  deriving DecidableEq, Repr, Inhabited

/-! ## Frame (spec/01) -/

structure Frame where
  count : W64 := 0
  /-- Microseconds since the last tick (FRM_SINCE_TICK). -/
  since : Nat := 0
  onTimer : Bool := false
  /-- R23: an edge fell outside the window; on the timer until a commit names the source again. -/
  stay : Bool := false
  /-- A commit has named the source again, and no tick of it has been taken since (R23). -/
  afresh : Bool := false
  /-- The last tick came from the timer in place of an external one, which may still replace it (R23). -/
  replaceable : Bool := false
  /-- The frame timer runs (from READY on, R364). -/
  started : Bool := false
  stepRun : Bool := false
  step : W32 := 0
  overran : Bool := false
  tickOut : Bool := false
  /-- The hosted stage whose work was placed last (R32; before any, stage 7, so that stage 0 is first). -/
  served : Fin 8 := 7
  /-- Histogram records of HIST_MODE 0 to clear at step start (R67). -/
  histClears : List Nat := []
  deriving DecidableEq, Repr, Inhabited

/-! ## Rings and jobs (spec/11) -/

/-- What a reply returns of its packet (R308). -/
structure PktRef where
  ring : Fin 4 := 0
  seq : W32 := 0
  op : W16 := 0
  job : W64 := 0
  cookie : W64 := 0
  noreply : Bool := false
  intr : Bool := false
  deriving DecidableEq, Repr, Inhabited

/-- A reply (R308) that has not been written to its status ring. -/
structure Reply where
  ref : PktRef := {}
  status : Nat := 0
  result : Nat := 0
  interim : Bool := false
  deriving DecidableEq, Repr, Inhabited

/-- A ring pair (R302 to R309). `outstanding` holds the accepted commands with no final reply, `early` the sequence
numbers of those whose first reply completes them for a FENCE (R309), `replies` the replies not yet written; `fenced` says that Peak has
found the next packet to be a FENCE that must wait, so that the ring's turn passes (R306, R309). -/
structure Ring where
  head : Nat := 0
  tail : Nat := 0
  widx : Nat := 0
  phase : Bool := true
  expect : W32 := 0
  /-- Packets are still fetched up to the tail (R303, R305). -/
  fetching : Bool := false
  outstanding : List PktRef := []
  early : List W32 := []
  replies : List Reply := []
  fenced : Bool := false
  deriving DecidableEq, Repr, Inhabited

/-- The device states of R318. -/
inductive DState where
  | notReady | ready | starting | running | ending | hold
  deriving DecidableEq, Repr, Inhabited

/-- A job-image segment (R320). -/
structure Segment where
  host : W64 := 0
  target : W64 := 0
  len : W32 := 0
  kind : Byte := 0
  deriving DecidableEq, Repr, Inhabited

/-- A job as submitted (R320). -/
structure JobDesc where
  id : W64 := 0
  seed : W64 := 0
  first : W32 := 0
  limit : W32 := 0
  account : Nat := 0
  share : Nat := 1
  rsid : W16 := 0
  stages : Nat := 1
  keep : Bool := false
  entries : List W64 := []
  recordAddr : W64 := 0
  self : W16 := 0xFFFF
  segs : List Segment := []
  ref : PktRef := {}
  deriving DecidableEq, Repr, Inhabited

inductive JendCode where
  | done | release
  deriving DecidableEq, Repr, Inhabited

/-- Where a chosen job stands in R322 and R324. -/
inductive JobPhase where
  | starting | running | ending (wiping : Bool)
  deriving DecidableEq, Repr, Inhabited

/-- The running job: its descriptor and the figures of its end record (R324). -/
structure Job where
  desc : JobDesc := {}
  phase : JobPhase := .starting
  startFrm : W64 := 0
  endFrm : W64 := 0
  startUs : Nat := 0
  lastStarted : Option W32 := none
  lastEnded : Option W32 := none
  steps : Nat := 0
  endStatus : W16 := 0
  errCode : W16 := 0
  joinsReturned : Nat := 0
  errPosted : Nat := 0
  yieldSeen : Bool := false
  jend : Option JendCode := none
  /-- The step has no tick yet: the next order 7 starts the first step (R322 step 7). -/
  fresh : Bool := true
  replied : Bool := false
  /-- The wipes that step 2 of R322 still waits for: 1, the set-change wipe runs; 2, it waits for the wipe in progress. -/
  wipes : Nat := 0
  deriving DecidableEq, Repr, Inhabited

/-- A pending join (R327) with the times it was deferred. -/
structure Join where
  sid : W64 := 0
  costs : List (Die × Fin 8 × Nat) := []
  ref : PktRef := {}
  /-- A leave arrived for it (R328). -/
  withdrawn : Bool := false
  deriving DecidableEq, Repr, Inhabited

/-- A pending leave (R328). -/
structure Leave where
  sid : W64 := 0
  ref : PktRef := {}
  deriving DecidableEq, Repr, Inhabited

/-- An admitted sequence and what it costs (R131, R132). -/
structure Admitted where
  sid : W64 := 0
  costs : List (Die × Fin 8 × Nat) := []
  deriving DecidableEq, Repr, Inhabited

/-- A waiting MEM_WRITE or MEM_READ (R330); `outcome` is what the check code of a read finds behind its first `good`
bytes (R234). -/
structure Transfer where
  write : Bool := false
  outcome : ReadOutcome := .good
  good : Nat := 0
  far : Bool := false
  dev : Nat := 0
  host : Nat := 0
  len : Nat := 0
  data : List Byte := []
  ref : PktRef := {}
  deriving DecidableEq, Repr, Inhabited

/-! ## Mitts (spec/03) -/

/-- The accumulator formats of R78. -/
inductive SlotKind where
  | f32 | w48 | i32 | i64
  deriving DecidableEq, Repr, Inhabited

/-- One accumulator: the float's code or the integer, with the side storage of profile N: the sticky bits and the draw register,
which holds the last draw of a stochastic slot add (R69, R101). -/
structure Slot where
  v : Int := 0
  ovf : Bool := false
  inv : Bool := false
  draw : W16 := 0
  deriving DecidableEq, Repr, Inhabited

/-- A tap descriptor: one side of one layer, as read at a step start (R161). -/
structure TapDesc where
  layer : Nat := 0
  side : Bool := false
  i16 : Bool := false
  route : Bool := false
  k : Nat := 1
  fbLog : Nat := 7
  decay : Nat := 0
  e : Int := 0
  rseq : Byte := 0
  dim : Nat := 128
  peer : Nat := 0
  base : Nat := 0
  deriving DecidableEq, Repr, Inhabited

/-- A tap tile (R147): features `fa` and `fc` on of the batch in a row store half, added into the tile at
byte `off` of a live buffer. -/
structure TapTile where
  desc : TapDesc := {}
  half : Bool := false
  rows : Nat := 0
  step : W32 := 0
  fa : Nat := 0
  fc : Nat := 0
  off : Nat := 0
  deriving DecidableEq, Repr, Inhabited

/-- What a tile is for: the job's program, the Gauntlet's pass combiner, the Cuff. -/
inductive TileUse where
  | job
  | fx (pass : MmaFx)
  | tap (t : TapTile)
  deriving DecidableEq, Repr, Inhabited

/-- What the Visor keeps of one element of a patch (R221): the binary64 sums z and S, or the exact integer
sum, over the operands so far. -/
structure Watch where
  z : Nat := 0
  sum : Nat := 0
  /-- Exact, so that a source that is no integer keeps its fraction (R222). -/
  zi : Val := .zero
  deriving DecidableEq, Repr, Inhabited

/-- What the Visor captures of a selected tile (R219 to R222): the patch, the mode at the capture, the inner
elements seen, and one `Watch` for each element of the patch. -/
structure Capture where
  r0 : Nat := 0
  c0 : Nat := 0
  /-- The mode of the tile's DKIND is WIDE, and an operand so far had a source (R222). -/
  wideMode : Bool := false
  wide : Bool := false
  k : Nat := 0
  /-- The bits of an operand row of each side, K elements long, of whichever formats its instructions have (R84, R220). -/
  aBits : Nat := 0
  bBits : Nat := 0
  /-- Roundings on an element's path so far (R223). -/
  rounds : Nat := 0
  els : List Watch := []
  deriving DecidableEq, Repr, Inhabited

/-- A patch waiting for its check: the capture with what the tile's drain adds (R221, R223). -/
structure Check where
  cap : Capture := {}
  layer : BitVec 14 := 0
  dkind : BitVec 3 := 0
  lm : Nat := 0
  row0 : W32 := 0
  col0 : W32 := 0
  kind : SlotKind := .f32
  sr : Bool := false
  step : W32 := 0
  /-- The slot values of the patch, row by row. -/
  y : List Slot := []
  deriving DecidableEq, Repr, Inhabited

/-- A tile in progress on a logical mitt (R81 to R84). -/
structure Tile where
  id : Nat := 0
  kind : SlotKind := .f32
  shape : BitVec 2 := 0
  /-- Rows and columns that exist of the tile: those of its output descriptor. -/
  rows : Nat := 0
  cols : Nat := 0
  af : Fmt := .fp32
  bf : Fmt := .fp32
  /-- Inner-dimension elements consumed (R84); for a part of a long split, its first element is `base`. -/
  consumed : Nat := 0
  base : Nat := 0
  srEn : Bool := false
  /-- An instruction of the tile had SR = 1; the last one had it. -/
  srUsed : Bool := false
  srLast : Bool := false
  o : TDesc := {}
  slots : List Slot := []
  /-- Exact sums of the k-group begun and not complete, one for each slot (R71, R73). -/
  open_ : List Val := []
  closed : Bool := false
  part : Nat := 0
  parts : Nat := 1
  /-- Levels of the combine tree done (R95). -/
  level : Nat := 0
  purpose : TileUse := .job
  /-- The engines whose instructions it is made of (R199). -/
  engines : List Engine := []
  capture : Option Capture := none
  /-- The micro-batch of the instruction that opened it. -/
  mb : Option W32 := none
  deriving DecidableEq, Repr, Inhabited

/-- Job work that waits for a mitt (R84, R90). -/
inductive MittJob where
  | mma (x : Mma)
  | mdrain (iaddr : W64) (tile : Nat)
  deriving DecidableEq, Repr, Inhabited

/-- A logical mitt (R68 to R84): the settings in force, the tiles in progress, the drain queue in
request order, and the work that waits for it. -/
structure Mitt where
  profN : Bool := false
  srEn : Bool := false
  switching : Bool := false
  tiles : List Tile := []
  drains : List Nat := []
  jobs : List MittJob := []
  /-- The parts of Gauntlet passes that wait for it, each with its part number (R94, R103, R105). -/
  fx : List (MmaFx × Nat) := []
  /-- The pass of the product in progress that the Gauntlet issues next (R103). -/
  nextPass : Nat := 0
  taps : List TapTile := []
  /-- The 128 x 128 blocks of transposed operands that the mitt holds, oldest first, each with the bits of its elements and its codes: in
  profile T the lanes of the cells' staging words, in profile N the places of the two transposer buffers (R69, R87, R88; log entry
  12). -/
  blocks : List (Nat × List Nat) := []
  /-- The staging bytes of profile T: the block scales of the block-scaled operand taken last, row by row of A or column by column of B
  (R69; log entry 12). -/
  scales : List Nat := []
  deriving DecidableEq, Repr, Inhabited

/-! ## Cuff (spec/05) -/

inductive HalfState where
  | free | filling | issuing
  deriving DecidableEq, Repr, Inhabited

/-- A half of a die's row store (R145, R146): where it lies in tile memory and how many bytes it has, as they were when its batch
opened (R162), the batch, the mitts that captured rows of it, and the tap tiles that have not drained. The rows lie in tile
memory. -/
structure Half where
  state : HalfState := .free
  base : Nat := 0
  bytes : Nat := 0
  desc : TapDesc := {}
  cap : Nat := 0
  rows : Nat := 0
  mitts : List Nat := []
  left : Nat := 0
  step : W32 := 0
  deriving DecidableEq, Repr, Inhabited

/-- A quantised row on its way into a half, where it may have to wait for one; `last` closes the batch behind it (R146). -/
structure HeldRow where
  desc : TapDesc := {}
  lm : Nat := 0
  codes : List Nat := []
  last : Bool := false
  deriving DecidableEq, Repr, Inhabited

/-- A fold that is due, or the clearing of a side's live buffers that has to wait for a fold in front of it (R155). -/
structure FoldJob where
  desc : TapDesc := {}
  step : W32 := 0
  running : Bool := false
  clear : Bool := false
  deriving DecidableEq, Repr, Inhabited

/-- The Cuffs of a die. `sides` holds the enabled sides of the step, by layer * 2 + side; `rowsIn` the rows
added to each live buffer since it was cleared, by (layer * 2 + side) * 2 + buffer (R155); `sentNan` and `sentSat` the rows dropped for
NaN and the elements saturated of a side whose factor a peer owns, not yet sent with its tap rows (R144, R151). -/
structure Cuff where
  h0 : Half := {}
  h1 : Half := {}
  sides : List TapDesc := []
  rowsIn : Sparse Nat := []
  held : List HeldRow := []
  /-- Sides whose taps are disabled for the step (R145), by layer * 2 + side; an absent row store is reported (R162). -/
  tapsOff : List Nat := []
  sizeTold : Bool := false
  folds : List FoldJob := []
  sentNan : Sparse Nat := []
  sentSat : Sparse Nat := []
  deriving DecidableEq, Repr, Inhabited

/-! ## Hatbox (spec/04) -/

/-- Where a Hatbox record lies: in its region, in the region's tie park, or in the die's spill area. -/
inductive HbxPlace where
  | region | park | spill
  deriving DecidableEq, Repr, Inhabited

/-- A Hatbox record (R128): what names it, and where its header lies (a byte offset from the base of its
region or of the spill area). `len` is the data's length. -/
structure HbxRec where
  layer : BitVec 14 := 0
  kind : Byte := 0
  mb : W32 := 0
  place : HbxPlace := .region
  off : Nat := 0
  len : Nat := 0
  deriving DecidableEq, Repr, Inhabited

/-- A segment of a region (R127): the bytes [lo, ext) of the region, the place of the next push, and its
records, newest first. A closed segment has none. -/
structure HbxSeg where
  mb : W32 := 0
  lo : Nat := 0
  top : Nat := 0
  ext : Nat := 0
  recs : List HbxRec := []
  deriving DecidableEq, Repr, Inhabited

/-- A Hatbox region (R126, R127): its segments, oldest first, what its tie park holds (R124), and the micro-batches that have had a
segment in this step, oldest first. -/
structure HbxRegion where
  segs : List HbxSeg := []
  park : List HbxRec := []
  opened : List W32 := []
  deriving DecidableEq, Repr, Inhabited

/-! ## Brim and Gauntlet (spec/06) -/

/-- A solve descriptor (R163). -/
structure SDesc where
  op : Nat := 0
  resume : Bool := false
  xpass : Nat := 0
  logp : Nat := 0
  src : Nat := 0
  pre : Nat := 0
  warm : Bool := false
  xb : Bool := false
  iterCap : Nat := 0
  tol : Nat := 0
  tolF : Nat := 0
  period : Nat := 0
  phase : Nat := 0
  ex : Int := 0
  damp : Nat := 0
  floorRatio : Nat := 0
  floorCap : Nat := 0
  layer : Nat := 0
  n : Nat := 0
  npos : Nat := 0
  ref : Nat := 0
  side : Nat := 0
  blk : Nat := 0
  srcAddr : Nat := 0
  aux : Nat := 0
  result : Nat := 0
  /-- The fields the layout gives as zero are zero. -/
  zeros : Bool := true
  deriving DecidableEq, Repr, Inhabited

/-- A Jacobian's quantised rows (column, value) and weights, the exponent of its gain matrix, and its
residuals (R170). -/
structure Jac where
  rows : List (List (Nat × Int)) := []
  w : List Int := []
  lsb : Int := 0
  res : List Int := []
  resLsb : Int := 0
  deriving DecidableEq, Repr, Inhabited

/-- An assembled problem (R169 to R173): words of the scaled matrix with the damping on its diagonal, the
scaled right-hand side in Q2.61, and the figures of the analysis. -/
structure Asm where
  n : Nat := 0
  q8 : Bool := false
  a : List (List Int) := []
  jac : Option Jac := none
  /-- Blocks of PRE = 2: first state and width. -/
  blocks : List (Nat × Nat) := []
  b : List Int := []
  s : Int := 0
  sb : Int := 0
  /-- Damping and floor as words of the matrix; `lam` is a Q2.61 word. -/
  delta : Int := 0
  phi : Int := 0
  lam : Int := 0
  ovf : Bool := false
  inv : Bool := false
  refused : Bool := false
  descErr : Bool := false
  inputStep : Nat := 0
  rows : Nat := 0
  /-- TRS: the factor of REF and, for an LDL, its D. -/
  l : List (List Int) := []
  d : List Int := []
  deriving DecidableEq, Repr, Inhabited

/-- A factorisation in progress (R177): the matrix as the trailing updates left it, the columns done of L
and W (every row holds `col` entries), the pivots and their reciprocals, and the floor additions. -/
structure Fac where
  off : Nat := 0
  n : Nat := 0
  a : List (List Int) := []
  l : List (List Int) := []
  w : List (List Int) := []
  d : List Int := []
  rin : List Int := []
  f : List (Nat × Int) := []
  col : Nat := 0
  /-- First column whose terms are not yet in `a`. -/
  base : Nat := 0
  deriving DecidableEq, Repr, Inhabited

inductive SolvePhase where
  | assemble | assembled | factor | iterate | test
  deriving DecidableEq, Repr, Inhabited

/-- One solve (R163 to R190). -/
structure Solve where
  index : Nat := 0
  step : W32 := 0
  desc : SDesc := {}
  asm : Asm := {}
  phase : SolvePhase := .assemble
  resumes : Nat := 0
  prog : Nat := 0
  floored : Nat := 0
  /-- Column, flags, original pivot. -/
  pivots : List (Nat × Nat × Int) := []
  ovf : Bool := false
  inv : Bool := false
  notDef : Bool := false
  fac : Fac := {}
  done : List Fac := []
  /-- ROOT: X and M. -/
  x : List (List Int) := []
  m : List (List Int) := []
  /-- PCG: solution, residual, direction, and rz with its exponent. -/
  xs : List Int := []
  r : List Int := []
  dd : List Int := []
  rz : Int × Int := (0, 0)
  /-- The words of the result in storage order, whether they are Q8.55, and e_r. -/
  data : List Int := []
  dataQ8 : Bool := false
  er : Int := 0
  /-- The recorded outcome and progress under REPLAY (R189). -/
  replay : Option (Nat × Nat) := none
  deriving DecidableEq, Repr, Inhabited

/-- A place in the Gauntlet's queue (R164, R187). -/
inductive QItem where
  | fresh (index : Nat) (step : W32)
  | held (s : Solve)
  deriving DecidableEq, Repr, Inhabited

/-- A PASSED solve that waits for its commit (R185). -/
structure Passed where
  index : Nat := 0
  result : Nat := 0
  copy : Nat := 0
  size : Nat := 0
  deriving DecidableEq, Repr, Inhabited

/-- The solver complex of a die: its queue, what the Brim assembles or holds, what the Gauntlet runs, the
suspended solves, and the PASSED ones. -/
structure Gnt where
  queue : List QItem := []
  brim : Option Solve := none
  run : Option Solve := none
  susp : List Solve := []
  passed : List Passed := []
  deriving DecidableEq, Repr, Inhabited

/-! ## Palm (spec/07) -/

/-- A stream slot of an update descriptor (R198). -/
structure PStream where
  addr : Nat := 0
  fmt : Nat := 0
  valid : Bool := false
  tile : Bool := false
  rnd : Nat := 0
  inf : Bool := false
  pitch : Nat := 0
  deriving DecidableEq, Repr, Inhabited

/-- An update descriptor (R198). -/
structure UDesc where
  layer : Nat := 0
  fp16 : Bool := false
  wcp : Bool := false
  keep : Bool := false
  hist : Bool := false
  blkLog : Nat := 7
  body : Nat := 1
  pro : Nat := 0
  epi : Nat := 0
  ncols : Nat := 0
  row0 : Nat := 0
  col0 : Nat := 0
  rows : Nat := 0
  cols : Nat := 0
  prog : Nat := 0
  par : Nat := 0
  bank : Nat := 0
  bankSize : Nat := 0
  rem : Nat := 0
  histAddr : Nat := 0
  histBase : Nat := 0
  histMode : Nat := 0
  wcFmt : Nat := 0
  wcLog : Nat := 4
  wcElem : Nat := 0
  wcScale : Nat := 0
  status : Nat := 0
  streams : List PStream := []
  /-- The fields the layout gives as zero are zero. -/
  zeros : Bool := true
  deriving DecidableEq, Repr, Inhabited

/-- One of a Palm's 16 sets of V and P registers (R202), with the chunk it works on. An unlisted V register
holds 512 zeros, an unlisted P register 512 clear bits (log entry 16). -/
structure PalmSet where
  chunk : Option Nat := none
  pc : Nat := 0
  v : Sparse (List W32) := []
  p : Sparse (List Bool) := []
  deriving DecidableEq, Repr, Inhabited

/-- A Palm in a run (R201, R202): the place in its prologue or epilogue, its S registers and accumulators,
and how many of its chunks have begun and ended. -/
structure PalmUnit where
  pc : Nat := 0
  s : Sparse W32 := []
  acc : Sparse W32 := []
  begun : Nat := 0
  ended : Nat := 0
  epc : Nat := 0
  sets : Sparse PalmSet := []
  deriving DecidableEq, Repr, Inhabited

/-- The run in progress on a die's four Palms. -/
structure PalmRun where
  layer : Nat := 0
  step : W32 := 0
  desc : UDesc := {}
  /-- The program: prologue, body, epilogue (R198). -/
  words : List Nat := []
  units : Quad PalmUnit := Quad.all {}
  /-- The accumulators have been combined for the epilogue (R208). -/
  combined : Bool := false
  /-- The run stops at the chunk boundaries (R212). -/
  stopping : Bool := false
  elements : Nat := 0
  kept : Nat := 0
  clamps : Nat := 0
  ovfs : Nat := 0
  /-- Status record words by number (R204 STS). -/
  sts : Sparse W32 := []
  deriving DecidableEq, Repr, Inhabited

/-- An instruction of a vector engine (R1, R83, R199): what it is, apart from who issues it. -/
inductive EngineOp where
  | mma (x : Mma)
  | mmaFx (x : MmaFx)
  | mdrain (lm : Lm) (tile : BitVec 2)
  | vcvt (x : Vec)
  | vcvtB (x : Vec)
  | vcvtU (x : Vec)
  | vsplitF (x : Vec) (p1 p2 : TDesc)
  | vsplitI (x : Vec) (p1 p2 : TDesc)
  | vnarrowQ (x : Vec)
  | vmax (x : Vec) (src2 : TDesc)
  | vmin (x : Vec) (src2 : TDesc)
  | streamAdd (out stream : TDesc)
  | hpush (x : HPush)
  | hpop (x : HPop)
  | applyF (fder : BitVec 4) (fparam : W16) (src dst side : TDesc)
  | gsolve (index : W16)
  | prun (layer : Nat)
  | runpack (index : W16) (dst : TDesc) (form : BitVec 2)
  | jend (c : JendCode)
  | jstat
  | mgopen (gid : BitVec 12)
  | madd (target : MaddTarget) (key : W16) (epoch : Byte) (src : TDesc) (line0 : Nat) (endMark : Bool)
  | mskip (gid : BitVec 12) (key : W16) (epoch : Byte)
  deriving DecidableEq, Repr

/-- What an engine issues behind a PRUN that waits, and that PRUN itself (R199). -/
structure HeldIssue where
  by_ : Issuer
  op : EngineOp
  deriving DecidableEq, Repr

/-- The engine of an instruction that waits. -/
def HeldIssue.engine (h : HeldIssue) : Engine := h.by_.engine

/-- The Palms of a die: the Palm queue, the PRUNs that wait for their fence or for an entry, the layers named
by a PRUN in this step (R199), and the run in progress. -/
structure Palms where
  queue : List Nat := []
  held : List HeldIssue := []
  seen : List Nat := []
  run : Option PalmRun := none
  cur : Nat := 0
  regs : Quad (Sparse PalmSet) := Quad.all []
  deriving DecidableEq, Repr, Inhabited

/-! ## Reduction groups (spec/09) -/

inductive KeyState where
  | unresolved | ended | applied | skipped | refused
  deriving DecidableEq, Repr, Inhabited

/-- A key of a group: its staged lines, each with its place in the die's staging area in units of 256 bytes, the lines that have
arrived, its staged tap rows (R247, R248, R289). -/
structure GKey where
  state : KeyState := .unresolved
  staged : List (Nat × Nat) := []
  seen : List Nat := []
  taps : List Item := []
  deriving DecidableEq, Repr, Inhabited

/-- An open reduction group (R246): `ordered` is the mode it runs in, `demoted` an unordered one that runs as
ordered (R230); `shard` names the directory entry of a group that Band opened, with its step (R286). -/
structure Group where
  gid : Nat := 0
  lines : Nat := 1
  n : Nat := 1
  ordered : Bool := true
  demoted : Bool := false
  epoch : Byte := 0
  dest : Nat := 0
  /-- Where the completion record goes (R249). -/
  rec_ : Nat := 0
  keys : Sparse GKey := []
  inf : Bool := false
  nan : Bool := false
  applying : Option Nat := none
  shard : Option Nat := none
  step : W32 := 0
  deriving DecidableEq, Repr, Inhabited

/-- A line or an END that flow control holds at its source (R248); `item` is none for an END. -/
structure HeldLine where
  gid : Nat := 0
  key : Nat := 0
  epoch : Byte := 0
  item : Option Item := none
  deriving DecidableEq, Repr, Inhabited

/-- The outcome a SKIP returns to its skipper (R250). -/
inductive SkipOutcome where
  | skipped | skipLate | skipClosed | keyError
  deriving DecidableEq, Repr, Inhabited

/-- The memory-side adders of a die; `told` holds the completed groups of which the opener has been notified, oldest first (R249). -/
structure Adders where
  groups : List Group := []
  held : List HeldLine := []
  lastSkip : Option SkipOutcome := none
  told : List Nat := []
  deriving DecidableEq, Repr, Inhabited

/-! ## Fabric (spec/10) -/

/-- What the device hands to its ports, in its own words: the manual gives payloads no layout (log entry 31). -/
inductive Msg where
  /-- A drained tap row for a factor another device owns (R151): its place in the owner's live buffer, and what the batch behind
  it brings: sampled rows, rows dropped for NaN, elements saturated (on the batch's last row, else 0). -/
  | tapRow (peer : Nat) (layer : Nat) (side : Bool) (step : W32) (epoch : Byte) (off : Nat) (words : List W64)
      (rows nanRows saturated : Nat)
  /-- The owner of a factor has added the tap rows that came with a contributor's key (R151). -/
  | tapAck (peer : Nat) (entry : Nat) (key : Nat) (step : W32)
  | publish (entry : Nat) (version : W32) (digest : W64)
  | fetch (peer : Nat) (entry : Nat) (version : W32) (epoch : Byte) (pin : Bool)
  | pinRelease (peer : Nat) (entry : Nat) (version : W32)
  /-- An activation or an input gradient for a peer, with the micro-batch it is of, as the codes of its elements (R19, R269). -/
  | tensor (x : Outgoing) (codes : List Nat)
  | fetchData (peer : Nat) (entry : Nat) (version : W32) (data : List Byte) (digest : W64)
  | versionGone (peer : Nat) (entry : Nat) (version : W32)
  | wrongEpoch (peer : Nat) (entry : Nat)
  | abandon (peer : Nat) (mb : W32)
  | skip (peer : Nat) (entry : Nat) (key : Nat) (step : W32)
  /-- Lines of a contribution, with its END (R247). -/
  | contribution (peer : Nat) (entry : Nat) (key : Nat) (epoch : Byte) (lines : List (Nat × List W32)) (endMark : Bool)
  | record (sink : Nat) (entry : Nat) (version : W32) (bytes : List Byte)
  | linkDown (x : LinkEnds)
  | linkUp (x : LinkEnds)
  | departure
  | tick (frm : W64)
  | lost (peer : Nat)
  | takeover (lost spare : Nat)
  /-- A spare cannot restore: the tick master reports it (R296). -/
  | restoreFailed (peer : Nat) (code : W16)
  | reshardAck (peer : Nat) (epoch : Byte)
  | migratePull (peer : Nat) (entry : Nat)
  /-- A shard's state and factor blocks for its new owner (R291). -/
  | migration (peer : Nat) (entry : Nat) (version : W32) (part : Moved)
  /-- A heartbeat (R272): the times are those of sending it, and of sending and receiving the last one received on the port. -/
  | heartbeat (port : Nat) (devId : W64) (self : Nat) (state : Byte) (frm : W64) (step : W32) (epoch : Byte) (links : W16)
      (t1 lastTx lastRx : Nat)
  deriving DecidableEq, Repr, Inhabited

/-- What a flit carries: that of a peer, forwarded, or a message of this device's own. -/
inductive Load where
  | fwd (x : Flit)
  | own (m : Msg)
  deriving DecidableEq, Repr, Inhabited

/-- A flit sent on a port and not acknowledged (R267), with the credit return it carries (R266). -/
structure TxFlit where
  seq : W16 := 0
  ack : W16 := 0
  vc : Fin 8 := 0
  creditVc : Fin 8 := 0
  credits : Nat := 0
  load : Load := .fwd {}
  deriving DecidableEq, Repr, Inhabited

/-- A Washa port (R265 to R269): its training and its partner's end of the link, the flits sent and not acknowledged, the credits
it holds and owes for each virtual channel, the flits received that could not yet go on, its own messages that wait, the place of its
weighted round-robin (channel served, flits left), how often it has replayed in a row, and when the last heartbeat received was sent
and received. -/
structure PortSt where
  up : Bool := false
  width : Nat := 0
  partner : Nat := 0
  partnerPort : Nat := 0
  txSeq : W16 := 0
  rxSeq : W16 := 0
  buf : List TxFlit := []
  credits : List Nat := List.replicate 8 64
  owed : List Nat := List.replicate 8 0
  inbuf : List Flit := []
  out : List Msg := []
  turn : Nat := 1
  left : Nat := 0
  replayRun : Nat := 0
  /-- The delay of the link as last measured, in ns (R272). -/
  delay : Nat := 0
  lastTx : Nat := 0
  lastRx : Nat := 0
  deriving DecidableEq, Repr, Inhabited

/-- A fetch that waits for its version (R282). -/
structure Fetch where
  peer : Nat := 0
  entry : Nat := 0
  version : W32 := 0
  pin : Bool := false
  deriving DecidableEq, Repr, Inhabited

/-- A replica a reader holds, its digest checked (R284), and whether its version is pinned at the owner (R282). -/
structure Replica where
  entry : Nat := 0
  version : W32 := 0
  addr : Nat := 0
  pinned : Bool := false
  deriving DecidableEq, Repr, Inhabited

/-- A shard whose run or copy run of this step has ended (R279). -/
structure ShardRun where
  entry : Nat := 0
  step : W32 := 0
  digest : W64 := 0
  deriving DecidableEq, Repr, Inhabited

/-- A message that waits in hardware for Band, which restarts (R380, R384). -/
inductive BandWork where
  | notice (entry : Nat) (version : W32) (digest : W64)
  | directory (epoch : Byte)
  | takeover (lost spare : Nat)
  | restore (x : RestoreOutcome)
  deriving DecidableEq, Repr, Inhabited

/-- A far port that was down at a wipe, which is wiped once it has retrained (R262): whole, or the areas of far addresses that the wipe
covers, by the map in force at it. -/
structure Unwiped where
  port : Nat := 0
  areas : Option (List (Nat × Nat)) := none
  ilv : Bool := false
  deriving DecidableEq, Repr, Inhabited

/-- A pending re-shard (R290). -/
structure Reshard where
  image : List Byte := []
  epoch : Byte := 0
  effStep : W32 := 0
  ref : PktRef := {}
  deriving DecidableEq, Repr, Inhabited

/-- A difference record sent and not yet acknowledged by every sink it went to (R292, R294). -/
structure RecordOut where
  entry : Nat := 0
  version : W32 := 0
  sinks : List Nat := []
  acks : List Nat := []
  deriving DecidableEq, Repr, Inhabited

/-- A contribution of this device to a shard that a peer owns, as far as the program has made it (R286, R288): its key, step and epoch,
its lines, whether its END has gone out, and whether the owner has skipped it, so that it goes out again as a late key. -/
structure Sum where
  entry : Nat := 0
  key : Nat := 0
  step : W32 := 0
  epoch : Byte := 0
  lines : List (Nat × List W32) := []
  ended : Bool := false
  skipped : Bool := false
  /-- The program has made its END, which waits for the tap rows of the step (R289). -/
  endDue : Bool := false
  deriving DecidableEq, Repr, Inhabited

/-- A shard that leaves its place at a change of the layout epoch, for a peer or for another die or extent of this device, and what of it
does not wait for a fold (R291). -/
structure Leaving where
  peer : Nat := 0
  entry : Nat := 0
  layer : Nat := 0
  version : W32 := 0
  part : Moved := {}
  /-- The factor sides that go with it: the die they are folded on, and where they lie. -/
  sides : List (Die × TapDesc) := []
  /-- It stays on this device: its factor blocks are in `part` as they stood after their fold, once they have (R158, R291). -/
  folded : Bool := false
  deriving DecidableEq, Repr, Inhabited

/-- The ring of the host sink (R329): its address and size, where the next record goes, and the records not yet
acknowledged, oldest first, with their offsets and lengths. -/
structure HostRing where
  base : Nat := 0
  size : Nat := 0
  next : Nat := 0
  recs : List (Nat × Nat × RecordOut) := []
  /-- Records that wait for room. -/
  waiting : List (RecordOut × List Byte) := []
  deriving DecidableEq, Repr, Inhabited

/-! ## The PCIe configuration space (R299, R359) -/

/-- The device power states the function supports. -/
inductive PciePower where
  | d0 | d3hot
  deriving DecidableEq, Repr, Inhabited

/-- What the host's configuration requests and its writes of the MSI-X table set, which only a power-on reset and RESET_N reset: no row of
the command table is such a request (log entry 179). -/
structure Pcie where
  /-- BAR0's assigned base. -/
  bar0 : W64 := 0
  /-- The MSI-X table: the address, data and mask bit of each of eight vectors. -/
  msixTable : Sparse (W64 × W32 × Bool) := []
  power : PciePower := .d0
  /-- The uncorrectable and correctable error status of Advanced Error Reporting. -/
  aer : W32 × W32 := (0, 0)
  deriving DecidableEq, Repr, Inhabited

/-! ## Firmware, power and board management (spec/13, spec/14) -/

/-- A firmware processor (R378 to R381): running, being restarted, how often it has failed in a row, and whether
its image is one an activation started (R400). -/
structure ProcState where
  up : Bool := false
  restarting : Bool := false
  fails : Nat := 0
  activating : Bool := false
  /-- The instruction memory: the image it was loaded with (R379, R383). -/
  code : List Byte := []
  /-- The data memory, 256 KiB (R383). -/
  data : Memory := []
  /-- The microsecond at which it last reported ready (R379, R400). -/
  readyUs : Nat := 0
  deriving DecidableEq, Repr, Inhabited

/-- A firmware activation (R400): waiting at step 1, or loading and starting the images of its slot. -/
structure Activation where
  slot : Nat := 0
  /-- Step 1 is over. -/
  passed : Bool := false
  loading : Bool := false
  ref : PktRef := {}
  deriving DecidableEq, Repr, Inhabited

/-- The figures of the calibration set in use, taken at the last reset (R395, PWR_CAL_STAT). -/
structure CalUse where
  factory : Bool := false
  recal : Bool := false
  user : Bool := false
  invalid : Bool := false
  /-- The sensor offsets in use: 80 diodes, four VIN senses, four current senses; the built-in defaults are none (R385, R395). -/
  offsets : List Int := []
  deriving DecidableEq, Repr, Inhabited

/-- Power and throttling (R385 to R394). Duties are in 256ths; the bucket is in units of 1e-10 J; `lowUs` counts the
microseconds a die has been inside the safe limits, `calmUs` those without a clamp cause. -/
structure Power where
  th : Quad Nat := Quad.all 256
  pw : Nat := 256
  clampDuty : Quad Nat := Quad.all 256
  clamp : Bool := true
  bucket : Nat := 0
  /-- Input power in 0.1 mW and the lowest VIN in 10 mV of the last microsecond (PWR_IN), and the power of each of the last 100
  microseconds, newest first (R389). -/
  power : Nat := 0
  vinLow : Nat := 0
  recent : List Nat := []
  diodes : List Int := []
  vinBad : List Nat := [0, 0, 0, 0]
  causes : List Bool := [true, false, false, false, false, false, false]
  lowUs : Quad Nat := Quad.all 0
  calmUs : Nat := 0
  emergency : Bool := false
  emergUs : Nat := 0
  quietUs : Nat := 0
  thermN : Bool := false
  deriving DecidableEq, Repr, Inhabited

/-- The I3C target (R401, R402). -/
structure I3c where
  dyn : Option (BitVec 7) := none
  addr : W32 := 0
  err : Bool := false
  index : Byte := 0
  mwl : W16 := 5
  mrl : W16 := 4
  ibiOn : Bool := false
  /-- In-band interrupts sent, by their mandatory byte. -/
  ibis : List Byte := []
  /-- The last common command code was answered with NACK. -/
  nack : Bool := false
  deriving DecidableEq, Repr, Inhabited

/-! ## What resets never clear (spec/15, spec/16) -/

/-- The lifecycle states (R415). -/
inductive Lifecycle where
  | test | provision | field | ret | end_
  deriving DecidableEq, Repr, Inhabited

/-- A calibration set (R395): its header of 64 bytes, with the flags [0] FACTORY, [1] RECAL and [2] USER and the digest of the rest, and
the sections behind it. -/
structure CalSet where
  revision : W16 := 1
  flags : W16 := 0
  len : W32 := 16384
  digest : BitVec 256 := 0
  /-- The rest of the header. -/
  spare : List Byte := List.replicate 24 0
  body : List Byte := []
  deriving DecidableEq, Repr, Inhabited

/-- The TAP (R434 to R436): the instruction register, the boundary register's update stage, what its last shift
captured, and what the last scan of the instruction register captured, which TDO has shifted out. -/
structure Tap where
  ir : Byte := 0x01
  boundary : BitVec 15 := 0
  captured : BitVec 32 := 0
  irCaptured : Byte := 0
  deriving DecidableEq, Repr, Inhabited

end Sys2Proof.Machine
end

