-- ==== Sys2Proof/Machine/State.lean ====
section
/-! DEFINITION. The state of the device: what resets never clear (`Nv`), the TAP, and everything a device
reset returns to its reset values (`Device`), with the queue of commands that wait. -/

namespace Sys2Proof.Machine

/-- Why the machine stops. -/
inductive Fault where
  /-- JOB_START raises it when the last handshake found a mismatch: R316 calls the behaviour of a
  mismatched pair that runs a job undefined. Safe: the model stops where the part goes on. -/
  | mismatchedPair
  deriving DecidableEq, Repr

/-- Why a command has no meaning. -/
inductive Refusal where
  /-- Raised by an arm of `exec` for a command that is not modelled. Safe: the model stops. -/
  | notModelled (mnemonic : String)
  deriving DecidableEq, Repr

/-- A compute die. -/
structure DieState where
  tile : Memory := []
  scratch : Memory := []
  mitts : Sparse Mitt := []
  cuff : Cuff := {}
  /-- The Hatbox regions 0 to 7 (R126). -/
  hbx : Sparse HbxRegion := []
  gnt : Gnt := {}
  palm : Palms := {}
  adders : Adders := {}
  /-- Patches the Visor holds until their check completes (R219 to R223). -/
  checks : List Check := []
  /-- What the last JSTAT of the die's program returned (R331). -/
  jstat : Bool := false
  /-- The Gauntlet's sticky overflow and invalid flags for the solve in progress (R53, R104). -/
  solveOvf : Bool := false
  solveInv : Bool := false
  deriving DecidableEq, Repr, Inhabited

/-- The memory system (spec/09). Stack and port states stand in their registers. -/
structure MemSys where
  near : Memory := []
  /-- Far memory by port * 4 TiB + byte of the port, whatever map is in force (R255). -/
  far : Memory := []
  /-- The far map latched at job start: interleaved (R255). -/
  ilv : Bool := false
  /-- Ports that were down at a wipe and are wiped once they have retrained (R262). -/
  unwiped : List Unwiped := []
  /-- Corrected errors of a lane in this scrub period, by (stack * 32 + channel) * 72 + lane (R243). -/
  laneErrs : Sparse Nat := []
  /-- The next line of the patrol scrub (R260). -/
  scrubLine : Nat := 0
  /-- Bonnet's own log of 64 entries (R261). -/
  log : Memory := []
  /-- Far memory events that wait for Bonnet, oldest first: port and far address (R257, R384). -/
  bonnetHeld : List (Fin 2 × Nat) := []
  deriving DecidableEq, Repr, Inhabited

/-- The command block (spec/11). -/
structure Command where
  rings : Quad Ring := Quad.all {}
  lastRing : Nat := 3
  dstate : DState := .notReady
  handshake : Bool := false
  mismatch : Bool := false
  queue : List JobDesc := []
  job : Option Job := none
  usage : Sparse Nat := []
  jobsRun : Sparse Nat := []
  lastDecayUs : Nat := 0
  retained : W16 := 0
  /-- JOB_YIELDs that wait for order 5 of a tick (R331). -/
  yieldPend : List PktRef := []
  yieldSeen : Bool := false
  /-- FRM_COUNT of the tick at which the yield became visible. -/
  yieldFrm : W64 := 0
  joins : List Join := []
  leaves : List Leave := []
  admitted : List Admitted := []
  transfers : List Transfer := []
  linkUp : Bool := false
  linkWidth : Byte := 0
  linkRate : Byte := 0
  /-- A VERSION handshake has completed since the reset (R348). -/
  shook : Bool := false
  activation : Option Activation := none
  calRestore : Option PktRef := none
  /-- The re-calibration procedure has run and waits for Crown or Peak, which restarts (R384, R397). -/
  calDone : Bool := false
  hostRing : Option HostRing := none
  msix : Sparse Nat := []
  pcie : Pcie := {}
  deriving DecidableEq, Repr, Inhabited

/-- A frozen shard, as the directory gives it at step start: its stored weight lies in the near memory of its owner, `own` where that is
this device (R117, R277). -/
structure FrozenShard where
  layer : Nat
  own : Bool := true
  addr : Nat
  len : Nat
  deriving DecidableEq, Repr, Inhabited

/-- The Washa fabric, shards and replicas (spec/10). -/
structure Fabric where
  frozen : List FrozenShard := []
  /-- Messages handed to the ports, oldest first. -/
  sent : List Msg := []
  ports : Sparse PortSt := []
  /-- The link map (R273): every link known to be up, from either end. -/
  links : List LinkEnds := []
  /-- The tick master that was lost and whose missing tick has not been generated (R276). -/
  oldMaster : Option Nat := none
  /-- The members that were ACTIVE at the last tick (R275; log entry 153). -/
  whole : List Nat := []
  /-- The peer table in XD0 SRAM: 4,096 entries of 32 bytes (R271). -/
  peers : Memory := []
  /-- The layout epoch in force (R286). -/
  epoch : Byte := 0
  reshard : Option Reshard := none
  /-- Members that have acknowledged a staged directory, with its epoch (R290). -/
  acks : List (Nat × Byte) := []
  /-- The step at whose end the layout epoch last changed (R291). -/
  switchStep : W32 := 0
  leaving : List Leaving := []
  /-- Where results in force lay during the step that the last tick ended, of those that a commit at that tick replaced (R293). -/
  rootsWere : List (Nat × Option Nat) := []
  /-- Digest words of the versions being written, by directory entry (R280). -/
  digests : Sparse W64 := []
  /-- Shards whose run or copy run of this step has begun (R281). -/
  begun : List Nat := []
  /-- Shards whose run of this step has ended and which order 3 publishes (R279). -/
  ran : List ShardRun := []
  /-- Shards whose run has ended and whose export has not read them (R197). -/
  exportDue : List Nat := []
  /-- Shards whose group of this step completed with no key applied (R279). -/
  copyDue : List Nat := []
  /-- Shards that have had a copy run in this step, and so no update run (R279). -/
  copied : List Nat := []
  /-- On-time keys skipped in the step before and in this step (R286). -/
  skippedPrev : List (Nat × Nat) := []
  skippedNow : List (Nat × Nat) := []
  cutoffDone : Bool := false
  fetchHeld : List Fetch := []
  pins : List Fetch := []
  replicas : List Replica := []
  /-- Refetches of an entry in a row (R284). -/
  tries : Sparse Nat := []
  /-- Versions published before the newest, with their digests (R284): entry, version, digest. -/
  older : List (Nat × W32 × W64) := []
  divergent : List Nat := []
  /-- Abandoned micro-batches of this step (R285). -/
  abandoned : List W32 := []
  /-- Outgoing activations, gradients and tap rows of the step that their peers have not acknowledged (R19, R151). -/
  outgoing : List Outgoing := []
  /-- Messages that wait for Band, oldest first (R380, R384). -/
  bandHeld : List BandWork := []
  /-- Forward fetches of this device that no response has answered: entry and version (R282). -/
  asked : List (Nat × W32) := []
  /-- Contributors that were asked in place of an owner and hold no replica: entry and peer (R283). -/
  passed : List (Nat × Nat) := []
  /-- The contributions of this device to shards of peers, of this step and the one before (R286, R288). -/
  sums : List Sum := []
  /-- The tap rows sent in this step and the one before (R289). -/
  tapsSent : List Msg := []
  records : List RecordOut := []
  /-- A base record is due for every shard (R294, BASE_EXPORT). -/
  baseDue : List Nat := []
  /-- Consecutive ticks at which a member was LOST or DEPARTED (R295). -/
  lostTicks : Sparse Nat := []
  takeover : Option (Nat × Nat) := none
  /-- This device is the spare that restores (R295). -/
  restoring : Bool := false
  restored : List Nat := []
  /-- Shards that wait for their migration (R291). -/
  migrating : List Nat := []
  deriving DecidableEq, Repr, Inhabited

/-- Everything a device reset returns to its reset value. -/
structure Device where
  regs : RegFile := {}
  err : ErrQueue := {}
  frm : Frame := {}
  cmd : Command := {}
  dies : Quad DieState := Quad.all {}
  mem : MemSys := {}
  fab : Fabric := {}
  pwr : Power := {}
  lining : Memory := []
  inReset : Bool := true
  /-- REFCLK_SYS has been lost: the microseconds that the core PLLs have held their frequency since (R431). -/
  holdover : Option Nat := none
  /-- The source of the reset in progress or of the last one, as GLB_RST_STAT.CAUSE names it (R359). -/
  cause : Nat := 0
  hostMem : Memory := []
  clockUs : Nat := 0
  freeCnt : Nat := 0
  detLatched : Bool := false
  procs : Quad ProcState := Quad.all {}
  /-- Firmware-processor restarts since the reset (R412). -/
  restarts : Nat := 0
  /-- The processor that restarts, or restarted last (GLB_RSEQ_STAT.FAILS). -/
  lastProc : Fin 4 := 0
  /-- The boot chain is still to run (R409). -/
  booting : Bool := false
  /-- Measurements of the running images, none where none verified, and the bundle they are from, whatever its slot holds since (R407, R409,
  R412). -/
  images : List (BitVec 256) := []
  running : List Byte := []
  /-- The XD0 firmware store: the verified copy of the boot slot's bundle (R359, R398). -/
  store : List Byte := []
  keys : Bool := false
  /-- The boot chain took the other slot at this reset (R410). -/
  fellBack : Bool := false
  calUse : CalUse := {}
  nonce : BitVec 256 := 0
  /-- A JTAG test instruction has been loaded since the reset (R412). -/
  testLoaded : Bool := false
  i3c : I3c := {}
  /-- A test instruction of the TAP has taken the I3C target's bus (R436). -/
  offBus : Bool := false
  /-- Block resets in progress: target and index (R366). -/
  blocks : List (Nat × Nat) := []
  deriving DecidableEq, Repr, Inhabited

/-- What no reset clears (R359, R398, R406, R413): the blown bits of the lifecycle words of PROVISION, FIELD, RETURN
and END, the fuses, the bundle slots, the calibration set, and how often the entropy source was drawn. What a
delivered part holds is a choice of the model (log entry 35). -/
structure Nv where
  words : Quad Nat := ⟨32, 32, 0, 0⟩
  root0 : Option (BitVec 256) := some (Config.rootDigest 0)
  root1 : Option (BitVec 256) := some (Config.rootDigest 1)
  root0Revoked : Bool := false
  uds : Option (BitVec 256) := some Config.uds
  minSv : Nat := 0
  idCert : List Byte := Config.idCert
  slot0 : List Byte := Config.shippedBundle
  slot1 : List Byte := []
  /-- The slot holds a bundle that verified (PWR_FW_STAT.STAGED0, STAGED1). -/
  good0 : Bool := true
  good1 : Bool := false
  boot : Nat := 0
  noBoot : Bool := false
  cal : CalSet := { flags := 1, digest := Shake.digest Config.shippedCal, body := Config.shippedCal }
  draws : Nat := 0
  deriving DecidableEq, Repr

/-- The machine. -/
structure State where
  pending : List Instr := []
  nv : Nv := {}
  tap : Tap := {}
  /-- VAUX is good; the core rails are up (R424, R425). -/
  vaux : Bool := true
  rails : Bool := true
  /-- REFCLK_SYS runs; RESET_N is high (R360, R431). -/
  refclk : Bool := true
  resetHigh : Bool := true
  dev : Device := {}
  deriving DecidableEq, Repr

/-- The machine right after reset. -/
def State.reset : State := {}

end Sys2Proof.Machine
end

