-- ==== Sys2Proof/Machine/Ops.lean ====
section
/-! DEFINITION. The named operations the meanings share: register copies and fields, status events and
counts, device memories, the error queue with the action of each severity, and the end of a job
(spec/12 R346, R350; spec/13 R370 to R377; spec/11 R318, R323). -/

namespace Sys2Proof.Machine

/-! ## Register copies -/

/-- Even parity of one byte of a word. -/
def byteParity (v : Nat) (i : Nat) : Bool :=
  (List.range 8).foldl (fun p b => p != v.testBit (8 * i + b)) false

/-- The four parity bits over the RW and RWI bits of a word (R350; even parity, log entry 4). -/
def parityOf (fs : List FieldDef) (v : W32) : BitVec 4 :=
  let c := v.toNat &&& maskOf (fun a => a == .rw || a == .rwi) fs
  BitVec.ofNat 4 (b2n (byteParity c 0) + 2 * b2n (byteParity c 1) + 4 * b2n (byteParity c 2) + 8 * b2n (byteParity c 3))

/-- A copy whose parity is right. -/
def goodCopy (fs : List FieldDef) (v : W32) : RegCopy := ⟨v, parityOf fs v⟩
/-- A register's copy at reset. -/
def resetCopy (off : Nat) : RegCopy := let fs := fieldsAt off; goodCopy fs (BitVec.ofNat 32 (resetOf fs))
/-- Whether a copy's parity matches. -/
def RegCopy.ok (c : RegCopy) (off : Nat) : Bool := c.par == parityOf (fieldsAt off) c.val

/-- A word with bits [lo+w-1:lo] replaced. -/
def insertBits (v lo w x : Nat) : Nat := v - bitsOf v (lo + w - 1) lo * 2 ^ lo + x % 2 ^ w * 2 ^ lo

namespace RegFile

def liveAt (r : RegFile) (off : Nat) : RegCopy := Sparse.get (resetCopy off) off r.live
def shadowAt (r : RegFile) (off : Nat) : RegCopy := Sparse.get (resetCopy off) off r.shadow
def pendAt (r : RegFile) (off : Nat) : RegCopy := Sparse.get (resetCopy off) off r.pend
def setLive (r : RegFile) (off : Nat) (c : RegCopy) : RegFile := { r with live := Sparse.put (resetCopy off) off c r.live }
def setShadow (r : RegFile) (off : Nat) (c : RegCopy) : RegFile := { r with shadow := Sparse.put (resetCopy off) off c r.shadow }
def setPend (r : RegFile) (off : Nat) (c : RegCopy) : RegFile := { r with pend := Sparse.put (resetCopy off) off c r.pend }

/-- A field of the copy in force. -/
def fld (r : RegFile) (f : Fld) : Nat := bitsOf (r.liveAt f.off).val.toNat (f.lo + f.w - 1) f.lo
/-- A one-bit field of the copy in force. -/
def flag (r : RegFile) (f : Fld) : Bool := r.fld f == 1

/-- A field written by the device. A parity mismatch the copy already has stays one. -/
def setFld (r : RegFile) (f : Fld) (x : Nat) : RegFile :=
  let c := r.liveAt f.off
  let v := BitVec.ofNat 32 (insertBits c.val.toNat f.lo f.w x)
  let fs := fieldsAt f.off
  r.setLive f.off ⟨v, c.par ^^^ parityOf fs c.val ^^^ parityOf fs v⟩

/-! ## Events and counts (R346) -/

/-- The status register whose sequence numbers an SQ field takes (R346). -/
def statOf (off : Nat) : Nat :=
  if R.FAB_PORT_STAT ≤ off ∧ off < R.FAB_PORT_STAT + 64 then R.FAB_STAT
  else if off = R.MEM_FAR_STAT ∨ off = R.MEM_FAR_STAT + 8 then R.MEM_STAT
  else off

/-- The SEQ field of a status register. -/
def seqFld (stat : Nat) : Fld := ⟨stat, 0, 8, 0⟩

/-- An event of an SQ field: SEQ moves on, the field takes the value and remembers the sequence number. -/
def eventWith (r : RegFile) (f : Fld) (x : Nat) : RegFile :=
  let stat := statOf f.off
  let q := (r.fld (seqFld stat) + 1) % 256
  let r := (r.setFld (seqFld stat) q).setFld f x
  { r with sqSeq := Sparse.put 0 (f.off * 32 + f.lo) (BitVec.ofNat 8 q) r.sqSeq }

/-- An event that sets a bit. -/
def event (r : RegFile) (f : Fld) : RegFile := r.eventWith f 1
/-- An event that counts in an SQ field of more than one bit, which saturates. -/
def eventCount (r : RegFile) (f : Fld) : RegFile := r.eventWith f (satCount f.w (r.fld f + 1))
/-- A count register raised by `n`, saturating. -/
def count (r : RegFile) (f : Fld) (n : Nat) : RegFile := r.setFld f (satCount f.w (r.fld f + n))

end RegFile

/-! ## Status codes (R312) -/

def OK : Nat := 0x0000
def JOB_STARTED : Nat := 0x0001
def BAD_OPCODE : Nat := 0x0100
def BAD_LENGTH : Nat := 0x0101
def BAD_FIELD : Nat := 0x0102
def BAD_SEQUENCE : Nat := 0x0103
def NO_HANDSHAKE : Nat := 0x0104
def VERSION_MISMATCH : Nat := 0x0105
def WRONG_STATE : Nat := 0x0106
def BAD_JOB : Nat := 0x0107
def QUEUE_FULL : Nat := 0x0108
def HOLD_STATUS : Nat := 0x0109
def MEM_ERROR : Nat := 0x0200
def MEM_DEGRADED : W16 := 0x0201
def LOAD_ERROR : W16 := 0x0202
def JOB_DONE : W16 := 0x0300
def JOB_RELEASED : W16 := 0x0301
def JOB_ABORTED : W16 := 0x0302
def JOB_FATAL : W16 := 0x0303
def JOB_WITHDRAWN : Nat := 0x0304
def ADMITTED : Nat := 0x0400
def NOT_ADMITTED : Nat := 0x0401
def COST_EXCEEDS : Nat := 0x0402
def SEQ_WITHDRAWN : Nat := 0x0403
def UNKNOWN_SEQ : Nat := 0x0404
def SEQ_DUPLICATE : Nat := 0x0405
def RESHARD_PENDING : Nat := 0x0500
def EPOCH_MISMATCH : Nat := 0x0501
def NOT_SINK : Nat := 0x0502
def FW_DEFERRED : Nat := 0x0600
def FW_ABANDONED : Nat := 0x0601
def SIGNATURE_BAD : Nat := 0x0602
def LIFECYCLE_DENIED : Nat := 0x0603

namespace Device

/-- A field in force. -/
def fld (s : Device) (f : Fld) : Nat := s.regs.fld f
def flag (s : Device) (f : Fld) : Bool := s.regs.flag f
def setFld (s : Device) (f : Fld) (x : Nat) : Device := { s with regs := s.regs.setFld f x }
def event (s : Device) (f : Fld) : Device := { s with regs := s.regs.event f }
def eventCount (s : Device) (f : Fld) : Device := { s with regs := s.regs.eventCount f }
def count (s : Device) (f : Fld) (n : Nat) : Device := { s with regs := s.regs.count f n }

/-! ## Memories -/

def die (s : Device) (d : Die) : DieState := s.dies.get d
def setDie (s : Device) (d : Die) (x : DieState) : Device := { s with dies := s.dies.set d x }
def onDie (s : Device) (d : Die) (f : DieState → DieState) : Device := s.setDie d (f (s.die d))

/-- Where a far address lies: port * 4 TiB + byte of the port; beyond 8 TiB nothing lies anywhere (R255). -/
def farPlace (ilv : Bool) (a : Nat) : Nat := if ilv ∧ a < 2 ^ 43 then a / 4096 % 2 * 2 ^ 42 + a / 8192 * 4096 + a % 4096 else a
/-- The far address of a place. -/
def farAddr (ilv : Bool) (k : Nat) : Nat :=
  if ilv then k % 2 ^ 42 / 4096 * 8192 + k / 2 ^ 42 % 2 * 4096 + k % 4096 else k
/-- A memory with every address renamed. -/
def renamed (f : Nat → Nat) (m : Memory) : Memory := m.foldl (fun z c => Sparse.put 0 (f c.1) c.2 z) []
/-- Bytes of far memory a port's decoder covers (R254). -/
def farCap (s : Device) (p : Nat) : Nat := s.fld (R.MEM_FAR_CAP_CAP.nth p) * 2 ^ 28
/-- A place a decoder covers (R255). -/
def farCovered (s : Device) (k : Nat) : Bool := decide (k % 2 ^ 42 < s.farCap (k / 2 ^ 42)) && decide (k < 2 ^ 43)

/-- The memory a space names. -/
def memory (s : Device) : Space → Memory
  | .tile d => (s.die d).tile
  | .scratch d => (s.die d).scratch
  | .near => s.mem.near
  | .far => if s.mem.ilv then renamed (farAddr true) s.mem.far else s.mem.far

/-- The memory a space names, replaced; it holds the bytes that the space has (R1). A byte that a unit writes past the end
of tile memory or scratch has no place and is dropped: DESIGN CHOICE, log entry 183. -/
def setMemory (s : Device) (sp : Space) (m : Memory) : Device :=
  match sp with
  | .tile d => s.onDie d fun x => { x with tile := m.keep fun k => decide (k < sp.bytes) }
  | .scratch d => s.onDie d fun x => { x with scratch := m.keep fun k => decide (k < sp.bytes) }
  | .near => { s with mem := { s.mem with near := m.keep fun k => decide (k < sp.bytes) } }
  | .far =>
    -- a byte that no decoder covers is not written, and stays as it is (R255)
    let m := if s.mem.ilv then renamed (farPlace true) m else m
    { s with mem := { s.mem with far := Sparse.overlay 0 s.farCovered m s.mem.far } }

def readBytes (s : Device) (sp : Space) (a n : Nat) : List Byte := (s.memory sp).readBytes a n
def writeBytes (s : Device) (sp : Space) (a : Nat) (bs : List Byte) : Device := s.setMemory sp ((s.memory sp).writeBytes a bs)
/-- A little-endian unsigned integer of near memory. -/
def near (s : Device) (a n : Nat) : Nat := s.mem.near.readLE a n
def setNear (s : Device) (a n v : Nat) : Device := s.writeBytes .near a (leBytes n v)
/-- A little-endian integer of `n` bytes written into host memory. -/
def setHost (s : Device) (a : Nat) (bs : List Byte) : Device := { s with hostMem := s.hostMem.writeBytes a bs }
def setLining (s : Device) (a : Nat) (bs : List Byte) : Device := { s with lining := s.lining.writeBytes a bs }

/-- A ring of entries in near memory with a pointer register: one entry written (R224, R188, R261). The index
used comes back; a size of 0 writes nothing. -/
def ringLog (s : Device) (base size len : Nat) (next wraps : Fld) (e : List Byte) : Device × Nat :=
  if size = 0 then (s, 0)
  else
    let i := s.fld next % size
    let s := s.writeBytes .near (base + len * i) e
    if i + 1 = size then ((s.setFld next 0).count wraps 1, i) else (s.setFld next (i + 1), i)

/-! ## Interrupts and device state -/

/-- An MSI-X message on a vector (R300). -/
def raise (s : Device) (v : Nat) : Device :=
  { s with cmd := { s.cmd with msix := Sparse.put 0 v (Sparse.get 0 v s.cmd.msix + 1) s.cmd.msix } }

/-- DSTATE changed, with vector 6 (R300, R318). -/
def setDState (s : Device) (d : DState) : Device :=
  if s.cmd.dstate = d then s else { s with cmd := { s.cmd with dstate := d } }.raise 6

def job? (s : Device) : Option Job := s.cmd.job
def onJob (s : Device) (f : Job → Job) : Device := { s with cmd := { s.cmd with job := s.cmd.job.map f } }
/-- A job is running in STARTING, RUNNING and ENDING (R313). -/
def jobRuns (s : Device) : Bool := s.cmd.job.isSome

/-- The step an error entry or a log entry names (R370, R261). -/
def stepNo (s : Device) : W32 := match s.cmd.job with
  | none => 0xFFFFFFFF
  | some j => j.lastStarted.getD j.desc.first

/-- The key of stochastic draws (R98). -/
def drawKey (s : Device) : DrawKey := match s.cmd.job with
  | none => { step := s.frm.step.toNat }
  | some j => { seed := j.desc.seed, step := s.frm.step.toNat }

/-- A free value: the counter moves on (log entry 2). -/
def freeWord (s : Device) : W64 × Device := (Config.freeWord s.freeCnt, { s with freeCnt := s.freeCnt + 1 })

/-- Cycles that an event took, added to a count that saturates: a free value (log entry 48). -/
def freeCycles (s : Device) (f : Fld) : Device := let x := s.freeWord; x.2.count f x.1.toNat

/-! ## Replies (R302, R304, R307, R308) -/

def ring (s : Device) (r : Fin 4) : Ring := s.cmd.rings.get r
def onCmd (s : Device) (f : Command → Command) : Device := { s with cmd := f s.cmd }
def onRing (s : Device) (r : Fin 4) (f : Ring → Ring) : Device := s.onCmd fun c => { c with rings := c.rings.set r (f (c.rings.get r)) }

/-- Bytes of a submission ring (R302) and entries of a status ring (R304). -/
def ringSize (s : Device) (r : Fin 4) : Nat := 2 ^ (16 + s.fld (R.CMD_RCTL_RLOG2.nth r.val))
def statusSize (s : Device) (r : Fin 4) : Nat := 2 ^ (6 + s.fld (R.CMD_RCTL_SLOG2.nth r.val))
def statusBase (s : Device) (r : Fin 4) : Nat :=
  s.fld (R.CMD_SBASE_LO_ADDR.nth r.val) + s.fld (R.CMD_SBASE_HI_ADDR.nth r.val) * 2 ^ 32
/-- No entry of a status ring is free. One entry stays unused, so that HEAD = WIDX means empty (log entry 42). -/
def statusFull (s : Device) (r : Fin 4) : Bool :=
  ((s.ring r).widx + 1) % s.statusSize r == s.fld (R.CMD_SHEAD_HEAD.nth r.val) % s.statusSize r

/-- The link carries packets and replies, and Peak, or in HOLD the sequencer's responder, runs (R300, R380, R381). -/
def serves (s : Device) : Bool := s.cmd.linkUp && (s.procs.q2.up || s.cmd.dstate == .hold)

/-- The 32 bytes of a reply. -/
def replyBytes (x : Reply) (phase : Bool) : List Byte :=
  leBytes 4 x.ref.seq.toNat ++ leBytes 2 x.ref.op.toNat ++ leBytes 2 x.status ++ leBytes 8 x.ref.job.toNat
    ++ leBytes 6 x.result ++ leBytes 2 (b2n phase + 2 * b2n x.interim) ++ leBytes 8 x.ref.cookie.toNat

/-- The oldest waiting reply is written, if an entry is free; the phase flips at each wrap. -/
def writeReply (s : Device) (r : Fin 4) : Device :=
  match (s.ring r).replies with
  | [] => s
  | x :: rest =>
    if s.statusFull r ∨ ¬ s.serves then s
    else
      let q := s.ring r
      let s := s.setHost (s.statusBase r + 32 * q.widx) (replyBytes x q.phase)
      let w := (q.widx + 1) % s.statusSize r
      let s := s.onRing r fun q => { q with replies := rest, widx := w, phase := if w = 0 then !q.phase else q.phase }
      let s := if x.ref.intr then s.raise r.val else s
      if s.statusFull r then s.event (R.CMD_RSTAT_SFULL.nth r.val) else s

def flushN (r : Fin 4) : Nat → Device → Device
  | 0, s => s
  | n + 1, s => flushN r n (s.writeReply r)

/-- Every reply that can be written is. -/
def flush (s : Device) (r : Fin 4) : Device := flushN r (s.ring r).replies.length s
def flushAll (s : Device) : Device := [0, 1, 2, 3].foldl (fun s r => s.flush r) s

/-- A reply queued for its status ring; NOREPLY suppresses one whose status is OK (R307). -/
def queueReply (s : Device) (ref : PktRef) (status result : Nat) : Device :=
  if status = OK ∧ ref.noreply then s
  else (s.onRing ref.ring fun q => { q with replies := q.replies ++ [{ ref, status, result }] }).flush ref.ring

/-- The final reply to a command, which ends it. -/
def reply (s : Device) (ref : PktRef) (status result : Nat) : Device :=
  (s.onRing ref.ring fun q =>
    { q with outstanding := q.outstanding.filter fun x => x.seq != ref.seq,
             early := q.early.filter fun x => x != ref.seq }).queueReply ref status result

/-- A reply whose result the manual does not state: the table of R313 gives the result of a command that is OK, and of
some none (log entry 46). -/
def replyFree (s : Device) (ref : PktRef) (status : Nat) : Device := let x := s.freeWord; x.2.reply ref status x.1.toNat

/-- An interim reply (R310); the first reply of a JOB_SUBMIT completes it for a FENCE (R309). -/
def interim (s : Device) (ref : PktRef) (status result : Nat) : Device :=
  (s.onRing ref.ring fun q => { q with
    replies := q.replies ++ [{ ref, status, result, interim := true }],
    early := if ref.op = 0x10 then q.early ++ [ref.seq] else q.early }).flush ref.ring

end Device

/-- A unit code of R377: the unit and its location. -/
def unitCode (u loc : Nat) : W16 := BitVec.ofNat 16 (u * 16 + loc)

/-! ## The error queue -/

namespace ErrEntry

def stateCode : EntryState → Nat
  | .waiting => 1
  | .active => 2
  | .handled => 3

/-- The 32 bytes of a slot (R370). -/
def bytes (e : ErrEntry) : List Byte :=
  leBytes 4 e.seq.toNat ++ leBytes 2 e.code.toNat ++ leBytes 1 e.sev ++ leBytes 1 (stateCode e.state)
    ++ leBytes 2 e.occ ++ leBytes 2 e.unit.toNat ++ leBytes 4 e.step.toNat ++ leBytes 8 e.frm.toNat
    ++ leBytes 8 e.detail.toNat

/-- How long ago the entry was numbered, modulo 2^32. -/
def age (e : ErrEntry) (next : W32) : Nat := (next - e.seq).toNat

end ErrEntry

namespace ErrQueue

def slot (q : ErrQueue) (i : Nat) : Option ErrEntry := Sparse.get none i q.slots
def setSlot (q : ErrQueue) (i : Nat) (e : Option ErrEntry) : ErrQueue := { q with slots := Sparse.put none i e q.slots }
/-- The occupied slots. -/
def entries (q : ErrQueue) : List (Nat × ErrEntry) := q.slots.filterMap fun x => x.2.map fun e => (x.1, e)
def depth (q : ErrQueue) : Nat := q.entries.length
/-- The entry an error of this code and severity joins (R373). -/
def joins (q : ErrQueue) (code : W16) (sev : Nat) : Option (Nat × ErrEntry) :=
  q.entries.find? fun x => x.1 < 63 && x.2.code == code && x.2.sev == sev && x.2.state != .handled
/-- The lowest FREE slot below 63. -/
def freeSlot (q : ErrQueue) : Option Nat := (List.range 63).find? fun i => (q.slot i).isNone
def active (q : ErrQueue) : Option (Nat × ErrEntry) := q.entries.find? fun x => x.2.state == .active
/-- Whether `a` is taken before `b`: higher severity, then lower sequence number (R372). -/
def before (q : ErrQueue) (a b : ErrEntry) : Bool :=
  decide (a.sev > b.sev) || (a.sev == b.sev && decide (a.age q.nextSeq > b.age q.nextSeq))
/-- The WAITING entry to take next. -/
def nextWaiting (q : ErrQueue) : Option (Nat × ErrEntry) :=
  (q.entries.filter fun x => x.2.state == .waiting).foldl (fun best x => match best with
    | none => some x
    | some b => if q.before x.2 b.2 then some x else some b) none

end ErrQueue

namespace Device

def onFrm (s : Device) (f : Frame → Frame) : Device := { s with frm := f s.frm }
def onErr (s : Device) (f : ErrQueue → ErrQueue) : Device := { s with err := f s.err }

/-! ## The end of a job -/

/-- What stops with a job that ends at once (R323, R439): on every mitt the tiles whose drain was requested
stay, every other tile and all waiting job work is discarded; a Palm with chunks in flight stops at their
boundaries, the Palm queue is emptied (R212); queued, suspended and running solves are discarded (R187). The memory-side adders go on:
a group whose keys are all resolved still completes (R247, R249). -/
def stopMitt (m : Mitt) : Mitt :=
  { m with tiles := m.tiles.filter fun t => t.closed, jobs := [], fx := [], taps := [] }

def stopPalm (p : Palms) : Palms := match p.run with
  | none => { p with queue := [], held := [] }
  | some r =>
    if r.units.toList.all fun u => u.sets.all fun x => x.2.chunk.isNone then
      { p with queue := [], held := [], run := none, regs := r.units.map (·.sets) }
    else { p with queue := [], held := [], run := some { r with stopping := true } }

def stopUnits (s : Device) : Device :=
  { s with dies := s.dies.map fun d => { d with
      mitts := d.mitts.map fun x => (x.1, stopMitt x.2), palm := stopPalm d.palm, gnt := {},
      cuff := { d.cuff with h0 := {}, h1 := {}, held := [] } } }

/-- Every pending join is answered NOT_ADMITTED (R324 step 1, R27). -/
def returnJoins (s : Device) : Device :=
  let js := s.cmd.joins
  let s := (s.onCmd fun c => { c with joins := [] }).onJob fun j => { j with joinsReturned := j.joinsReturned + js.length }
  js.foldl (fun s x => s.replyFree x.ref NOT_ADMITTED) s

/-- The job ends now with a status and the code of the fatal event (R323): ENDING is entered (R324). A job
that has ended is not ended twice (R372). -/
def endJob (s : Device) (status code : W16) : Device :=
  match s.cmd.job with
  | none => s
  | some j => match j.phase with
    | .ending _ => s
    | _ =>
      let s := s.onJob fun j => { j with phase := .ending false, endStatus := status, errCode := code, endFrm := s.frm.count }
      let s := { s with frm := { s.frm with stepRun := false, overran := false } }
      (s.stopUnits.setDState (if s.cmd.dstate = .hold then .hold else .ending)).returnJoins

/-- What is still to be done once the job has ended there: nothing (R323). -/
def whileOn (s : Device) (f : Device → Device) : Device := if s.cmd.dstate = .running then f s else s

/-! ## Handling (R371, R372) -/

/-- A HANDLED entry; with AUTO_WARN a warning becomes FREE (R375). -/
def finish (s : Device) (i : Nat) (e : ErrEntry) : Device :=
  s.onErr fun q => q.setSlot i
    (if e.sev = 1 ∧ s.flag R.GLB_ERR_CTL_AUTO_WARN then none else some { e with state := .handled })

/-- Whether the job an action ended has its end record (R371). -/
def jobClosed (s : Device) : Bool := match s.cmd.job with
  | none => true
  | some j => j.replied

/-- The action of an entry that becomes ACTIVE (R371). -/
def act (s : Device) (i : Nat) (e : ErrEntry) : Device :=
  if e.sev ≤ 1 then s.finish i e
  else
    let s := s.onErr fun q => q.setSlot i (some { e with state := .active })
    let s := s.endJob JOB_FATAL e.code
    let s := if e.sev = 3 ∧ ¬ s.flag R.GLB_ERR_STAT_LATCHED then
        (s.setFld R.GLB_ERR_STAT_LATCHED 1).onErr fun q => { q with latchCode := e.code }
      else s
    if s.jobClosed then s.finish i e else s

/-- One turn of the error controller: a finished action, a pre-emption or the next entry (R372). -/
def settleOnce (s : Device) : Device :=
  match s.err.active, s.err.nextWaiting with
  | some (i, e), w =>
    if s.jobClosed then s.finish i e
    else match w with
      | some (j, x) =>
        if x.sev > e.sev then (s.onErr fun q => q.setSlot i (some { e with state := .waiting })).act j x else s
      | none => s
  | none, some (j, x) => s.act j x
  | none, none => s

/-- The error controller runs until nothing more can be handled; 64 entries need no more turns than the fuel. -/
def settleN : Nat → Device → Device
  | 0, s => s
  | n + 1, s => settleN n s.settleOnce

def settle (s : Device) : Device := settleN 192 s

/-! ## Posting (R370, R373, R374) -/

def statusFld (sev : Nat) : Fld :=
  if sev = 1 then R.GLB_ERR_STAT_WARN else if sev = 2 then R.GLB_ERR_STAT_JOB_FATAL else R.GLB_ERR_STAT_FATAL

/-- Entries of severity 2 and 3 are copied into the Lining, newest first (R368). -/
def copyToLining (s : Device) (e : ErrEntry) : Device :=
  s.setLining 0x100 (e.bytes ++ s.lining.readBytes 0x100 224)

/-- ALERT_N is asserted (R375). -/
def alert (s : Device) : Bool :=
  s.cmd.dstate == .hold || s.err.entries.any fun x => decide (x.2.sev ≥ 2) || s.flag R.GLB_ERR_CTL_WARN_ALERT

/-- A change after which ALERT_N may have asserted: one in-band interrupt with the mandatory byte 0xA1, while enabled (R401). A target
without its bus sends none, then or later (R436; log entry 203). -/
def alerting (s : Device) (f : Device → Device) : Device :=
  let t := f s
  if t.alert ∧ ¬ s.alert ∧ t.i3c.ibiOn ∧ ¬ t.offBus then { t with i3c := { t.i3c with ibis := t.i3c.ibis ++ [0xA1] } } else t

/-- A new entry in slot `i`: numbered, reported, signalled on vector 4. -/
def create (s : Device) (i : Nat) (e : ErrEntry) : Device :=
  let e := { e with seq := s.err.nextSeq }
  let s := s.alerting fun s => s.onErr fun q => { q.setSlot i (some e) with nextSeq := q.nextSeq + 1 }
  let s := (s.event (statusFld e.sev)).raise 4
  let s := s.onJob fun j => { j with errPosted := j.errPosted + 1 }
  if e.sev ≥ 2 then s.copyToLining e else s

def entryOf (s : Device) (code : W16) (sev : Nat) (unit : W16) (detail : W64) : ErrEntry :=
  { seq := 0, code, sev, state := .waiting, occ := 1, unit, step := s.stepNo, frm := s.frm.count, detail }

/-- Backup register BKn of the Lining (R368). -/
def bkAddr (n : Nat) : Nat := 0x1000 + 4 * n
def bk (s : Device) (n : Nat) : Nat := s.lining.readLE (bkAddr n) 4
def setBk (s : Device) (n v : Nat) : Device := s.setLining (bkAddr n) (leBytes 4 v)

/-- An error that finds 63 entries in use is lost; slot 63 takes or counts QUEUE_OVERFLOW (R374). -/
def lose (s : Device) (code unit : W16) : Device :=
  let s := s.count R.GLB_ERR_LOST_COUNT 1
  match s.err.slot 63 with
  | some e => s.onErr fun q => q.setSlot 63 (some { e with occ := satCount 16 (e.occ + 1) })
  | none =>
    (s.create 63 (s.entryOf 0x0504 3 0x0144 (BitVec.ofNat 64 (code.toNat + unit.toNat * 65536)))).setBk 10
      (s.fld R.GLB_ERR_LOST_COUNT)

/-- An error posted into the queue (R370). -/
def post (s : Device) (code : W16) (sev : Nat) (unit : W16) (detail : W64) : Device :=
  match s.err.joins code sev with
  | some (i, e) => s.onErr fun q => q.setSlot i (some { e with occ := satCount 16 (e.occ + 1) })
  | none =>
    let s := match s.err.freeSlot with
      | some i => s.create i (s.entryOf code sev unit detail)
      | none => s.lose code unit
    s.settle

/-- ILLEGAL_INSTR of R376, at warning severity with ILL_WARN. -/
def postIllegal (s : Device) (unit : W16) (iaddr : W64) : Device :=
  s.post 0x0201 (if s.flag R.GLB_ERR_CTL_ILL_WARN then 1 else 2) unit iaddr

/-- A configuration fault (R351): the register's offset and a cause. -/
def configFault (s : Device) (off cause : Nat) : Device :=
  let s := s.event R.GLB_STAT_CFG_FAULT
  let s := (s.setFld R.GLB_CFG_FAULT_OFFSET off).setFld R.GLB_CFG_FAULT_CAUSE cause
  s.post 0x0103 1 (unitCode 0x0D 4) (BitVec.ofNat 64 (off + cause * 2 ^ 28))

/-! ## What may issue -/

/-- The duty of a die in 256ths (R387): the least of Crown's two duties and, while the clamp is in control, its
own, which is 0 with the cause THERM (R392). -/
def duty (s : Device) (d : Die) : Nat :=
  let crown := min (s.pwr.th.get d) s.pwr.pw
  if s.pwr.clamp then (if s.pwr.causes.getD 6 false then 0 else min (s.pwr.clampDuty.get d) crown) else crown

/-- Instructions issue on a die while the job runs and the die is not throttled to nothing (R323, R386). -/
def issues (s : Device) (d : Die) : Bool := s.cmd.dstate == .running && s.duty d != 0

/-! ## What runs -/

/-- The microseconds for which the core clocks go on without REFCLK_SYS (R431; log entry 178). -/
def HOLDOVER_US : Nat := 100
/-- The core logic stands: a reset holds it, or its clocks have stopped (R360, R431). -/
def halted (s : Device) : Bool := s.inReset || s.holdover.any fun n => decide (HOLDOVER_US ≤ n)

end Device

/-- A command's effect on the device while the core logic runs; logic that a reset holds, or that has no clock, does nothing (R360, R431). -/
def onDev (s : State) (f : Device → Device) : Host.Outcome State Fault Refusal :=
  if s.dev.halted then .next s else .next { s with dev := f s.dev }

/-- An effect in the management domain, which goes on from its own oscillator without REFCLK_SYS (R431; log entry 178). -/
def onManagement (s : State) (f : Device → Device) : Host.Outcome State Fault Refusal :=
  if s.dev.inReset then .next s else .next { s with dev := f s.dev }

/-- An instruction of a die's program, mitts, Gauntlet or Palms: it has its effect where the die issues. -/
def issue (s : State) (d : Die) (f : Device → Device) : Host.Outcome State Fault Refusal :=
  onDev s fun v => if v.issues d then f v else v

/-- Work on the Gauntlet lanes of a die, which a duty of 0 stops as they are (R386). -/
def onLanes (s : State) (d : Die) (f : Device → Device) : Host.Outcome State Fault Refusal :=
  onDev s fun v => if v.duty d = 0 then v else f v

end Sys2Proof.Machine
end

