-- ==== Sys2Proof/Machine/Access.lean ====
section
/-! DEFINITION. What an access to near or far memory meets: the address map, the memory log, and the accesses that are not performed or
fail, for the units that make them (spec/09 R236 to R238, R255, R257, R258, R261). -/

namespace Sys2Proof.Machine

/-! ## The interleave (R237) -/

/-- h of an address: seven exclusive-ors of offset bits seven apart. -/
def nearHash (a : Nat) : Nat :=
  let o := a % 2 ^ 38
  (o >>> 8 ^^^ o >>> 15 ^^^ o >>> 22 ^^^ o >>> 29 ^^^ o >>> 36) % 128
/-- The stack of a near address, 0 to 7. -/
def stackOf (a : Nat) : Nat := a / 2 ^ 38 % 4 * 2 + nearHash a % 2
def channelOf (a : Nat) : Nat := nearHash a / 2 % 32
def pseudoOf (a : Nat) : Nat := nearHash a / 64 % 2
/-- The byte within the 2 GiB pseudo-channel. -/
def pseudoAddr (a : Nat) : Nat := a % 2 ^ 38 / 2 ^ 15 * 256 + a % 256

namespace Device

/-! ## The memory log (R261) -/

/-- A stack's STATE: 0 training, 1 trained, 2 failed, 3 retraining (R241, R242). -/
def stackState (s : Device) (k : Nat) : Nat := s.fld (R.MEM_STACK_STATE.nth k)

/-- A log entry's fields but the times. -/
structure LogItem where
  addr : Nat := 0
  kind : Nat := 1
  place : Nat := 0
  channel : Nat := 0
  flags : Nat := 0
  lane : Nat := 0xFFFF
  unit : W16 := 0

/-- The unit code of Bonnet (R377). -/
def bonnetUnit : W16 := 0x135

/-- An entry of the memory log that would lie in a failed stack: the write is discarded, and treated as an uncorrectable read that leaves no
entry of its own (R238, R258; log entry 163). -/
def logRefused (s : Device) (a : Nat) : Device :=
  (((s.event R.MEM_STAT_MAP_ERR).event R.MEM_STAT_UE).count R.MEM_UE_CNT_COUNT 1).post 0x0302 (if s.jobRuns then 2 else 1) bonnetUnit
    (BitVec.ofNat 64 a)

/-- One entry of the memory log: in the ring at MEM_LOG_BASE, or in Bonnet's 64 entries. -/
def memLog (s : Device) (x : LogItem) : Device :=
  let e := leBytes 8 s.frm.count.toNat ++ leBytes 8 x.addr ++ leBytes 4 s.stepNo.toNat ++ leBytes 1 x.kind ++ leBytes 1 x.place
    ++ leBytes 1 x.channel ++ leBytes 1 x.flags ++ leBytes 2 x.lane ++ leBytes 2 x.unit.toNat ++ leBytes 4 0
  let base := s.fld R.MEM_LOG_BASE_UNITS * 4096
  let size := s.fld R.MEM_LOG_SIZE_ENTRIES
  let place := base + 32 * (s.fld R.MEM_LOG_WPTR_NEXT % size)
  if base ≠ 0 ∧ size ≠ 0 ∧ s.stackState (stackOf place) = 2 then s.logRefused place
  else if base ≠ 0 then
    (s.ringLog base size 32 R.MEM_LOG_WPTR_NEXT R.MEM_LOG_WPTR_WRAPS e).1
  else
    let i := s.fld R.MEM_LOG_WPTR_NEXT % 64
    let s := { s with mem := { s.mem with log := s.mem.log.writeBytes (32 * i) e } }
    if i = 63 then (s.setFld R.MEM_LOG_WPTR_NEXT 0).count R.MEM_LOG_WPTR_WRAPS 1 else s.setFld R.MEM_LOG_WPTR_NEXT (i + 1)

/-- The log's place fields of a near or far address. -/
def logItem (s : Device) (far : Bool) (a kind : Nat) (scrub : Bool) (unit : W16) : LogItem :=
  if far then { addr := a, kind, place := 0x80 + farPlace s.mem.ilv a / 2 ^ 42 % 2, unit }
  else { addr := a, kind, place := stackOf a, channel := channelOf a, flags := pseudoOf a + 2 * b2n scrub, unit }

/-! ## Addresses that cannot be read (R238, R255, R257) -/

def portDown (s : Device) (p : Nat) : Bool := s.fld (R.MEM_FAR_STAT_WIDTH.nth p) == 0

/-- An access that is not performed: to a failed stack, or to a far address that no decoder covers. -/
def unmapped (s : Device) (far : Bool) (a : Nat) : Bool :=
  if far then !s.farCovered (farPlace s.mem.ilv a) else s.stackState (stackOf a) == 2 || decide (a ≥ 2 ^ 40)
/-- An access to a port whose link is down. -/
def downFar (s : Device) (far : Bool) (a : Nat) : Bool := far && s.portDown (farPlace s.mem.ilv a / 2 ^ 42)

/-! ## Uncorrectable reads (R258) -/

/-- An uncorrectable read: logged, counted, posted at the severity of its requester. -/
def uncorrectable (s : Device) (x : LogItem) (sev : Nat) : Device :=
  let s := s.memLog x
  let s := (s.event R.MEM_STAT_UE).count R.MEM_UE_CNT_COUNT 1
  s.post 0x0302 sev x.unit (BitVec.ofNat 64 x.addr)

/-- An access that was not performed, treated as an uncorrectable read (R238, R255). -/
def refuseAccess (s : Device) (far : Bool) (a : Nat) (scrub : Bool) (unit : W16) (sev : Nat) : Device :=
  let s := if far then s else s.event R.MEM_STAT_MAP_ERR
  s.uncorrectable (s.logItem far a 4 scrub unit) sev

/-- An access to a far port that is down fails with no address error (R257). -/
def failAccess (s : Device) (far : Bool) (a : Nat) (unit : W16) (sev : Nat) : Device :=
  if s.unmapped far a then s.refuseAccess far a false unit sev else s.uncorrectable (s.logItem far a 2 false unit) sev

/-! ## The accesses of a unit that runs for a job -/

/-- The first address of a range that cannot be accessed; a near line lies in one stack (R237), a far unit of 4 KiB in one port (R255). -/
def badIn (s : Device) (x : Space × Nat × Nat) : Option (Bool × Nat) :=
  let starts (unit : Nat) : List Nat :=
    (List.range ((x.2.1 % unit + x.2.2 + unit - 1) / unit)).map fun i => max x.2.1 (x.2.1 / unit * unit + unit * i)
  match x.1 with
  | .tile _ | .scratch _ => none
  | .near =>
    if x.2.1 + x.2.2 ≤ 2 ^ 40 ∧ (List.range 8).all fun k => s.stackState k != 2 then none
    else ((starts 256).find? (s.unmapped false)).map fun a => (false, a)
  | .far => ((starts 4096).find? fun a => s.unmapped true a || s.downFar true a).map fun a => (true, a)

/-- The first address of some ranges that cannot be accessed. -/
def bad (s : Device) (xs : List (Space × Nat × Nat)) : Option (Bool × Nat) := xs.findSome? s.badIn

/-- What a unit does with the memory it names: nothing where an address cannot be accessed, and that ends the job (R238, R255, R257,
R258). -/
def accessing (s : Device) (unit : W16) (xs : List (Space × Nat × Nat)) (f : Device → Device) : Device :=
  match s.bad xs with
  | some (far, a) => s.failAccess far a unit 2
  | none => f s

/-! ## Records that the device keeps -/

/-- The adders of the window that a near address lies in (R236, R377). -/
def addersAt (a : Nat) : W16 := unitCode 0x08 (a / 2 ^ 38 % 4)

/-- What the device does with a record of its own: nothing where an address of it cannot be accessed, which ends a job that runs (R238,
R258). -/
def recording (s : Device) (unit : W16) (xs : List (Space × Nat × Nat)) (f : Device → Device) : Device :=
  match s.bad xs with
  | some (far, a) => s.failAccess far a unit (if s.jobRuns then 2 else 1)
  | none => f s

/-- One entry of a ring that a unit keeps in near memory, with its index; one that cannot be written leaves the pointer as it is (R188, R224,
R238). -/
def ringEntry (s : Device) (unit : W16) (base size len : Nat) (next wraps : Fld) (e : List Byte) : Device × Nat :=
  let i := s.fld next % size
  match (if size = 0 then none else s.bad [(.near, base + len * i, len)]) with
  | some (far, a) => (s.failAccess far a unit (if s.jobRuns then 2 else 1), i)
  | none => s.ringLog base size len next wraps e

end Device

end Sys2Proof.Machine
end

