-- ==== Sys2Proof/Machine/Operands.lean ====
section
/-! DEFINITION. Tensor elements in memory, and what every written tensor carries: its exponent histogram
and its layer digest (spec/02 R40 to R43, R65 to R67; spec/03 R99; spec/08 R215 to R217). -/

namespace Sys2Proof.Machine

/-! ## Elements -/

/-- The code of the i-th packed element of `bits` bits (R41). -/
def packedCode (m : Memory) (a bits i : Nat) : Nat :=
  let at_ := i * bits
  m.readLE (a + at_ / 8) ((at_ % 8 + bits + 7) / 8) / 2 ^ (at_ % 8) % 2 ^ bits

/-- The memory with the i-th packed element replaced. -/
def setPacked (m : Memory) (a bits i code : Nat) : Memory :=
  let at_ := i * bits
  let n := (at_ % 8 + bits + 7) / 8
  let b := a + at_ / 8
  m.writeLE b n (insertBits (m.readLE b n) (at_ % 8) bits code)

namespace TDescOps

/-- Blocks in a row of a block-scaled tensor (R43): the scale array holds one byte for each of them, row after row, however far
apart the rows' elements lie (log entry 139). -/
def rowBlocks (t : TDesc) : Nat := (t.cols + blockSize t.bs - 1) / blockSize t.bs
/-- Elements from one row to the next: the pitch, and in a block-scaled tensor never less than the row with its padding (R43, log
entry 139). -/
def stride (t : TDesc) (f : Fmt) : Nat := if f.blocked then max t.pitch (rowBlocks t * blockSize t.bs) else t.pitch
/-- Bytes from the first element of a tensor to the end of its last row. -/
def extent (t : TDesc) (f : Fmt) : Nat := (((t.rows - 1) * stride t f + t.cols) * f.bits + 7) / 8
/-- The bytes of a tensor, and of the scale array of a block-scaled one. -/
def ranges (t : TDesc) (f : Fmt) : List (Space × Nat × Nat) :=
  if t.rows = 0 ∨ t.cols = 0 then []
  else (t.space, t.addr, extent t f) :: if f.blocked then [(t.space, t.scaleAddr, t.rows * rowBlocks t)] else []
/-- Two ranges of bytes share some. -/
def overlap (p q : Space × Nat × Nat) : Bool := p.1 == q.1 && decide (p.2.1 < q.2.1 + q.2.2) && decide (q.2.1 < p.2.1 + p.2.2)
/-- Some bytes of one list of ranges are bytes of another. -/
def touch (xs ys : List (Space × Nat × Nat)) : Bool := xs.any fun x => ys.any (overlap x)
/-- The bytes of the elements of a matrix, row by row. -/
def rowSpans (sp : Space) (addr bits rows cols pitch : Nat) : List (Space × Nat × Nat) :=
  (List.range rows).map fun r => (sp, addr + r * pitch * bits / 8, ((r * pitch + cols) * bits + 7) / 8 - r * pitch * bits / 8)
/-- A descriptor of a matrix of a low-rank pair has a rank from 1 to 256 (R118). -/
def rankOk (t : TDesc) : Bool := t.rank.all fun r => decide (1 ≤ r ∧ r ≤ 256)
/-- Where the scale byte of an element's block lies (R43). -/
def scaleAt (t : TDesc) (r c : Nat) : Nat := t.scaleAddr + r * rowBlocks t + c / blockSize t.bs
/-- The logical index of an element (R99). -/
def idx (t : TDesc) (r c : Nat) : Nat := (t.row0.toNat + r) * t.ncols.toNat + (t.col0.toNat + c)
/-- Positions of a tensor, row by row. -/
def positions (t : TDesc) : List (Nat × Nat) :=
  (List.range t.rows).flatMap fun r => (List.range t.cols).map fun c => (r, c)

end TDescOps

open TDescOps

namespace Device

/-- The code of an element. -/
def elemCode (s : Device) (t : TDesc) (f : Fmt) (r c : Nat) : Nat :=
  packedCode (s.memory t.space) t.addr f.bits (r * stride t f + c)

/-- The value of an element, its block's scale applied (R42, R50). -/
def elem (s : Device) (t : TDesc) (f : Fmt) (r c : Nat) : Val :=
  let code := s.elemCode t f r c
  if f.blocked then match f.float? with
    | some g => blockValue g (BitVec.ofNat 8 (packedCode (s.memory t.space) (scaleAt t r c) 8 0)) code
    | none => .nan
  else f.value code

def putCode (s : Device) (t : TDesc) (f : Fmt) (r c code : Nat) : Device :=
  s.setMemory t.space (setPacked (s.memory t.space) t.addr f.bits (r * stride t f + c) code)

/-! ## Histograms -/

/-- What one written element adds to (R65). -/
inductive Bin where
  | bin (b : Nat) | under | over | nan
  deriving DecidableEq, Repr, Inhabited

/-- The count an element as written falls into, with HIST_BASE `b` (R65). -/
def binOf (b : Int) (c : Conv) (v : Val) : Bin :=
  if c.nan then .nan else if c.ovf then .over
  else match v with
    | .nan => .nan
    | .inf _ => .over
    | .fin _ m e =>
      if m = 0 then .under
      else
        let x := expOf m e - b
        if x < 0 then .under else if x ≥ 64 then .over else .bin x.toNat

/-- The place of a count in the record of R66. -/
def binAt : Bin → Nat
  | .bin b => 4 * b
  | .under => 0x100
  | .over => 0x104
  | .nan => 0x108

/-- One more in a count of a record; a full counter stays and sets bit 8 (R66). -/
def histBump (m : Memory) (a : Nat) (x : Bin) : Memory :=
  let p := a + binAt x
  let v := m.readLE p 4
  if v < 2 ^ 32 - 1 then m.writeLE p 4 (v + 1)
  else m.writeLE (a + 0x10C) 4 (m.readLE (a + 0x10C) 4 ||| 0x100)

/-- The record's word 0x10C when elements with HIST_BASE `b` arrive: an empty record takes the base, a
different base in a record that holds counts sets bit 9 (R66; log entry 14). -/
def histBaseWord (m : Memory) (a : Nat) (b : BitVec 8) : Memory :=
  let w := m.readLE (a + 0x10C) 4
  let empty := (m.readBytes a 0x10C).all (· == 0)
  let flags := if empty then 0 else (w &&& 0x300) ||| (if w % 256 = b.toNat then 0 else 0x200)
  m.writeLE (a + 0x10C) 4 (b.toNat + flags)

/-- A record named with a HIST_MODE: one of mode 0 is cleared at every step start, and a record first named with mode 0 has
its clear then (R67, log entry 140). -/
def histMode (s : Device) (t : TDesc) : Device :=
  if t.histKeep then { s with frm := { s.frm with histClears := s.frm.histClears.filter (· != t.histAddr) } }
  else if t.histAddr ∈ s.frm.histClears then s
  else { s.setMemory .near (s.mem.near.clear t.histAddr 0x110) with
           frm := { s.frm with histClears := t.histAddr :: s.frm.histClears } }

/-- Elements counted into the record of a destination (R65 to R67); the adders take no record that is not wholly in the near
tier (R256). An address that is not a multiple of 16 is taken as it is: DESIGN CHOICE, log entry 189. -/
def histogram (s : Device) (t : TDesc) (xs : List (Conv × Val)) : Device :=
  if !t.hist || xs == [] then s
  else if 2 ^ 40 < t.histAddr + 0x110 then s.event R.MEM_STAT_GRP_ERR
  else s.recording (addersAt t.histAddr) [(.near, t.histAddr, 0x110)] fun s =>
    let s := s.histMode t
    let m := histBaseWord s.mem.near t.histAddr t.histBase
    s.setMemory .near (xs.foldl (fun m x => histBump m t.histAddr (binOf t.histBase.toInt x.1 x.2)) m)

/-! ## Layer digests -/

/-- The contribution of an element to a digest (R216). -/
def elemDigest (kind layer idx bits : Nat) : W64 :=
  let pos := BitVec.ofNat 64 (kind * 2 ^ 56) ||| BitVec.ofNat 64 (layer * 2 ^ 40) ||| BitVec.ofNat 64 idx
  mix64 (mix64 pos ^^^ BitVec.ofNat 64 bits)

/-- A layer watch record of the table of a step (R217). -/
def watchRecord (s : Device) (d : Die) (step layer : Nat) : Nat :=
  s.fld (R.VIS_WATCH_BASE_UNITS.die d) * 4096 + step % 2 * 0x200000 + layer * 128

/-- Digest and element count of a kind added into the layer's watch record (R216, R217). -/
def digest (s : Device) (d : Die) (t : TDesc) (xs : List (Nat × Nat)) : Device :=
  let k := t.dkind.toNat
  if k = 0 ∨ k > 4 then s
  else
    let a := s.watchRecord d s.frm.step.toNat t.layer.toNat
    let sum := xs.foldl (fun (z : W64) x => z + elemDigest k t.layer.toNat x.1 x.2) 0
    s.recording (addersAt a) [(.near, a, 0x80)] fun s =>
      let s := s.setNear (a + 8 * (k - 1)) 8 (s.near (a + 8 * (k - 1)) 8 + sum.toNat)
      s.setNear (a + 0x20 + 8 * (k - 1)) 8 (s.near (a + 0x20 + 8 * (k - 1)) 8 + xs.length)

/-! ## Writing a tensor -/

/-- The rounding of one written element: under SR one draw of the given draw number (R51, R98, R100). -/
def roundingAt (s : Device) (t : TDesc) (rnd : BitVec 2) (n r c : Nat) : Rnd :=
  rndOf rnd (s.drawKey.draw t.layer.toNat (idx t r c) n)

/-- What writing elements leaves: the device, the conversions with the values as written and as counted, the conversions, and the
logical index and digested bits of every element. -/
structure Written where
  dev : Device
  counts : List (Conv × Val) := []
  convs : List Conv := []
  bits : List (Nat × Nat) := []

/-- One row written into a plain destination. -/
def writePlainRow (s : Device) (t : TDesc) (f : Fmt) (r : Nat) (xs : List Conv) : Written :=
  { dev := xs.zipIdx.foldl (fun s x => s.putCode t f r x.2 x.1.code) s,
    counts := xs.map fun x => (x, f.value x.code),
    bits := xs.zipIdx.map fun x => (idx t r x.2, x.1.code) }

/-- One block written into a block-scaled destination, with +0 padding behind the last element of a row (R42 to R45). -/
def writeBlock (t : TDesc) (f : Fmt) (g : FloatFmt) (infBit : Bool) (r : Nat) (w : Written)
    (blk : List (Val × Rnd) × Nat) : Written :=
  let bs := blockSize t.bs
  let c0 := blk.2 * bs
  let sb := (convBlock g infBit blk.1).1
  let cs := (convBlock g infBit blk.1).2
  let pad := bs - cs.length
  let s1 := cs.zipIdx.foldl (fun s x => s.putCode t f r (c0 + x.2) x.1.code) w.dev
  let s2 := (List.range pad).foldl (fun s i => s.putCode t f r (c0 + cs.length + i) 0) s1
  { dev := s2.writeBytes t.space (scaleAt t r c0) [sb],
    counts := w.counts ++ cs.map fun x => (x, blockValue g sb x.code),
    bits := w.bits ++ cs.zipIdx.map fun x => (idx t r (c0 + x.2), x.1.code + sb.toNat * 65536) }

/-- One row of values written: under SR one draw of number `n` for each element. -/
def writeRow (t : TDesc) (f : Fmt) (rnd : BitVec 2) (infBit : Bool) (n : Nat) (force : Nat → Nat → Bool)
    (w : Written) (row : List Val × Nat) : Written :=
  let r := row.2
  let vs := row.1.zipIdx.map fun x => (x.1, w.dev.roundingAt t rnd n r x.2)
  let one := match f.blocked, f.float? with
    | true, some g => (chunksOf (blockSize t.bs) vs).zipIdx.foldl (writeBlock t f g infBit r) { dev := w.dev }
    | _, _ => w.dev.writePlainRow t f r (vs.map fun (x : Val × Rnd) => f.convert x.2 infBit x.1)
  let cs := one.counts.zipIdx.map fun (x : (Conv × Val) × Nat) =>
    if force r x.2 then ({ code := x.1.1.code, ovf := true }, x.1.2) else x.1
  { dev := one.dev, counts := w.counts ++ cs, convs := w.convs ++ one.counts.map (·.1), bits := w.bits ++ one.bits }

/-- A tensor of values written to its descriptor: rounded, packed, counted and digested; `n` is the draw
number of its stochastic rounding, and `force` names the elements that count as overflow whatever their
value (R76). The conversions come back for the flags of R53, which a forced count does not set. -/
def writeTensor (s : Device) (d : Die) (t : TDesc) (f : Fmt) (rnd : BitVec 2) (infBit : Bool) (n : Nat)
    (rows : List (List Val)) (force : Nat → Nat → Bool) : Device × List Conv :=
  let w := rows.zipIdx.foldl (writeRow t f rnd infBit n force) { dev := s }
  ((w.dev.histogram t w.counts).digest d t w.bits, w.convs)

/-- The values of a tensor, row by row. -/
def readTensor (s : Device) (t : TDesc) (f : Fmt) : List (List Val) :=
  (List.range t.rows).map fun r => (List.range t.cols).map fun c => s.elem t f r c

end Device

end Sys2Proof.Machine
end

