-- ==== Sys2Proof/Machine/Ports.lean ====
section
/-! DEFINITION. The Washa ports and what goes over them: the peer table, the link map and the routes that Band computes from it, the
virtual channels of a port, and how a message leaves the device (spec/10 R265 to R273). -/

namespace Sys2Proof.Machine

namespace Device

/-! ## Peer table (R271) -/

def onFab (s : Device) (f : Fabric → Fabric) : Device := { s with fab := f s.fab }
def selfIdx (s : Device) : Nat := s.fld R.FAB_SELF_INDEX
def bandUp (s : Device) : Bool := s.procs.q1.up
def peerByte (s : Device) (p o : Nat) : Nat := (s.fab.peers.read (32 * p + o)).toNat
def setPeer (s : Device) (p o n v : Nat) : Device := s.onFab fun f => { f with peers := f.peers.writeLE (32 * p + o) n v }
def peerState (s : Device) (p : Nat) : Nat := s.peerByte p 8
def peerEligible (s : Device) (p : Nat) : Bool := (s.peerByte p 9).testBit 0
def peerSink (s : Device) (p : Nat) : Bool := (s.peerByte p 9).testBit 1
def peerMember (s : Device) (p : Nat) : Bool := (s.peerByte p 9).testBit 2
/-- A peer that is LOST or DEPARTED. -/
def peerDead (s : Device) (p : Nat) : Bool := s.peerState p == 2 || s.peerState p == 3
def peerLinks (s : Device) (p : Nat) : Nat := s.fab.peers.readLE (32 * p + 0x1C) 2
/-- Peers with something in their entry. -/
def listedPeers (s : Device) : List Nat := ((s.fab.peers.map fun (c : Nat × Byte) => c.1 / 32).eraseDups).filter (· < 4096)

/-- The tick master in force where SRC = 2: the ACTIVE peer of lowest index with TICK_ELIGIBLE; one that is lost stays the master until
its missing tick has been generated (R276). -/
def master (s : Device) : Option Nat :=
  if s.fld R.FRM_CTL_SRC ≠ 2 then none
  else match s.fab.oldMaster with
    | some m => some m
    | none => (s.listedPeers.filter fun p => s.peerState p == 1 && s.peerEligible p).min?

/-! ## Ports (R265) -/

def port (s : Device) (p : Nat) : PortSt := Sparse.get {} p s.fab.ports
def setPort (s : Device) (p : Nat) (x : PortSt) : Device := s.onFab fun f => { f with ports := Sparse.put {} p x f.ports }
def portsUp (s : Device) : List Nat := (List.range 16).filter fun p => (s.port p).up

/-- The ports of a peer's routes that are up: the primary next hop, then the alternates (R271, R273). -/
def routePorts (s : Device) (peer : Nat) : List Nat :=
  ((List.range 4).map fun i => s.peerByte peer (0x0C + i)).filter fun p => decide (p < 16) && (s.port p).up
/-- The port by which a message of this device leaves for a peer. -/
def routePort (s : Device) (peer : Nat) : Option Nat := (s.routePorts peer).head?

/-- The peers a link map reaches from those of `front`, each with its distance, `seen` being known already. -/
def levels (ls : List LinkEnds) : Nat → List Nat → List Nat → Nat → List (Nat × Nat)
  | 0, _, _, _ => []
  | n + 1, front, seen, k =>
    let next := (ls.filter fun x => front.contains x.from_.val && !seen.contains x.partner.val).map (fun x => x.partner.val) |>.eraseDups
    front.map (fun p => (p, k)) ++ (if next = [] then [] else levels ls n next (seen ++ next) (k + 1))

/-- Peers reached in the link map, each with its distance from a peer. -/
def reached (s : Device) (p : Nat) : List (Nat × Nat) := levels s.fab.links (s.fab.links.length + 1) [p] [p] 0

/-- The order of the fabric's devices by which the ports are ranked: distance from the reachable peer of lowest index, then index. A port
ranks above another where it leads nearer to that peer (R270; log entry 157). -/
def rank (s : Device) (p : Nat) : Nat :=
  let root := ((s.reached s.selfIdx).map (·.1)).min?.getD s.selfIdx
  (((s.reached root).find? fun x => x.1 == p).map fun x => x.2 * 4096 + p).getD (4096 * 4096 + p)

/-- A hop over a port of this device goes down the ranks. -/
def goesDown (s : Device) (p : Nat) : Bool := decide (s.rank s.selfIdx < s.rank (s.port p).partner)
/-- The port by which a flit received on port `p` goes on: what has come down the ranks goes on down them (R268, R270). -/
def forwardPort (s : Device) (p dest : Nat) : Option Nat :=
  let cameDown := decide (s.rank (s.port p).partner < s.rank s.selfIdx)
  (s.routePorts dest).find? fun o => !cameDown || s.goesDown o

end Device

/-! ## Virtual channels (R269) -/

/-- The virtual channel of a message's class. The table of R269 names no channel for publish notices, acknowledgements of tap rows and of
staged directories, and what a spare tells the master: they go on channel 7 (log entry 154). -/
def Msg.vc : Msg → Fin 8
  | .heartbeat .. | .tick .. | .linkDown .. | .linkUp .. | .lost .. | .departure | .takeover .. | .skip .. => 0
  | .fetch .. | .pinRelease .. | .migratePull .. => 1
  | .fetchData .. | .versionGone .. | .wrongEpoch .. | .migration .. => 2
  | .tensor x _ => if x.kind = .gradient then 4 else 3
  | .abandon .. => 4
  | .tapRow .. | .contribution .. => 5
  | .record .. => 6
  | .publish .. | .tapAck .. | .restoreFailed .. | .reshardAck .. => 7

/-- The one peer a message is for; none for one that goes to every peer. -/
def Msg.peer? : Msg → Option Nat
  | .tapRow p .. | .tapAck p .. | .fetch p .. | .pinRelease p .. | .fetchData p .. | .versionGone p .. | .wrongEpoch p .. | .skip p ..
  | .abandon p .. | .contribution p .. | .record p .. | .restoreFailed p .. | .reshardAck p .. | .migratePull p .. | .migration p .. => some p
  | .tensor x _ => some x.peer.val
  | .publish .. | .linkDown .. | .linkUp .. | .departure | .tick .. | .lost .. | .takeover .. | .heartbeat .. => none

/-- Traffic that a port carries whatever FAB_CTL.EN says: heartbeats, the tick, and what tells of links and peers (R298; log entry
155). -/
def Msg.always : Msg → Bool
  | .heartbeat .. | .tick .. | .linkDown .. | .linkUp .. | .lost .. | .departure => true
  | _ => false

namespace PortSt

/-- A flit of a channel can go out: the port is up, holds a credit, and has room to replay (R267, R269). -/
def canSend (q : PortSt) (vc : Fin 8) : Bool := q.up && decide (0 < q.credits.getD vc.val 0) && decide (q.buf.length < 1024)

/-- The credits a flit returns: of the first channel that is owed four flits or more, in units of four (R266). -/
def creditReturn (q : PortSt) : Fin 8 × Nat :=
  match (List.range 8).find? fun v => decide (4 ≤ q.owed.getD v 0) with
  | some v => (Fin.ofNat 8 v, min 31 (q.owed.getD v 0 / 4))
  | none => (0, 0)

/-- A flit put on a port: numbered, with the acknowledgement and the credits that go back on it, and kept until it is acknowledged
(R266, R267). -/
def transmit (q : PortSt) (vc : Fin 8) (x : Load) : PortSt :=
  let (v, n) := q.creditReturn
  { q with
    txSeq := q.txSeq + 1,
    buf := q.buf ++ [{ seq := q.txSeq, ack := q.rxSeq - 1, vc := vc, creditVc := v, credits := n, load := x }],
    credits := q.credits.set vc.val (q.credits.getD vc.val 0 - 1),
    owed := q.owed.set v.val (q.owed.getD v.val 0 - 4 * n) }

/-- The first flit of a channel leaves the receive buffer; its credit is owed to the partner. -/
def take (q : PortSt) (vc : Fin 8) : PortSt :=
  { q with inbuf := q.inbuf.eraseP fun x => x.vc == vc, owed := q.owed.set vc.val (q.owed.getD vc.val 0 + 1) }

end PortSt

namespace Device

/-- What waits first on a channel for an output port, and the port it came in by: the device's own messages, then flits to forward from the
lowest port on (R268; log entry 156). -/
def waiting (s : Device) (o : Nat) (vc : Fin 8) : Option (Option Nat × Load) :=
  match (s.port o).out.find? fun m => m.vc == vc with
  | some m => some (none, .own m)
  | none => (List.range 16).findSome? fun p => match (s.port p).inbuf.find? fun x => x.vc == vc with
    | some x => if s.forwardPort p x.dest.val = some o then some (some p, .fwd x) else none
    | none => none

/-- The weight of a channel (R269, R298). -/
def weight (s : Device) (v : Nat) : Nat := s.fld ⟨R.FAB_VC_WEIGHT, 4 * (v - 1), 4, 0⟩

/-- The channels in the order in which a port serves them, each with the place the round-robin then has: channel 0 first, then the one being
served, then the others in turn (R269). -/
def serveOrder (s : Device) (q : PortSt) : List (Nat × Nat × Nat) :=
  (0, q.turn, q.left) :: ((if q.left = 0 then [] else [(q.turn, q.turn, q.left - 1)]) ++
    (List.range 7).map fun i => let v := (q.turn + i) % 7 + 1; (v, v, s.weight v - 1))

/-- One flit goes out on a port, where one can. -/
def sendOne (s : Device) (o : Nat) : Option Device :=
  let q := s.port o
  (s.serveOrder q).findSome? fun z =>
    let vc : Fin 8 := Fin.ofNat 8 z.1
    if ¬ q.canSend vc then none
    else match s.waiting o vc with
      | none => none
      | some (src, x) =>
        let s := match src with
          | none => s.setPort o { q with out := q.out.eraseP fun m => m.vc == vc }
          | some p => s.setPort p ((s.port p).take vc)
        some (s.setPort o { (s.port o).transmit vc x with turn := z.2.1, left := z.2.2 })

def pumpN : Nat → Device → Device
  | 0, s => s
  | n + 1, s => match s.portsUp.findSome? s.sendOne with
    | some t => pumpN n t
    | none => s

/-- A flit that is for this device, or that has no route, has left its receive buffer (R268). -/
def absorb (s : Device) (p : Nat) : Device :=
  ((s.port p).inbuf.filter fun x => x.dest.val == s.selfIdx || (s.forwardPort p x.dest.val).isNone).foldl
    (fun s x => s.setPort p { (s.port p) with
      inbuf := (s.port p).inbuf.erase x, owed := (s.port p).owed.set x.vc.val ((s.port p).owed.getD x.vc.val 0 + 1) }) s

/-- Every flit that can go out does (R268, R269). -/
def pump (s : Device) : Device :=
  let s := (List.range 16).foldl absorb s
  pumpN ((List.range 16).map fun p => (s.port p).out.length + (s.port p).inbuf.length).sum s

/-- A message handed to the ports: nothing where the device is silent in HOLD (R362), no job traffic without FAB_CTL.EN (R298). It waits on
the port of its peer's route, on every port that is up where it is for every peer, or on a heartbeat's own port. -/
def send (s : Device) (m : Msg) : Device :=
  if s.cmd.dstate = .hold ∨ (¬ m.always ∧ ¬ s.flag R.FAB_CTL_EN) then s
  else
    let ps := match m, m.peer? with
      | .heartbeat p .., _ => [p]
      | _, some p => (s.routePort p).toList
      | _, none => s.portsUp
    let s := s.onFab fun f => { f with sent := f.sent ++ [m] }
    (ps.foldl (fun s p => if (s.port p).up then s.setPort p { (s.port p) with out := (s.port p).out ++ [m] } else s) s).pump

/-- A tensor for a peer goes out and is outstanding until it is acknowledged; none goes to a peer that is LOST or DEPARTED (R19, R285). -/
def outstanding (s : Device) (x : Outgoing) : Device :=
  s.onFab fun f => { f with outgoing := if f.outgoing.contains x then f.outgoing else f.outgoing ++ [x] }
def sendTensor (s : Device) (x : Outgoing) (codes : List Nat) : Device :=
  if s.peerDead x.peer.val then s else (s.send (.tensor x codes)).outstanding x
/-- Every outgoing tensor of the step is acknowledged, or its peer is LOST or DEPARTED (R19, R285). -/
def outgoingDone (s : Device) : Bool := s.fab.outgoing.all fun x => s.peerDead x.peer.val

/-! ## The link map and routes (R270, R273) -/

/-- The other end of a link first. -/
def turned (x : LinkEnds) : LinkEnds := { from_ := x.partner, port := x.partnerPort, partner := x.from_, partnerPort := x.port }
def sameEnd (x y : LinkEnds) : Bool := x.from_ == y.from_ && x.port == y.port

/-- A place on a path: the peer, whether the path has gone down the ranks, hops so far, and the delays along it in ns. -/
structure PathEnd where
  peer : Nat
  down : Bool
  hops : Nat
  delay : Nat
  deriving DecidableEq, Repr

/-- The paths that go on from a place over one link: up the ranks and then down them (R270). What a link of two other devices delays is
known to the devices that measure it: a free value here (R272; log entry 158). -/
def hopsFrom (s : Device) (x : PathEnd) : List PathEnd :=
  (s.fab.links.filter fun l => l.from_.val == x.peer && l.partner.val != s.selfIdx).filterMap fun l =>
    let up := decide (s.rank l.partner.val < s.rank x.peer)
    if x.down && up then none
    else some { peer := l.partner.val, down := x.down || !up, hops := x.hops + 1, delay := x.delay + Config.linkDelay l.from_.val l.port.val }

def pathsN (s : Device) : Nat → List PathEnd → List (Nat × Bool) → List PathEnd
  | 0, _, _ => []
  | n + 1, front, seen =>
    let next := ((front.flatMap s.hopsFrom).filter fun x => !seen.contains (x.peer, x.down)).foldl
      (fun z x => if z.any fun y => y.peer == x.peer && y.down == x.down then z else z ++ [x]) ([] : List PathEnd)
    front ++ (if next = [] then [] else s.pathsN n next (seen ++ next.map fun x => (x.peer, x.down)))

/-- The shortest legal paths that leave by a port, to every peer they reach. -/
def pathsBy (s : Device) (q : Nat) : List PathEnd :=
  let p := (s.port q).partner
  let down := decide (s.rank s.selfIdx < s.rank p)
  s.pathsN (2 * s.fab.links.length + 1) [{ peer := p, down := down, hops := 1, delay := (s.port q).delay }] [(p, down)]

/-- A peer's routes as its entry holds them: the shortest path first, equals by port; up to four. Where the four shortest all go up the
ranks and another goes down them, the shortest of those is the fourth, so that a flit which has come down goes on (R268, R270, R271; DESIGN
CHOICE, log entry 204). -/
def routesTo (s : Device) (tab : List (Nat × List PathEnd)) (p : Nat) : List (Nat × PathEnd) :=
  let all := sortBy (fun a b => decide (a.2.hops ≤ b.2.hops))
    (tab.filterMap fun z => (z.2.find? fun x => x.peer == p).map fun x => (z.1, x))
  match (all.take 4).any (fun z => s.goesDown z.1), all.find? fun z => s.goesDown z.1 with
  | false, some z => all.take 3 ++ [z]
  | _, _ => all.take 4

/-- Band writes the routes it has computed: hops, next hops and path delay of every peer the link map reaches; the entry of any other peer
stays as the host loaded it (R270 to R273; log entry 157). -/
def setRoutes (s : Device) : Device :=
  if ¬ s.bandUp then s
  else
    let tab := s.portsUp.map fun q => (q, s.pathsBy q)
    (s.listedPeers.filter (· != s.selfIdx)).foldl (fun s p => match s.routesTo tab p with
      | [] => s
      | (q, x) :: rest =>
        let ports := (q :: rest.map (·.1)) ++ List.replicate (3 - rest.length) 0xFF
        ((s.setPeer p 0x0A 1 (min 255 x.hops)).setPeer p 0x0C 4 (leVal (ports.map (BitVec.ofNat 8)))).setPeer p 0x18 4 (x.delay % 2 ^ 32)) s

/-- The bit of a peer's port among its links known to be up (R271). -/
def setLinkBit (s : Device) (peer p : Nat) (up : Bool) : Device := s.setPeer peer 0x1C 2 (insertBits (s.peerLinks peer) p 1 (b2n up))

/-- A link named in a notice goes down or comes up at both its ends, and the routes follow (R273; log entry 38). -/
def mapLink (s : Device) (x : LinkEnds) (up : Bool) : Device :=
  let s := s.onFab fun f =>
    let rest := f.links.filter fun l => !(sameEnd l x || sameEnd l (turned x) || sameEnd (turned l) x || sameEnd (turned l) (turned x))
    { f with links := if up then rest ++ [x, turned x] else rest }
  ((s.setLinkBit x.from_.val x.port.val up).setLinkBit x.partner.val x.partnerPort.val up).setRoutes

/-- A peer the device can reach: over the link map, or, where that knows no link of it, by the route the host loaded. -/
def reaches (s : Device) (p : Nat) : Bool :=
  p == s.selfIdx || (s.reached s.selfIdx).any (fun x => x.1 == p) ||
    (!(s.fab.links.any fun l => l.from_.val == p) && (s.routePort p).isSome)

end Device

end Sys2Proof.Machine
end

