-- ==== Sys2Proof/Machine/Directory.lean ====
section
/-! DEFINITION. The shard directory: entries as they lie in memory (spec/10 R277), the checkpoint sinks, the versions retained. -/

namespace Sys2Proof.Machine

/-- The unit code of the fabric (R377). -/
def fabUnit : W16 := 0x094

namespace Device

/-! ## Shard directory (R277) -/

def dirBase (s : Device) : Nat := s.fld R.FAB_DIR_BASE_UNITS * 4096
/-- First shard entry and shard count of a layer. -/
def layerShards (s : Device) (layer : Nat) : Nat × Nat :=
  (s.near (s.dirBase + 16 * layer) 4, min 4096 (s.near (s.dirBase + 16 * layer + 4) 2))
/-- The entries lie behind the layer table (log entry 32). -/
def entryAddr (s : Device) (e : Nat) : Nat := s.dirBase + 0x40000 + 64 * e
def entryLayer (s : Device) (e : Nat) : Nat := s.near (s.entryAddr e) 2
def entryShard (s : Device) (e : Nat) : Nat := s.near (s.entryAddr e + 2) 2
def entryOwner (s : Device) (e : Nat) : Nat := s.near (s.entryAddr e + 4) 2
def entryDie (s : Device) (e : Nat) : Die := Fin.ofNat 4 (s.near (s.entryAddr e + 6) 1)
def entryFrozen (s : Device) (e : Nat) : Bool := (s.near (s.entryAddr e + 7) 1).testBit 0
def entryRow0 (s : Device) (e : Nat) : Nat := s.near (s.entryAddr e + 8) 4
def entryCol0 (s : Device) (e : Nat) : Nat := s.near (s.entryAddr e + 0x0C) 4
def entryRows (s : Device) (e : Nat) : Nat := s.near (s.entryAddr e + 0x10) 4
def entryCols (s : Device) (e : Nat) : Nat := s.near (s.entryAddr e + 0x14) 4
def entryBank (s : Device) (e : Nat) : Nat := s.near (s.entryAddr e + 0x18) 8
def entryVersion (s : Device) (e : Nat) : W32 := BitVec.ofNat 32 (s.near (s.entryAddr e + 0x20) 4)
def entryDigest (s : Device) (e : Nat) : W64 := BitVec.ofNat 64 (s.near (s.entryAddr e + 0x28) 8)
/-- N, the contributors of a shard, and the peer index of contributor k. -/
def entryN (s : Device) (e : Nat) : Nat := s.near (s.entryAddr e + 0x38) 2
def contributor (s : Device) (e k : Nat) : Nat := s.near (s.near (s.entryAddr e + 0x30) 8 + 2 * k) 2
/-- A publish notice updates version and digest (R279). -/
def setVersion (s : Device) (e : Nat) (v : W32) (g : W64) : Device :=
  let old := (e, s.entryVersion e, s.entryDigest e)
  let s := { s with fab := { s.fab with older := old :: s.fab.older.filter fun x => x.1 != e || (v - x.2.1).toNat < 4 } }
  s.recording fabUnit [(.near, s.entryAddr e, 64)] fun s =>
    (s.setNear (s.entryAddr e + 0x20) 4 v.toNat).setNear (s.entryAddr e + 0x28) 8 g.toNat

/-- The shard entries of a layer. -/
def shardsOf (s : Device) (layer : Nat) : List Nat := let x := s.layerShards layer; (List.range x.2).map (x.1 + ·)
/-- Every shard entry of the directory, by layer. -/
def shards (s : Device) : List Nat := (List.range 16384).flatMap s.shardsOf
/-- The shards this device owns. -/
def owned (s : Device) : List Nat := s.shards.filter fun e => s.entryOwner e == s.selfIdx
/-- The shard of a layer whose update runs on a die of this device. -/
def ownedShard (s : Device) (layer : Nat) (d : Die) : Option Nat :=
  (s.shardsOf layer).find? fun e => s.entryOwner e == s.selfIdx && s.entryDie e == d

/-- The bank size of a shard: its update descriptor's, or rows * columns * 2 rounded to 4 KiB without one. -/
def bankBytes (s : Device) (d : Die) (layer rows cols : Nat) : Nat :=
  let u := s.near (s.fld (R.PALM_UDT_BASE_UNITS.die d) * 4096 + 256 * layer + 0x38) 8
  if u ≠ 0 then u else (rows * cols * 2 + 4095) / 4096 * 4096

/-- Where version v of a shard lies (R191). -/
def bankAddr (s : Device) (e : Nat) (v : Nat) : Nat :=
  s.entryBank e + v % 3 * s.bankBytes (s.entryDie e) (s.entryLayer e) (s.entryRows e) (s.entryCols e)

/-- The frozen shards of the directory, read at a step start (R117, R277). -/
def readFrozen (s : Device) : List FrozenShard :=
  (s.shards.filter s.entryFrozen).map fun e =>
    { layer := s.entryLayer e, own := s.entryOwner e == s.selfIdx, addr := s.entryBank e,
      len := 3 * s.bankBytes (s.entryDie e) (s.entryLayer e) (s.entryRows e) (s.entryCols e) }

/-! ## Whom a reader asks (R282, R283) -/

/-- A version that comes after another. -/
def after (v u : W32) : Bool := decide (0 < (v - u).toNat ∧ (v - u).toNat < 2 ^ 31)

/-- The newest version u ≤ v that was published: of an owner that is LOST or DEPARTED, what stands for v (R283). -/
def standsFor (s : Device) (e : Nat) (v : W32) : W32 :=
  if s.peerDead (s.entryOwner e) ∧ after v (s.entryVersion e) then s.entryVersion e else v

/-- A verified replica of what stands for a version (R283). -/
def replicaFor (s : Device) (e : Nat) (v : W32) : Option Replica :=
  s.fab.replicas.find? fun r => r.entry == e && s.standsFor e r.version == s.standsFor e v
/-- The weights of a shard as they lie at an address. -/
def shardAt (s : Device) (e a : Nat) : List Byte := s.readBytes .near a (2 * s.entryRows e * s.entryCols e)

/-- Of the ACTIVE contributors that have not said that they hold no replica, the one of lowest index (R283). -/
def standIn (s : Device) (e : Nat) : Option Nat :=
  (((List.range (s.entryN e)).map (s.contributor e)).filter fun p =>
    s.peerState p == 1 && p != s.selfIdx && !s.fab.passed.contains (e, p)).min?

/-- Whom a fetch goes to: the owner, or for an owner that is gone a contributor that stands in for it (R283; log entry 165). -/
def fetchFrom (s : Device) (e : Nat) : Nat :=
  let owner := s.entryOwner e
  if ¬ s.peerDead owner then owner else (s.standIn e).getD owner

/-- The version that a forward fetch of the step asks for, and pins (R282). -/
def forwardVersion (s : Device) : W32 := s.frm.step - 1
/-- A verified replica of that version lies at an address. -/
def replicaAt (s : Device) (e a : Nat) : Bool :=
  s.fab.replicas.any fun r => r.entry == e && r.version == s.forwardVersion && r.addr == a && !s.fab.divergent.contains e

/-- A verified replica written to its place; one that a forward fetch of the step asked for is pinned (R282, R284). -/
def keepReplica (s : Device) (e : Nat) (v : W32) (a : Nat) (data : List Byte) : Device :=
  { s.writeBytes .near a data with fab := { s.fab with
      replicas := { entry := e, version := v, addr := a, pinned := v == s.forwardVersion } ::
        s.fab.replicas.filter fun r => r.entry != e || r.addr != a } }

/-- The replica of its own that a reader serves itself for an owner that is gone: it is a contributor, and none of lower index has it to ask
first (R283). -/
def ownStandIn (s : Device) (e : Nat) : Option Replica :=
  if s.peerDead (s.entryOwner e) ∧ ((List.range (s.entryN e)).any fun k => s.contributor e k == s.selfIdx)
      ∧ (s.standIn e).all (fun p => decide (s.selfIdx < p)) then s.replicaFor e s.forwardVersion else none

/-- What reads a source that is a shard's weight: where a peer owns it, only a verified replica, which is fetched first, and where it migrates
to this device, once it is here (R282, R284, R291). What has to wait has no effect, and the program issues it again (log entry 171). -/
def reading (s : Device) (t : TDesc) (f : Device → Device) : Device := match t.shard with
  | none => f s
  | some e =>
    if s.entryOwner e = s.selfIdx then (if s.fab.migrating.contains e then s else f s)
    else if s.replicaAt e t.addr then f s
    else if s.fab.asked.contains (e, s.forwardVersion) then s
    else match s.ownStandIn e with
    | some r => s.recording fabUnit [(.near, t.addr, (s.shardAt e r.addr).length)] fun s =>
      f (s.keepReplica e s.forwardVersion t.addr (s.shardAt e r.addr))
    | none => (s.onFab fun f => { f with asked := f.asked ++ [(e, s.forwardVersion)] }).send
      (.fetch (s.fetchFrom e) e s.forwardVersion s.fab.epoch true)

/-! ## Checkpoint sinks and retained versions -/

/-- The index that stands for the host among the sinks. -/
def hostSink : Nat := 4096
/-- The enabled checkpoint sinks (R292). -/
def sinks (s : Device) : List Nat :=
  ((List.range 4).filter fun n => s.flag (R.FAB_DS_SINK_EN.nth n)).map fun n =>
    if s.flag (R.FAB_DS_SINK_HOST.nth n) then hostSink else s.fld (R.FAB_DS_SINK_PEER.nth n)

/-- A retained version (R281): in step t, t − 1 and t − 2, and t − 3 until the run or copy run of step t has begun. -/
def goneVersion (s : Device) (e : Nat) (v : W32) : Bool :=
  let newest := s.entryVersion e
  let began := s.fab.begun.any (· == e)
  let back := (newest - v).toNat
  decide (back < 2 ^ 31) && (if began then decide (back ≥ 2) else decide (back ≥ 3))

end Device

end Sys2Proof.Machine
end

