-- ==== Sys2Proof/Machine/Fixed.lean ====
section
/-! DEFINITION. Fixed-point arithmetic of the solver: words with a place value, 128-bit sums that saturate
term by term, narrowing, the forms of the mitts, and products of matrices (spec/02 R47, R48, R61 to R64;
spec/06 R173, R176). A word `v` at place `l` has the value v * 2^l. -/

namespace Sys2Proof.Machine

/-- An integer result with what the sticky overflow flag learns. -/
abbrev Flagged (α : Type) := α × Bool

namespace Fx

/-- num / den rounded to nearest, ties to even. -/
def ratRne (num : Int) (den : Nat) : Int :=
  let q := num / (den : Int)
  let r := (num % (den : Int)).toNat
  if 2 * r > den ∨ (2 * r = den ∧ q % 2 = 1) then q + 1 else q

/-- A value at one place narrowed to a 64-bit word at another (R48). -/
def narrow (v : Int) (src dst : Int) : Flagged Int :=
  let c := convFixed 64 0 .rne (Val.ofInt v (src - dst))
  (signedOf 64 c.code, c.ovf)

/-- Terms added in order into an accumulator of `bits` bits; each partial sum is range-checked (R48). -/
def sumIn (bits : Nat) (init : Int) (ts : List Int) : Flagged Int :=
  ts.foldl (fun (z : Flagged Int) t =>
    let x := z.1 + t
    let y := satSigned bits x
    (y, z.2 || y != x)) (init, false)

/-- The 128-bit accumulator of R48. -/
def sum (init : Int) (ts : List Int) : Flagged Int := sumIn 128 init ts

/-- Bits of a number at place `l` that spans the range of the 128-bit accumulator whose last bit is at place
`acc`: terms with bits below that place are kept exactly, the range stays R48's (log entry 159). -/
def accBits (acc l : Int) : Nat := (128 + (acc - l)).toNat

/-- The smallest g with 2^g * num >= den; num and den positive. -/
def expOfRatio (num den : Nat) : Int :=
  if num ≥ den then -(Nat.log2 (num / den) : Int) else (Nat.log2 ((den - 1) / num) : Int) + 1

/-- The smallest e with 2^e >= (den / num)^(1/p): the exponent of a bound (R173). -/
def expBound (num den p : Nat) : Int := -((-(expOfRatio num den)) / (p : Int))

/-- A 64-bit operand rounded to its 48-bit or 32-bit form, realigned to its place (R61, R64). -/
def form (drop : Nat) (v : Int) : Flagged Int :=
  let c := convFixed (64 - drop) 0 .rne (Val.ofInt v (-(drop : Int)))
  (signedOf (64 - drop) c.code * 2 ^ drop, c.ovf)

/-- Low bits the second operand loses under XPASS (R61, R176). -/
def dropB (xpass : Nat) : Nat := if xpass = 2 then 32 else 16

/-- The 16-bit pieces of a form, lowest first, the top one signed (R62). -/
def pieces (drop : Nat) (v : Int) : List Int :=
  let u := v / 2 ^ drop
  if drop = 16 then [u % 65536, u / 65536 % 65536, u / 65536 ^ 2] else [u % 65536, u / 65536]

/-- The passes of a product in the order of R63. -/
def passes (na nb : Nat) : List (Nat × Nat) :=
  (List.range (na + nb - 1)).flatMap fun t =>
    (List.range na).filterMap fun i => if i ≤ t ∧ t - i < nb then some (i, t - i) else none

/-- A product sum on the mitts: the passes are combined one by one (R103, R104). -/
def mittSum (xpass : Nat) (as bs : List Int) : Flagged Int :=
  let pa := as.map fun v => pieces 16 v
  let pb := bs.map fun v => pieces (dropB xpass) v
  let shift := if xpass = 2 then 48 else 32
  sum 0 ((passes 3 (if xpass = 2 then 2 else 3)).map fun ij =>
    (List.zipWith (fun (a b : List Int) => a.getD ij.1 0 * b.getD ij.2 0) pa pb).sum * 2 ^ (16 * (ij.1 + ij.2) + shift))

/-- A product sum on the lanes or, with `xpass` not 0, on the mitts. -/
def dot (xpass : Nat) (as bs : List Int) : Flagged Int :=
  if xpass = 0 then sum 0 (List.zipWith (· * ·) as bs)
  else
    let fa := as.map (form 16)
    let fb := bs.map (form (dropB xpass))
    let z := mittSum xpass (fa.map (·.1)) (fb.map (·.1))
    (z.1, z.2 || fa.any (·.2) || fb.any (·.2))

/-- Matrices are lists of rows. -/
def at_ (m : List (List Int)) (i j : Nat) : Int := (m.getD i []).getD j 0
def col (m : List (List Int)) (j : Nat) : List Int := m.map fun r => r.getD j 0
def transpose (n : Nat) (m : List (List Int)) : List (List Int) := (List.range n).map (col m)
/-- Every flag of a matrix of flagged words. -/
def unflag (m : List (List (Flagged Int))) : List (List Int) × Bool :=
  (m.map fun r => r.map (·.1), m.any fun r => r.any (·.2))
def unflagV (v : List (Flagged Int)) : List Int × Bool := (v.map (·.1), v.any (·.2))

/-- Columns of a matrix padded to whole tiles (R171). -/
def padded (n : Nat) : Nat := (n + 127) / 128 * 128

/-- Whether a product of n by n matrices of one word family runs on the mitts (R171, R176). -/
def onMitts (xpass n : Nat) : Nat := if xpass ≠ 0 ∧ padded n ≥ 256 then xpass else 0

/-- A symmetric product: the entries of the stored tiles, the others mirrored (R167, R180). -/
def product (xpass : Nat) (x : List (List Int)) (lx : Int) (y : List (List Int)) (ly dst : Int) : List (List Int) × Bool :=
  let n := x.length
  let cols := transpose n y
  let one := (List.range n).map fun i => (List.range n).map fun j =>
    if j / 128 < i / 128 then (0, false)
    else
      let z := dot (onMitts xpass n) (x.getD i []) (cols.getD j [])
      let w := narrow z.1 (lx + ly) dst
      (w.1, z.2 || w.2)
  let (m, f) := unflag one
  ((List.range n).map fun i => (List.range n).map fun j => if j / 128 < i / 128 then at_ m j i else at_ m i j, f)

/-- The product of a transposed triangle with the triangle: only its lower triangle is formed (R179). -/
def lowerProduct (xpass : Nat) (x : List (List Int)) (lx : Int) (y : List (List Int)) (ly dst : Int) : List (List Int) × Bool :=
  let n := x.length
  let cols := transpose n y
  let (m, f) := unflag ((List.range n).map fun i => (List.range (i + 1)).map fun j =>
    let z := dot (onMitts xpass n) (x.getD i []) (cols.getD j [])
    let w := narrow z.1 (lx + ly) dst
    (w.1, z.2 || w.2))
  ((List.range n).map fun i => (List.range n).map fun j => at_ m (max i j) (min i j), f)

/-- A matrix times a vector on the lanes, not narrowed. -/
def apply (m : List (List Int)) (v : List Int) : List Int × Bool := unflagV (m.map fun r => dot 0 r v)
/-- A vector narrowed. -/
def narrowV (src dst : Int) (v : List Int) : List Int × Bool := unflagV (v.map fun x => narrow x src dst)
/-- The same, behind a flagged step. -/
def thenNarrow (src dst : Int) (v : List Int × Bool) : List Int × Bool :=
  let w := narrowV src dst v.1
  (w.1, v.2 || w.2)

def maxAbs (v : List Int) : Nat := v.foldl (fun m x => max m x.natAbs) 0

/-- A difference of two vectors at their own places, summed in the accumulator whose last bit is at place `acc`, and
the place of the result (R48). -/
def diff (acc : Int) (x : List Int) (lx : Int) (y : List Int) (ly : Int) : List Int × Int × Bool :=
  let lo := min lx ly
  let z := unflagV (List.zipWith (fun a b =>
    sumIn (accBits acc lo) (a * 2 ^ (lx - lo).toNat) [-(b * 2 ^ (ly - lo).toNat)]) x y)
  (z.1, lo, z.2)

/-- y + a * v, each element summed in the accumulator of a word at `dst` and narrowed once (R48, R181; log entry 159). -/
def axpy (y : List Int) (ly : Int) (a : Int) (la : Int) (v : List Int) (lv dst : Int) : List Int × Bool :=
  let lo := min ly (la + lv)
  unflagV (List.zipWith (fun p q =>
    let z := sumIn (accBits (dst - 55) lo) (p * 2 ^ (ly - lo).toNat) [a * q * 2 ^ (la + lv - lo).toNat]
    let w := narrow z.1 lo dst
    (w.1, z.2 || w.2)) y v)

/-- A scalar held with its top set bit at bit 62 (R173, R181). -/
def scalar (v : Int) (l : Int) : Int × Int :=
  if v = 0 then (0, 0)
  else
    let sh : Int := (Nat.log2 v.natAbs : Int) - 62
    let r (k : Int) : Int := if k ≥ 0 then ratRne v (2 ^ k.toNat) else v * 2 ^ (-k).toNat
    let w := r sh
    if w.natAbs ≥ 2 ^ 63 then (r (sh + 1), l + sh + 1) else (w, l + sh)

/-- The quotient of two scalars in the same form (R181); the divisor is not zero. -/
def quot (a b : Int × Int) : Int × Int :=
  if a.1 = 0 then (0, 0)
  else
    let neg := (a.1 < 0) != (b.1 < 0)
    let g : Int := (Nat.log2 a.1.natAbs : Int) - Nat.log2 b.1.natAbs
    -- the exponent of |a / b|
    let e := if a.1.natAbs * 2 ^ (-g).toNat < b.1.natAbs * 2 ^ g.toNat then g - 1 else g
    let r (k : Int) : Nat := (ratRne (a.1.natAbs * 2 ^ (-k).toNat : Nat) (b.1.natAbs * 2 ^ k.toNat)).toNat
    let k := e - 62
    let (w, k) := if r k ≥ 2 ^ 63 then (r (k + 1), k + 1) else (r k, k)
    (if neg then -(w : Int) else w, k + a.2 - b.2)

/-- 1 / (piv * 2^lp) as a word at place lr; a zero divisor is invalid (R177). -/
def recip (piv : Int) (lp lr : Int) : Flagged Int :=
  if piv = 0 then (0, true)
  else
    let k := -(lp + lr)
    let c := convFixed 64 0 .rne (.ofInt (
      (if piv < 0 then -1 else 1) * ratRne (2 ^ k.toNat : Nat) (piv.natAbs * 2 ^ (-k).toNat)) 0)
    (signedOf 64 c.code, c.ovf)

/-- The square root of a word at place la, at the same place (R177). -/
def sqrtWord (d : Int) (la : Int) : Int :=
  let x := d.toNat * 2 ^ (-la).toNat
  let r := Val.isqrt x
  if x > r * r + r then r + 1 else r

end Fx

end Sys2Proof.Machine
end

