-- ==== Sys2Proof/Machine/MittCore.lean ====
section
/-! DEFINITION. What a cell computes: operand pairs, k-groups, the slot add, and the checks of an MMA
instruction (spec/03 R68 to R101). -/

namespace Sys2Proof.Machine

/-! ## Pairs and slots -/

/-- FP4, FP6 and FP8 in either form. -/
def Fmt.narrow : Fmt → Bool
  | .e4m3 | .e5m2 | .be4m3 | .be5m2 | .be3m2 | .be2m3 | .be2m1 => true
  | _ => false

/-- The operand pairs of R70. -/
def pairOk (a b : Fmt) : Bool :=
  (a.narrow && b.narrow) || (a == b && (a == .i8 || a == .bf16 || a == .fp16 || a == .i16))

/-- Whether a pair accumulates in an integer slot. -/
def intPair (a : Fmt) : Bool := a == .i8 || a == .i16

/-- The k-group size of a pair (R70). -/
def groupSize (a : Fmt) : Nat := if a.narrow || a == .i8 then 8 else 1

/-- The slot format of a pair under a profile (R78). -/
def slotKind (profN : Bool) (a : Fmt) : SlotKind :=
  if intPair a then (if profN then .i64 else .i32) else (if profN then .w48 else .f32)

def SlotKind.isInt : SlotKind → Bool
  | .i32 | .i64 => true
  | _ => false

/-- The float format of a slot (R78). -/
def SlotKind.fmt : SlotKind → FloatFmt
  | .w48 => .w48
  | _ => .fp32

/-- Bits of an integer slot. -/
def SlotKind.bits : SlotKind → Nat
  | .i32 => 32
  | _ => 64

/-- A slot as it opens: a float at -0, an integer at 0 (R74). -/
def SlotKind.opened (k : SlotKind) : Slot := if k.isInt then { v := 0 } else { v := (k.fmt.withSign true 0 : Nat) }

/-- The value of a slot. -/
def Slot.value (x : Slot) (k : SlotKind) : Val := if k.isInt then .ofInt x.v 0 else k.fmt.decode x.v.toNat

/-- Rows and columns of a shape (R81). -/
def shapeDims (s : BitVec 2) : Nat × Nat :=
  match s.toNat with
  | 0 => (128, 128)
  | 1 => (64, 256)
  | 2 => (256, 64)
  | _ => (32, 512)

/-- The tiles a mitt can have in progress (R82). -/
def tileLimit (shape : BitVec 2) : SlotKind → Nat
  | .f32 | .i32 => if shape = 0 then 4 else if shape = 3 then 2 else 3
  | .w48 => if shape = 3 then 1 else 2
  | .i64 => if shape = 0 then 2 else 1

/-! ## The slot add -/

/-- The draw register after a slot add: the 16 bits of a stochastic add, or what it held (R101). -/
def drawn (r : Rnd) (old : W16) : W16 :=
  match r with
  | .sr 16 u => BitVec.ofNat 16 u
  | _ => old

/-- A value added into a slot: one rounding for a float, saturation for an integer, with the sticky bits
(R75 to R77) and the draw register (R101). -/
def slotAdd (k : SlotKind) (r : Rnd) (x : Slot) (v : Val) : Slot :=
  if k.isInt then
    let sum := x.v + v.units 0
    let sat := satSigned k.bits sum
    { x with v := sat, ovf := x.ovf || sat != sum }
  else
    let old := k.fmt.decode x.v.toNat
    let new := old.add v
    { x with v := (k.fmt.ieee r new : Nat), inv := x.inv || (new.isNan && !old.isNan), draw := drawn r x.draw }

/-- One partial combined into another (R95): floats with RNE, integers saturating. -/
def slotCombine (k : SlotKind) (x y : Slot) : Slot := slotAdd k .rne x (y.value k)

/-- A slot with the exact sum of the k-group that is still open. -/
structure Cell where
  slot : Slot
  group : Option Val := none

/-- One product: it joins the open k-group, and the last of a group of `g` enters the slot (R71). `pos` is
the inner-dimension position in the undivided tile and `rnd` the rounding of each add. -/
def Cell.take (k : SlotKind) (g : Nat) (rnd : Nat → Rnd) (pos : Nat) (x : Cell) (p : Val) : Cell :=
  let sum := match x.group with
    | none => p
    | some q => q.add p
  if (pos + 1) % g = 0 then { slot := slotAdd k (rnd (pos / g)) x.slot sum } else { x with group := some sum }

/-- Products in ascending inner index from position `pos` (R71). -/
def Cell.run (k : SlotKind) (g : Nat) (rnd : Nat → Rnd) : Nat → Cell → List Val → Cell
  | _, x, [] => x
  | pos, x, p :: ps => Cell.run k g rnd (pos + 1) (x.take k g rnd pos p) ps

/-- The group that the tile's end leaves partial enters the slot (R73). -/
def Cell.flush (k : SlotKind) (g : Nat) (rnd : Nat → Rnd) (pos : Nat) (x : Cell) : Slot :=
  match x.group with
  | none => x.slot
  | some q => slotAdd k (rnd (pos / g)) x.slot q

/-! ## Tiles -/

namespace Tile

/-- The rounding of slot adds: RNE, or stochastic with the draw of the group or element (R75, R100, R101). -/
def rounding (key : DrawKey) (o : TDesc) (sr : Bool) (r c : Nat) (n : Nat) : Rnd :=
  if sr then .sr 16 (key.draw o.layer.toNat (TDescOps.idx o r c) n / 65536) else .rne

/-- The slot of element (r, c). -/
def at_ (t : Tile) (r c : Nat) : Slot := t.slots.getD (r * t.cols + c) {}

/-- The open group of each slot. -/
def openAt (t : Tile) (i : Nat) : Option Val := t.open_[i]?

/-- The operands of an instruction added into every slot of a tile; a k-group that two instructions share is rounded by the SR of the
one that brings its last product, or of the last one where the tile ends in it (R84, log entry 143). `as` holds the rows of A and `bs` the
columns of B over the instruction's inner range. -/
def consume (t : Tile) (key : DrawKey) (g : Nat) (sr : Bool) (as bs : List (List Val)) (n : Nat) : Tile :=
  let pos := t.base + t.consumed
  let cells := (List.range t.rows).flatMap fun r => (List.range t.cols).map fun c =>
    let ps := List.zipWith Val.mul (as.getD r []) (bs.getD c [])
    let i := r * t.cols + c
    Cell.run t.kind g (rounding key t.o sr r c) pos { slot := t.slots.getD i {}, group := t.openAt i } ps
  let left := (pos + n) % g ≠ 0
  { t with
    slots := cells.map fun x => x.slot,
    open_ := if left then cells.map fun x => x.group.getD Val.zero else [],
    consumed := t.consumed + n, srLast := sr, srUsed := t.srUsed || sr }

/-- The slots with the last partial group entered (R73). -/
def finished (t : Tile) (key : DrawKey) : Tile :=
  if t.open_ = [] then t
  else
    let g := groupSize t.af
    { t with
      open_ := [],
      slots := (List.range t.rows).flatMap fun r => (List.range t.cols).map fun c =>
        let i := r * t.cols + c
        Cell.flush t.kind g (rounding key t.o t.srLast r c) (t.base + t.consumed)
          { slot := t.slots.getD i {}, group := t.openAt i } }

/-- The sticky bits cleared, so that an operation shows which ones it sets. -/
def unstuck (t : Tile) : Tile := { t with slots := t.slots.map fun x => { x with ovf := false, inv := false } }

/-- A tile with the sticky bits of another set beside its own: a combine joins the sender's to the receiver's (log entry 144). -/
def sharing (a b : Tile) : Tile :=
  { a with slots := List.zipWith (fun (x y : Slot) => { x with ovf := x.ovf || y.ovf, inv := x.inv || y.inv }) a.slots b.slots }

/-- The sticky bits of an earlier state kept (R69). In profile T no cell holds them; what is kept says which slots the
Visor does not count (R223). -/
def stuck (old new : Tile) : Tile :=
  { new with slots := List.zipWith (fun (a b : Slot) =>
      { b with ovf := a.ovf || b.ovf, inv := if new.kind = .w48 ∨ new.kind = .i64 then a.inv || b.inv else false }) old.slots new.slots }

end Tile

/-! ## Long splits (R94) -/

/-- Elements of each part of an inner dimension of `total` elements in `parts` parts. -/
def partLen (total parts : Nat) : Nat := 8 * ((total + 8 * parts - 1) / (8 * parts))
/-- The first inner element of part `p`, and how many it has. -/
def partRange (total parts p : Nat) : Nat × Nat :=
  if parts = 1 then (0, total)
  else (p * partLen total parts, min ((p + 1) * partLen total parts) total - p * partLen total parts)
/-- A split whose mitts exist on the die and whose last part is not empty. -/
def splitFits (total parts lm : Nat) : Bool := decide (lm + parts ≤ 64) && decide (total > (parts - 1) * partLen total parts)

/-! ## Operand reads -/

/-- Whether an operand may be read transposed (R86). -/
def transposable (f : Fmt) : Bool := f == .bf16 || f == .fp16 || f == .e4m3 || f == .e5m2 || f == .i8 || f == .i16

namespace Device

/-- `n` inner elements from `k0` of row (or column) `i` of an operand: direct operands hold the inner
dimension innermost, transposed ones hold it outermost (R86, R89). -/
def operand (s : Device) (t : TDesc) (f : Fmt) (transposed : Bool) (i k0 n : Nat) : List Val :=
  (List.range n).map fun k => if transposed then s.elem t f (k0 + k) i else s.elem t f i (k0 + k)

/-- The 128 x 128 blocks in which a transposed operand of `outer` rows (columns) enters, along the inner dimension (R87, R88): first
outer and inner element of each. -/
def blockList (outer n : Nat) : List (Nat × Nat) :=
  (List.range ((n + 127) / 128)).flatMap fun k => (List.range ((outer + 127) / 128)).map fun o => (128 * o, 128 * k)
/-- The codes of a block, inner element by inner element as it is written. -/
def blockCodes (s : Device) (t : TDesc) (f : Fmt) (outer k0 n : Nat) (b : Nat × Nat) : List Nat :=
  (List.range (min 128 (n - b.2))).flatMap fun k => (List.range (min 128 (outer - b.1))).map fun o =>
    s.elemCode t f (k0 + b.2 + k) (b.1 + o)
/-- The newest of some blocks that have room in `bits` bits of each cell (R69, R88): the staging word and the two transposer buffers
have 32, which is two 16-bit elements, four of 8 bits, or one of 16 and two of 8. -/
def newestIn (bits : Nat) : List (Nat × List Nat) → List (Nat × List Nat)
  | [] => []
  | b :: older => if b.1 ≤ bits then b :: newestIn (bits - b.1) older else []
/-- The blocks held after a transposed operand has passed; of its own no more than four can stay. -/
def holdBlocks (s : Device) (t : TDesc) (f : Fmt) (outer k0 n : Nat) (old : List (Nat × List Nat)) : List (Nat × List Nat) :=
  let bs := blockList outer n
  let new := (bs.drop (bs.length - 4)).map fun b => (f.bits, s.blockCodes t f outer k0 n b)
  (newestIn 32 (old ++ new).reverse).reverse
/-- The block scales of an operand at its inner element `k`: one for each of its rows (columns) of elements (R69). -/
def scalesAt (s : Device) (t : TDesc) (outer k : Nat) : List Nat :=
  (List.range outer).map fun i => packedCode (s.memory t.space) (TDescOps.scaleAt t i k) 8 0

def mitt (s : Device) (d : Die) (m : Nat) : Mitt := Sparse.get {} m (s.die d).mitts
def setMitt (s : Device) (d : Die) (m : Nat) (x : Mitt) : Device :=
  s.onDie d fun v => { v with mitts := Sparse.put {} m x v.mitts }
def onMitt (s : Device) (d : Die) (m : Nat) (f : Mitt → Mitt) : Device := s.setMitt d m (f (s.mitt d m))

/-- The unit code of a die's mitts (R377). -/
def mittUnit (d : Die) : W16 := unitCode 0x01 d.val

/-- A refused mitt instruction: ILL_INSTR and an entry with the instruction address (R107). -/
def refuseMitt (s : Device) (d : Die) (iaddr : W64) : Device :=
  (s.event (R.MITT_STAT_ILL_INSTR.die d)).postIllegal (mittUnit d) iaddr

/-- The event of R106 when INT_OVF or FLT_INV first sets after a clear. -/
def mittEvent (s : Device) (d : Die) (f : Fld) : Device :=
  let first := !s.flag (f.die d)
  let s := s.event (f.die d)
  if first ∧ s.flag (R.MITT_CTL_OVF_EVENT.die d) then s.post 0x0202 1 (mittUnit d) 0 else s

/-- The overflow map bit of a mitt (R76, R106). -/
def setOvfMap (s : Device) (d : Die) (m : Nat) : Device :=
  let f := if m < 32 then R.MITT_OVF_MAP_LO_OVF.die d else R.MITT_OVF_MAP_HI_OVF.die d
  s.setFld f (s.fld f ||| 2 ^ (m % 32))

/-- What a mitt reports of saturations and NaNs in a tile whose sticky bits show one operation: profile T
sets FLT_INV, both profiles the integer overflow (R76, R77). -/
def reportTile (s : Device) (d : Die) (m : Nat) (t : Tile) : Device :=
  let s := if t.kind.isInt && t.slots.any (·.ovf) then (s.mittEvent d R.MITT_STAT_INT_OVF).setOvfMap d m else s
  if t.kind == .f32 && t.slots.any (·.inv) then s.mittEvent d R.MITT_STAT_FLT_INV else s

end Device

end Sys2Proof.Machine
end

