-- ==== Sys2Proof/Machine/Commit.lean ====
section
/-! DEFINITION. Writing configuration: the legal values of the writable fields, shadows, posting a commit and
applying it unit by unit (spec/12 R339 to R345, R350 to R352). -/

namespace Sys2Proof.Machine

/-- What a block does with the value of one field (R343, R345): takes it, takes the value that stands in for it,
or keeps the old one and raises a configuration fault. -/
inductive Ruling where
  | take | standIn (x : Nat) | refuse
  deriving DecidableEq, Repr

def refuseIf (p : Bool) : Ruling := if p then .refuse else .take

/-- The offset of a die's register in the window of die 0. -/
def dieOffset (off : Nat) : Nat := if 0x1000000 ≤ off ∧ off < 0x5000000 then 0x1000000 + off % dieStep else off
/-- The die whose window an offset lies in. -/
def dieAt (off : Nat) : Die := Fin.ofNat 4 (off / dieStep - 1)

namespace Device

/-! ## Legal values -/

def ringEn (s : Device) (r : Fin 4) : Bool := s.flag (R.CMD_RCTL_EN.nth r.val)
/-- CMD_RSTATr.STOPPED (R305, R333). -/
def ringStopped (s : Device) (r : Fin 4) : Bool :=
  let q := s.cmd.rings.get r
  !s.ringEn r && !q.fetching && q.outstanding == [] && q.replies == []
/-- The ring layout fields are locked (R305). -/
def ringLocked (s : Device) (r : Fin 4) : Bool := s.ringEn r || !s.ringStopped r
/-- A region of a die's Hatbox holds an open segment (R138). -/
def regionOpen (s : Device) (d : Die) (k : Nat) : Bool := (Sparse.get {} k (s.die d).hbx).segs.any fun g => g.recs != []

/-- PWR limits (R404): the range, and with an invalid calibration set nothing above the safe limit (R395). -/
def limitRuling (s : Device) (x lo hi safe : Nat) : Ruling :=
  refuseIf (decide (x < lo) || decide (x > hi) || (s.calUse.invalid && decide (x > safe)))

/-- Fields of the ring pairs (R305, R333). -/
def ringRuling (s : Device) (off lo x old : Nat) : Ruling :=
  let r : Fin 4 := Fin.ofNat 4 ((off - 0x100000) / 0x40)
  let place := (off - 0x100000) % 0x40
  let moved := s.ringLocked r && x != old
  if place = 0 ∨ place = 8 then refuseIf (moved || x % 4096 != 0)
  else if place = 4 ∨ place = 12 then refuseIf moved
  else if place = 0x10 ∧ lo = 1 then refuseIf (moved || decide (x > 8))
  else if place = 0x10 ∧ lo = 5 then refuseIf (moved || decide (x > 10))
  else .take

/-- What happens to value `x` for the field at bit `lo` of a register whose field holds `old`: the ranges of
R20, R21, R138, R162, R222, R232, R264, R298, R333 and R404. -/
def ruling (s : Device) (off lo x old : Nat) : Ruling :=
  let o := dieOffset off
  if o = R.FRM_CTL then
    if lo = 26 then refuseIf (x == 3)
    else if lo = 0 then
      if x < 1000 then .standIn 1000 else if x > 60000000 then .standIn 60000000 else .take
    else .take
  else if o = R.CUFF_CTL ∧ lo = 16 then refuseIf (decide (x < 8) || decide (x > 4096) || x % 8 != 0)
  else if o = R.VIS_CTL then
    if lo = 2 ∨ lo = 4 ∨ lo = 6 then refuseIf (x == 3)
    else if lo = 16 then refuseIf (decide (x > 20))
    else if lo = 24 then refuseIf (x == 0 || decide (x > 60))
    else .take
  else if R.HBX_BASE ≤ o ∧ o < R.HBX_SPILL_BASE then
    refuseIf (decide ((o - R.HBX_BASE) % 32 < 12) && x != old && s.regionOpen (dieAt off) ((o - R.HBX_BASE) / 32))
  else if o = R.FAB_CTL then
    if lo = 16 then refuseIf (decide (x > 99))
    else if lo = 24 then refuseIf (x == 0 || decide (x > 4))
    else .take
  else if o = R.FAB_LOSS then refuseIf (decide (x < 20) || decide (x > 10000))
  else if o = R.FAB_VC_WEIGHT then refuseIf (x == 0)
  else if o = R.MEM_SCRUB_CTL ∧ lo = 0 then refuseIf (x == 0)
  else if o = R.PWR_PL_SUST then s.limitRuling x 200 (min 1200 (s.fld R.PWR_PL_PEAK_VALUE)) 1000
  else if o = R.PWR_PL_PEAK then s.limitRuling x (s.fld R.PWR_PL_SUST_VALUE) 1450 1200
  else if o = R.PWR_PL_TIME then s.limitRuling x 1 10 10
  else if o = R.PWR_TJ_TARGET then s.limitRuling x 60 105 95
  else if o = R.PWR_STK_TARGET then s.limitRuling x 60 95 85
  else if 0x100000 ≤ o ∧ o < 0x100100 then s.ringRuling o lo x old
  else .take


/-- One field takes its value in the copy in force; `cause` is that of a refusal (R351). -/
def takeField (s : Device) (off : Nat) (f : FieldDef) (x cause : Nat) : Device :=
  let z : Fld := ⟨off, f.lo, f.hi + 1 - f.lo, 0⟩
  match s.ruling off f.lo x (s.fld z) with
  | .take => s.setFld z x
  | .standIn y => (s.setFld z y).event R.FRM_STAT_CLAMP
  | .refuse => s.configFault off cause

/-! ## Writes (R339, R345, R352) -/

/-- A write that changes an RSV field: in test mode the field takes it, in every other mode it is recorded. -/
def writeReserved (s : Device) (svc off : Nat) (v : W32) : Device :=
  let m := maskOf (fun a => a == .rsv) (fieldsAt off)
  let c := s.regs.liveAt off
  if v.toNat &&& m = c.val.toNat &&& m then s
  else if svc = 2 then
    { s with regs := s.regs.setLive off { c with val := BitVec.ofNat 32 ((c.val.toNat - (c.val.toNat &&& m)) + (v.toNat &&& m)) } }
  else
    let s := s.event R.GLB_STAT_RSV_WR
    (s.setFld R.GLB_UNMAPPED_OFFSET off).setFld R.GLB_UNMAPPED_CAUSE 0

/-- A 32-bit write of a register of RW and RWI fields: the shadow takes the RW fields, each RWI field is checked
and takes effect on its own. -/
def writeFields (s : Device) (svc off : Nat) (v : W32) : Device :=
  let fs := fieldsAt off
  let s := s.writeReserved svc off v
  let rw := maskOf (fun a => a == .rw) fs
  let s := if rw = 0 then s else
    let c := s.regs.shadowAt off
    { s with regs := s.regs.setShadow off (goodCopy fs (BitVec.ofNat 32 ((c.val.toNat - (c.val.toNat &&& rw)) + (v.toNat &&& rw)))) }
  fs.foldl (fun s f => if f.acc = .rwi then s.takeField off f (bitsOf v.toNat f.hi f.lo) 2 else s) s

/-! ## Commits (R339 to R344, R350) -/

/-- The offsets of a table row, on a die for a row of a die's window. -/
def regOffsets (r : RegDef) (d : Die) : List Nat :=
  (List.range r.count).map fun k => r.off + k * r.stride + (if r.perDie then d.val * dieStep else 0)

/-- The block of a commit group (R340). -/
def groupBlock : Nat → Block
  | 0 => .glb | 1 => .frm | 2 => .mitt | 3 => .cuff | 4 => .gnt | 5 => .palm
  | 6 => .vec | 7 => .hbx | 8 => .vis | 9 => .mem | _ => .fab
/-- Whether a group is committed die by die (R340). -/
def perDie (g : Nat) : Bool := decide (2 ≤ g) && decide (g ≤ 8)

/-- The registers of a group that hold RW fields, on a die. -/
def groupRegs (g : Nat) (d : Die) : List Nat :=
  ((blockRegs (groupBlock g)).filter fun r => r.fields.any fun f => f.acc == .rw).flatMap fun r => regOffsets r d

/-- The units of a group on a die: the 64 logical mitts; the MEM block's registers (0) and its far map (1), whose
safe points differ (R340); else one. -/
def groupUnits (g : Nat) (d : Die) : List (Die × Nat) :=
  if g = 2 then (List.range 64).map fun m => (d, m) else if g = 9 then [(0, 0), (0, 1)] else [(if perDie g then d else 0, 0)]

/-- The registers a unit applies. -/
def unitRegs (g : Nat) (d : Die) (u : Nat) : List Nat :=
  if g = 9 then (if u = 1 then [R.MEM_FAR_CTL] else (groupRegs 9 0).filter fun o => o != R.MEM_FAR_CTL) else groupRegs g d

def commit? (s : Device) (g : Nat) : Option PendCommit := s.regs.commits.find? fun c => c.group == g
/-- Whether a unit has a commit to apply. -/
def unitPends (s : Device) (g : Nat) (d : Die) (u : Nat) : Bool := match s.commit? g with
  | none => false
  | some c => c.units.contains (d, u)

/-- A mismatch found in a shadow or a pending copy (R350): recorded, with cause 3. -/
def copyFault (s : Device) (off : Nat) : Device := (s.event R.GLB_STAT_PARITY).configFault off 3

/-- A unit is done with its commit; with the last unit the PEND bit clears and DONE_TAG takes the tag (R341, R344). -/
def unitApplied (s : Device) (g : Nat) (d : Die) (u : Nat) : Device := match s.commit? g with
  | none => s
  | some c =>
    let us := c.units.filter fun x => x != (d, u)
    let others := s.regs.commits.filter fun x => x.group != g
    if us = [] then ({ s with regs := { s.regs with commits := others } }).setFld R.GLB_COMMIT_STAT_DONE_TAG c.tag.toNat
    else { s with regs := { s.regs with commits := others ++ [{ c with units := us }] } }

/-- A register's pending values come into force, field by field (R343). -/
def applyReg (s : Device) (off : Nat) : Device :=
  let p := s.regs.pendAt off
  if p.ok off then
    (fieldsAt off).foldl (fun s f => if f.acc = .rw then s.takeField off f (bitsOf p.val.toNat f.hi f.lo) 1 else s) s
  else s.copyFault off

/-! ### Mitts (R79, R93) -/

def profileOff (d : Die) (m : Nat) : Nat := (if m < 32 then R.MITT_PROFILE_LO else R.MITT_PROFILE_HI) + d.val * dieStep
def mittCtl (d : Die) : Nat := R.MITT_CTL + d.val * dieStep

/-- The profile the pending commit gives a mitt; a copy with a parity mismatch leaves it as it is. -/
def profileWanted (s : Device) (d : Die) (m : Nat) : Bool :=
  let p := s.regs.pendAt (profileOff d m)
  if p.ok (profileOff d m) then p.val.getLsbD (m % 32) else (s.mitt d m).profN

/-- SR_EN as the next tile that opens on a mitt has it: opening a tile is a tile boundary (R93). -/
def srWanted (s : Device) (d : Die) (m : Nat) : Bool :=
  let p := s.regs.pendAt (mittCtl d)
  if s.unitPends 2 d m && p.ok (mittCtl d) then p.val.getLsbD 0 else (s.mitt d m).srEn

/-- A mitt applies SR_EN; once every mitt of the die has the value, the mirror shows it (R93, R336). -/
def srApply (s : Device) (d : Die) (m : Nat) : Device :=
  let p := s.regs.pendAt (mittCtl d)
  if ¬ p.ok (mittCtl d) then s
  else
    let v := p.val.getLsbD 0
    let s := s.onMitt d m fun x => { x with srEn := v }
    if (List.range 64).all fun k => (s.mitt d k).srEn == v then s.setFld (R.MITT_CTL_SR_EN.die d) (b2n v) else s

/-- A mitt is done with its commit. -/
def mittApplied (s : Device) (d : Die) (m : Nat) : Device := (s.srApply d m).unitApplied 2 d m

/-- From a commit on a mitt whose profile bit it changes takes no new tile, and one whose bit it changes back goes on (R79, R342). -/
def noteSwitch (s : Device) (d : Die) (m : Nat) : Device :=
  s.onMitt d m fun x => { x with switching := s.profileWanted d m != x.profN }

/-- A mitt at a tile boundary (R93): SR_EN applies; with its profile bit changed the mitt goes on to switch, else it is done. -/
def mittApply (s : Device) (d : Die) (m : Nat) : Device :=
  let s := if (s.regs.pendAt (profileOff d m)).ok (profileOff d m) then s else s.copyFault (profileOff d m)
  let s := if (s.regs.pendAt (mittCtl d)).ok (mittCtl d) then s else s.copyFault (mittCtl d)
  let s := s.noteSwitch d m
  if (s.mitt d m).switching then s.srApply d m else s.mittApplied d m

/-- A unit with a pending commit applies it. -/
def applyUnit (s : Device) (g : Nat) (d : Die) (u : Nat) : Device :=
  if s.unitPends g d u then
    if g = 2 then s.mittApply d u
    else ((unitRegs g d u).foldl applyReg s).unitApplied g d u
  else s

/-- No tap batch is filling on the die. -/
def noBatch (c : Cuff) : Bool := c.h0.state != .filling && c.h1.state != .filling

/-- A solver complex with no solve in any stage, a Visor with no patch, a memory system and a fabric with no job, nothing moving and no
port up, a frame block whose timer does not run (R341; log entry 41). -/
def gntIdle (g : Gnt) : Bool := g.queue == [] && g.brim.isNone && g.run.isNone && g.susp == [] && g.passed == []
def visorIdle (x : DieState) : Bool := x.checks == [] && x.mitts.all fun m => m.2.tiles.all fun t => t.capture.isNone
def memIdle (s : Device) : Bool := s.cmd.job.isNone && s.cmd.transfers == [] && !s.flag R.MEM_STAT_WIPING
def fabIdle (s : Device) : Bool := s.cmd.job.isNone && s.fab.ports.all fun p => !p.2.up

/-- A unit that is idle, or between two instructions, and so at its safe point now (R341). The vector engines and
the Hatbox are at an instruction boundary between any two commands (log entry 41). GLB_DET and MEM_FAR_CTL wait for a job start. -/
def atSafePoint (s : Device) (g : Nat) (d : Die) (u : Nat) : Bool :=
  match g with
  | 1 => !s.frm.started
  | 2 => (s.mitt d u).tiles == []
  | 3 => noBatch (s.die d).cuff
  | 4 => gntIdle (s.die d).gnt
  | 5 => (s.die d).palm.run.isNone
  | 6 | 7 => true
  | 8 => visorIdle (s.die d)
  | 9 => u == 0 && s.memIdle
  | 10 => s.fabIdle
  | _ => false

/-- The shadow of a register is copied into its pending copy; one with a mismatch is left out (R350). -/
def snapshot (s : Device) (off : Nat) : Device :=
  let c := s.regs.shadowAt off
  if c.ok off then { s with regs := s.regs.setPend off c } else s.copyFault off

/-- A commit of a group on some dies, with its tag, replaces an earlier one that is pending (R342); the units at
their safe point apply it at once. -/
def postCommit (s : Device) (g : Nat) (ds : List Die) (tag : Byte) : Device :=
  let ds := if perDie g then ds else [0]
  let s := (ds.flatMap fun d => groupRegs g d).foldl snapshot s
  let new := ds.flatMap fun d => groupUnits g d
  let old := match s.commit? g with
    | none => []
    | some c => c.units.filter fun x => !new.contains x
  let others := s.regs.commits.filter fun (x : PendCommit) => x.group != g
  let c : PendCommit := { group := g, tag, units := new ++ old }
  let s := { s with regs := { s.regs with commits := others ++ [c] } }
  let s := s.setFld R.GLB_COMMIT_STAT_POSTED_TAG tag.toNat
  let s := if g = 2 then new.foldl (fun s x => s.noteSwitch x.1 x.2) s else s
  new.foldl (fun s x => if s.atSafePoint g x.1 x.2 then s.applyUnit g x.1 x.2 else s) s

/-- The dies GLB_COMMIT.DIES names: 0 names all four (R355). -/
def diesNamed (v : Nat) : List Die := if v % 16 = 0 then [0, 1, 2, 3] else [0, 1, 2, 3].filter fun (d : Die) => v.testBit d.val

/-- A write of GLB_COMMIT (R339, R340, R351). -/
def commitWrite (s : Device) (v : W32) : Device :=
  let g := bitsOf v.toNat 3 0
  if g > 10 then s.configFault R.GLB_COMMIT 5
  else s.postCommit g (diesNamed (bitsOf v.toNat 7 4)) (BitVec.ofNat 8 (bitsOf v.toNat 15 8))

/-- Whether a unit's own safe point has come, for the groups a die's work governs (R340): a mitt's tile boundary is
what the command reports; the frame-boundary groups and GLB apply at a tick and at job start only. -/
def applyDue (s : Device) (g : Nat) (d : Die) (u : Nat) : Bool :=
  (g == 2 && s.unitPends 2 d u) || ((g == 3 || g == 5) && s.atSafePoint g d 0)

end Device

end Sys2Proof.Machine
end

