-- ==== Sys2Proof/Machine/Cuff.lean ====
section
/-! DEFINITION. The Cuff: sampling, quantising and storing rows, tap batches and tap tiles, and what tap
rows add to a live buffer (spec/05 R139 to R156, R161, R162). -/

namespace Sys2Proof.Machine

/-! ## Storage of a factor (R140, R141, R153) -/

namespace TapDesc

/-- Tile-rows of block `b` (R140). -/
def blockRows (t : TapDesc) (b : Nat) : Nat :=
  let fb := 2 ^ t.fbLog
  (min ((b + 1) * fb) t.dim - b * fb) / 128

def blocks (t : TapDesc) : Nat := (t.dim + 2 ^ t.fbLog - 1) / 2 ^ t.fbLog
/-- Stored tiles of a block of n tile-rows (R141). -/
def tri (n : Nat) : Nat := n * (n + 1) / 2
/-- Tiles stored before block `b`. -/
def tilesBefore (t : TapDesc) : Nat → Nat
  | 0 => 0
  | b + 1 => t.tilesBefore b + tri (t.blockRows b)
def tiles (t : TapDesc) : Nat := t.tilesBefore t.blocks
/-- Bytes of one array, S (R153). -/
def size (t : TapDesc) : Nat := 0x20000 * t.tiles
/-- The number of tile (a, c) in a block of n tile-rows (R153). -/
def tileNo (n a c : Nat) : Nat := a * n - a * (a - 1) / 2 + (c - a)
/-- The stored tiles in ascending block order and storage order: first features and byte offset (R147). -/
def tileList (t : TapDesc) : List (Nat × Nat × Nat) :=
  (List.range t.blocks).flatMap fun b =>
    let n := t.blockRows b
    (List.range n).flatMap fun a => ((List.range n).filter (a ≤ ·)).map fun c =>
      (b * 2 ^ t.fbLog + 128 * a, b * 2 ^ t.fbLog + 128 * c, 0x20000 * (t.tilesBefore b + tileNo n a c))
/-- The factor A and the live buffers (R153). -/
def aBase (t : TapDesc) : Nat := t.base + 0x1000
def liveBase (t : TapDesc) (buf : Nat) : Nat := t.base + 0x1000 + t.size * (1 + buf)
/-- Bytes of a quantised element. -/
def width (t : TapDesc) : Nat := if t.i16 then 2 else 1
/-- The key of a side. -/
def key (t : TapDesc) : Nat := t.layer * 2 + b2n t.side
/-- A descriptor inside the ranges of R161. -/
def inRange (kByte fb decay dim : Nat) : Bool :=
  decide (kByte < 64) && decide (7 ≤ fb ∧ fb ≤ 14) && decide (decay ≤ 24)
    && decide (128 ≤ dim ∧ dim ≤ 4194304 ∧ dim % 128 = 0)

end TapDesc

/-- The live buffer of a step (R152). -/
def bufOf (step : W32) : Nat := step.toNat % 2

namespace Device

def cuff (s : Device) (d : Die) : Cuff := (s.die d).cuff
def onCuff (s : Device) (d : Die) (f : Cuff → Cuff) : Device := s.onDie d fun x => { x with cuff := f x.cuff }
def cuffUnit (d : Die) : W16 := unitCode 0x02 d.val

/-- A Cuff status event, posted when it first sets after a clear (R162). The warnings of R145, R148 and R161 are these events too: they take
the same gate (DESIGN CHOICE, log entry 172). -/
def cuffEvent (s : Device) (d : Die) (f : Fld) : Device :=
  let first := !s.flag (f.die d)
  let s := s.event (f.die d)
  if first ∧ s.flag (R.CUFF_CTL_EVENT.die d) then s.post 0x0203 1 (cuffUnit d) 0 else s

/-! ## Capacity and rows -/

def halfBytes (s : Device) (d : Die) : Nat := s.fld (R.CUFF_STORE_SIZE_UNITS.die d) * 4096 / 2
def halfBase (s : Device) (d : Die) (h : Bool) : Nat :=
  s.fld (R.CUFF_STORE_BASE_UNITS.die d) * 4096 + b2n h * s.halfBytes d
/-- Rows a half holds of a side (R145). -/
def capacity (s : Device) (d : Die) (t : TapDesc) : Nat :=
  min (s.fld (R.CUFF_CTL_BATCH.die d)) (8 * (s.halfBytes d / (8 * t.dim * t.width)))

/-- Whether the row with logical token index `t` is sampled (R142). -/
def sampled (s : Device) (x : TapDesc) (t : Nat) : Bool :=
  (t + s.drawKey.draw x.layer (b2n x.side) 0x110000 % x.k) % x.k == 0

/-- One element in the tap format (R144). -/
def quantise (x : TapDesc) (v : Val) : Conv := convFixed (8 * x.width) 0 .rne (v.scale (-x.e))

/-! ## Batches -/

def half (c : Cuff) (h : Bool) : Half := if h then c.h1 else c.h0
def setHalf (c : Cuff) (h : Bool) (x : Half) : Cuff := if h then { c with h1 := x } else { c with h0 := x }
/-- The half that fills, and a free half. -/
def filling (c : Cuff) : Option Bool :=
  if c.h0.state = .filling then some false else if c.h1.state = .filling then some true else none
def freeHalf (c : Cuff) : Option Bool :=
  if c.h0.state = .free then some false else if c.h1.state = .free then some true else none

/-- The next tile of a mitt has profile N, as the tiles of an INT16 batch need it: a mitt that is to switch takes none of them
(R79, R148; log entry 150). -/
def mittN (s : Device) (d : Die) (m : Nat) : Bool := (s.mitt d m).profN != (s.mitt d m).switching

/-- A batch closes (R146): its tap tiles are dealt round-robin to the mitts that captured it, an INT16
batch only to those in profile N; with none of these it is discarded (R148). -/
def closeBatch (s : Device) (d : Die) (h : Bool) : Device :=
  let x := half (s.cuff d) h
  let ms := (sortBy (· ≤ ·) x.mitts.eraseDups).filter fun m => !x.desc.i16 || s.mittN d m
  if x.rows = 0 then s.onCuff d fun c => setHalf c h {}
  else if ms = [] then (s.onCuff d fun c => setHalf c h {}).cuffEvent d R.CUFF_STAT_PROFILE_ERR
  else
    let ts := x.desc.tileList.map fun z =>
      ({ desc := x.desc, half := h, rows := x.rows, step := x.step, fa := z.1, fc := z.2.1, off := z.2.2 } : TapTile)
    let s := s.onCuff d fun c => setHalf c h { x with state := .issuing, left := ts.length }
    ts.zipIdx.foldl (fun s t => s.onMitt d (ms.getD (t.2 % ms.length) 0) fun m => { m with taps := m.taps ++ [t.1] }) s

/-- A half opens for a batch, with the row store as it is in force: zeroed (R146, R162). -/
def openBatch (s : Device) (d : Die) (h : Bool) (t : TapDesc) : Device :=
  let n := s.halfBytes d
  let a := s.halfBase d h
  let s := s.onDie d fun x => { x with tile := x.tile.clear a n }
  s.onCuff d fun c => setHalf c h { state := .filling, base := a, bytes := n, desc := t, cap := s.capacity d t, step := s.frm.step }

/-- A row written feature-major into the filling half, token innermost (R145), features as many rows apart as the batch has room for
(DESIGN CHOICE, log entry 191); a half that it fills, or whose batch ends with it,
closes (R146). -/
def storeRow (s : Device) (d : Die) (h : Bool) (r : HeldRow) : Device :=
  let x := half (s.cuff d) h
  let m := r.codes.zipIdx.foldl (fun (m : Memory) q => m.writeLE (x.base + (q.2 * x.cap + x.rows) * x.desc.width) x.desc.width q.1) (s.die d).tile
  let s := s.setMemory (.tile d) m
  let s := s.onCuff d fun c => setHalf c h { x with rows := x.rows + 1, mitts := x.mitts ++ [r.lm] }
  let s := s.count (R.CUFF_ROWS_COUNT.die d) 1
  if x.rows + 1 = x.cap ∨ r.last then s.closeBatch d h else s

/-- A side whose capacity is 0 takes no taps for the rest of the step (R145). -/
def stopTaps (s : Device) (d : Die) (key : Nat) : Device :=
  (s.onCuff d fun c => { c with tapsOff := key :: c.tapsOff }).cuffEvent d R.CUFF_STAT_DESC_ERR

/-- A captured row finds its half: the one that fills its side, or a new one, for which a pending commit of the Cuff takes effect
(R162), with EN = 0 so that the batch does not open; with none free it is held (R146). -/
def enterRow (s : Device) (d : Die) (r : HeldRow) : Device :=
  let c := s.cuff d
  if c.held ≠ [] then s.onCuff d fun c => { c with held := c.held ++ [r] }
  else
    let s := match filling c with
      | some h => if (half c h).desc.key = r.desc.key then s else s.closeBatch d h
      | none => s
    let c := s.cuff d
    match filling c, freeHalf c with
    | some h, _ => s.storeRow d h r
    | none, some h =>
      let s := s.applyUnit 3 d 0
      if ¬ s.flag (R.CUFF_CTL_EN.die d) then s
      else if s.capacity d r.desc = 0 then s.stopTaps d r.desc.key else (s.openBatch d h r.desc).storeRow d h r
    | none, none => s.onCuff d fun c => { c with held := c.held ++ [r] }

/-- The last row of a side among those that wait ends its batch. -/
def markLast (key : Nat) (rs : List HeldRow) : List HeldRow :=
  match (rs.reverse.span fun r => r.desc.key != key) with
  | (_, []) => rs
  | (after, r :: before) => before.reverse ++ { r with last := true } :: after.reverse

/-- A batch of a side ends: behind its last row that waits, or where it fills (R146). -/
def closeSide (s : Device) (d : Die) (key : Nat) : Device :=
  if (s.cuff d).held.any (fun r => r.desc.key == key) then s.onCuff d fun c => { c with held := markLast key c.held }
  else match filling (s.cuff d) with
    | some h => if (half (s.cuff d) h).desc.key = key then s.closeBatch d h else s
    | none => s

/-- The batch captured last ends with the work of its step (R146). -/
def closeFilling (s : Device) (d : Die) : Device :=
  match (s.cuff d).held.getLast?, filling (s.cuff d) with
  | some r, _ => s.closeSide d r.desc.key
  | none, some h => s.closeBatch d h
  | none, none => s

/-- A half's last tap tile has drained: it is free, and held rows go on; the operand reads they held count in CUFF_STALL (R146). -/
def halfFree (s : Device) (d : Die) : Device :=
  let free (h : Half) : Half := if h.state = .issuing ∧ h.left = 0 then {} else h
  let s := s.onCuff d fun c => { c with h0 := free c.h0, h1 := free c.h1 }
  let held := (s.cuff d).held
  if held ≠ [] ∧ (freeHalf (s.cuff d)).isSome then
    held.foldl (fun s r => s.enterRow d r) ((s.onCuff d fun c => { c with held := [] }).freeCycles (R.CUFF_STALL_COUNT.die d))
  else s

/-! ## Capture (R143, R144) -/

def sideOf (s : Device) (d : Die) (layer : BitVec 14) (tap : BitVec 2) : Option TapDesc :=
  (s.cuff d).sides.find? fun t => t.layer == layer.toNat && t.side == (tap == 2)

/-- Whether taps are taken on a die at all (R162). -/
def tapping (s : Device) (d : Die) (a : TDesc) : Bool := s.flag (R.CUFF_CTL_EN.die d) && a.tap != 0

/-- A layer with a frozen shard (R117). -/
def frozenLayer (s : Device) (layer : Nat) : Bool := s.fab.frozen.any fun z => z.layer == layer

/-- D of a side's tap descriptor (R161). -/
def tapDim (s : Device) (d : Die) (layer : BitVec 14) (tap : BitVec 2) : Nat :=
  s.near (s.fld (R.CUFF_TDT_BASE_UNITS.die d) * 4096 + 64 * layer.toNat + 32 * b2n (tap == 2) + 8) 4

/-- What a tap-flagged instruction must not do (R143, R117): its side's descriptor gives D whether or not the side is enabled (log
entry 151). -/
def badTap (s : Device) (d : Die) (x : Mma) : Bool :=
  s.tapping d x.a &&
    (x.a.tap == 3 || s.frozenLayer x.a.tlayer.toNat || x.ksplit != 0 || (if x.ta then x.a.row0 else x.a.col0) != 0 ||
      (x.k.toNat + 1 + 127) / 128 * 128 != ((s.sideOf d x.a.tlayer x.a.tap).map TapDesc.dim).getD (s.tapDim d x.a.tlayer x.a.tap))

/-- Rows dropped for NaN counted for a side: in its header, or with the tap rows that go to its owner (R144, R151). -/
def countNan (s : Device) (d : Die) (t : TapDesc) (n : Nat) : Device :=
  if t.route then s.onCuff d fun c => { c with sentNan := Sparse.put 0 t.key (Sparse.get 0 t.key c.sentNan + n) c.sentNan }
  else s.setNear (t.base + 0x2C) 4 (s.near (t.base + 0x2C) 4 + n)

/-- Elements saturated counted for a side (R144, R151). -/
def countSat (s : Device) (d : Die) (t : TapDesc) (n : Nat) : Device :=
  if t.route then s.onCuff d fun c => { c with sentSat := Sparse.put 0 t.key (Sparse.get 0 t.key c.sentSat + n) c.sentSat }
  else s.setNear (t.base + 0x30) 8 (s.near (t.base + 0x30) 8 + n)

/-- One row quantised: a NaN drops it, saturated elements are counted (R144). -/
def captureRow (s : Device) (d : Die) (lm : Nat) (t : TapDesc) (vs : List Val) : Device :=
  let qs := vs.map (quantise t)
  if qs.any (·.nan) then (s.cuffEvent d R.CUFF_STAT_NAN_ROW).countNan d t 1
  else
    let n := (qs.filter (·.ovf)).length
    let s := if n = 0 then s else (s.cuffEvent d R.CUFF_STAT_SAT).countSat d t n
    s.enterRow d { desc := t, lm := lm, codes := qs.map (·.code) }

/-- The Cuff takes the sampled rows of a tap-flagged instruction, the first of which has token index `row0`, in ascending token
index (R142 to R146). Here, and where a batch opens, a capacity of 0 is found (DESIGN CHOICE, log entry 173). -/
def capture (s : Device) (d : Die) (x : Mma) (rows row0 : Nat) (af : Fmt) : Device :=
  if ¬ s.tapping d x.a then s
  else if s.fld (R.CUFF_STORE_SIZE_UNITS.die d) = 0 then
    if (s.cuff d).sizeTold then s
    else (s.onCuff d fun c => { c with sizeTold := true }).cuffEvent d R.CUFF_STAT_DESC_ERR
  else match s.sideOf d x.a.tlayer x.a.tap with
    | none => s
    | some t =>
      if (s.cuff d).tapsOff.contains t.key then s
      else if s.capacity d t = 0 then s.stopTaps d t.key
      else
        let s := (List.range rows).foldl (fun s r =>
          if s.sampled t (row0 + r) then s.captureRow d x.lm.val t (s.operand x.a af x.ta r 0 (x.k.toNat + 1))
          else s) s
        if x.a.tlast then s.closeSide d t.key else s

/-! ## Tap tiles (R147, R150, R156) -/

/-- An element of the row store, as the signed integer it holds. -/
def storeElem (s : Device) (d : Die) (t : TapTile) (feature row : Nat) : Int :=
  let w := t.desc.width
  let x := half (s.cuff d) t.half
  signedOf (8 * w) ((s.die d).tile.readLE (x.base + (feature * x.cap + row) * w) w)

/-- The tile a tap tile's mitt computes when it is placed: every product of every sampled row (R147). -/
def tapTileOf (s : Device) (d : Die) (profN : Bool) (t : TapTile) : Tile :=
  let k : SlotKind := if profN then .i64 else .i32
  let a := (List.range 128).map fun i => (List.range t.rows).map fun r => s.storeElem d t (t.fa + i) r
  let b := (List.range 128).map fun i => (List.range t.rows).map fun r => s.storeElem d t (t.fc + i) r
  let f : Fmt := if t.desc.i16 then .i16 else .i8
  { kind := k, rows := 128, cols := 128, af := f, bf := f, consumed := t.rows, closed := true, purpose := .tap t,
    slots := a.flatMap fun u => b.map fun v =>
      Cell.run k (groupSize f) (fun _ => .rne) 0 { slot := {} } (List.zipWith (fun x y => Val.ofInt (x * y) 0) u v)
        |>.flush k (groupSize f) (fun _ => .rne) t.rows }

/-- A row of 64-bit integers added at an address by the memory-side adders: saturating; the flag says that an
entry saturated (R244). -/
def addI64 (m : Memory) (a : Nat) (vs : List Int) : Memory × Bool :=
  vs.zipIdx.foldl (fun (z : Memory × Bool) v =>
    let p := a + 8 * v.2
    let sum := signedOf 64 (z.1.readLE p 8) + v.1
    let sat := satSigned 64 sum
    (z.1.writeLE p 8 (codeOf 64 sat), z.2 || sat != sum)) (m, false)

/-- A tap row added into a live buffer of a side whose header lies at `base` (R150, R156). -/
def addLive (s : Device) (d : Die) (base buf a : Nat) (vs : List Int) : Device :=
  let (m, sat) := addI64 s.mem.near a vs
  let s := s.setMemory .near m
  if sat then
    (s.setNear (base + 3) 1 (s.near (base + 3) 1 ||| (4 * 2 ^ buf))).cuffEvent d R.CUFF_STAT_FACT_OVF
  else s

/-- Sampled rows that are in a live buffer (R155). -/
def addRows (s : Device) (d : Die) (key buf n : Nat) : Device :=
  s.onCuff d fun c => { c with rowsIn := Sparse.put 0 (key * 2 + buf) (Sparse.get 0 (key * 2 + buf) c.rowsIn + n) c.rowsIn }

/-- A live buffer that a waiting or running fold has not cleared holds tap rows of another step back, as does one that is still to
be cleared for the step (R155). -/
def foldHolds (s : Device) (d : Die) (key : Nat) (step : W32) : Bool :=
  (s.cuff d).folds.any fun f => f.desc.key == key && (f.clear || (bufOf f.step == bufOf step && f.step != step))

/-- A tap row on its way to the owner of its factor (R151), kept until its step and the next are over, so that it can go again with the
gradients of its contribution (R288, R289); to an owner that is LOST or DEPARTED none goes (R288). -/
def sendTap (s : Device) (m : Msg) : Device := match m.peer? with
  | some p => if s.peerDead p then s
    else ((s.send m).onFab fun f => { f with tapsSent := f.tapsSent ++ [m] }).outstanding { peer := Fin.ofNat 4096 p, kind := .taps }
  | none => s

/-- The rows of a drained tap tile go to the live buffer, or to its owner over the fabric (R150, R151). -/
def drainTap (s : Device) (d : Die) (t : TapTile) (slots : List Slot) : Device :=
  let buf := bufOf t.step
  let rows := chunksOf 128 (slots.map fun x => x.v)
  let last := (half (s.cuff d) t.half).left = 1
  let s := rows.zipIdx.foldl (fun s r =>
    let off := t.off + 1024 * r.2
    if t.desc.route then
      let end_ := last && r.2 == 127
      let n (x : Nat) : Nat := if end_ then x else 0
      let c := s.cuff d
      let s := s.sendTap (.tapRow t.desc.peer t.desc.layer t.desc.side t.step s.fab.epoch off (r.1.map fun v => BitVec.ofInt 64 v)
        (n t.rows) (n (Sparse.get 0 t.desc.key c.sentNan)) (n (Sparse.get 0 t.desc.key c.sentSat)))
      if end_ then s.onCuff d fun c => { c with sentNan := Sparse.put 0 t.desc.key 0 c.sentNan, sentSat := Sparse.put 0 t.desc.key 0 c.sentSat }
      else s
    else s.addLive d t.desc.base buf (t.desc.liveBase buf + off) r.1) s
  let s := if last ∧ ¬ t.desc.route then s.addRows d t.desc.key buf t.rows else s
  s.onCuff d fun c => setHalf c t.half { half c t.half with left := (half c t.half).left - 1 }

end Device

end Sys2Proof.Machine
end

