-- ==== Sys2Proof/Machine/Fold.lean ====
section
/-! DEFINITION. Folds: the live buffer of a step taken into its factor, and what the Cuffs do at a step start
(spec/05 R152 to R161). -/

namespace Sys2Proof.Machine

/-- A left shift that saturates at 64 bits (R155). -/
def satShl (a : Int) (n : Nat) : Int × Bool :=
  let x := a * 2 ^ n
  (satSigned 64 x, satSigned 64 x != x)

/-- One entry of a fold: the old entry, rescaled, decayed, with the live entry added; the flag is a
saturation (R155). Arithmetic shifts floor. -/
def foldEntry (reset : Bool) (sh : Int) (decay : Nat) (a l : Int) : Int × Bool :=
  let a := if reset then 0 else a
  let (a, f) := if sh > 0 then (a / 2 ^ sh.toNat, false) else if sh < 0 then satShl a (-sh).toNat else (a, false)
  let a := if decay = 0 then a else a - a / 2 ^ decay
  let x := a + l
  (satSigned 64 x, f || satSigned 64 x != x)

namespace Device

/-- A byte of a header. -/
def headerByte (s : Device) (t : TapDesc) (o : Nat) : Nat := s.near (t.base + o) 1

/-- The entries of a fold, four arrays of bytes wide (R153, R155). -/
def foldArray (s : Device) (t : TapDesc) (buf : Nat) (reset : Bool) (sh : Int) : Memory × Bool :=
  (List.range (t.size / 8)).foldl (fun (z : Memory × Bool) i =>
    let pa := t.aBase + 8 * i
    let pl := t.liveBase buf + 8 * i
    let e := foldEntry reset sh t.decay (signedOf 64 (z.1.readLE pa 8)) (signedOf 64 (z.1.readLE pl 8))
    ((z.1.writeLE pa 8 (codeOf 64 e.1)).writeLE pl 8 0, z.2 || e.2)) (s.mem.near, false)

/-- The fold of a side's live buffer of step `st` (R154, R155): the header's FOLD_STEP comes last. -/
def foldSide (s : Device) (d : Die) (t : TapDesc) (st : W32) : Device :=
  let buf := bufOf st
  let flags := s.headerByte t 3
  let reset := !flags.testBit 1 || s.headerByte t 0x0C != t.rseq.toNat
  let lsat := flags.testBit (2 + buf)
  let sh := 2 * (t.e - signedOf 8 (s.headerByte t 5))
  let z := s.foldArray t buf reset sh
  let ovf := (flags.testBit 0 && !reset) || lsat || z.2
  let other := b2n (flags.testBit (3 - buf)) * 2 ^ (3 - buf)
  let rows := if reset then 0 else s.near (t.base + 0x10) 8
  let rows := if t.decay = 0 then rows else rows - rows / 2 ^ t.decay
  let n := Sparse.get 0 (t.key * 2 + buf) (s.cuff d).rowsIn
  let s := s.setMemory .near z.1
  let s := s.setNear t.base 2 t.layer
  let s := s.setNear (t.base + 2) 1 (b2n t.side)
  let s := s.setNear (t.base + 3) 1 (b2n ovf + 2 + other)
  let s := s.setNear (t.base + 4) 1 (b2n t.i16)
  let s := s.setNear (t.base + 5) 1 (codeOf 8 t.e)
  let s := s.setNear (t.base + 6) 1 t.fbLog
  let s := s.setNear (t.base + 7) 1 t.decay
  let s := s.setNear (t.base + 8) 4 t.dim
  let s := s.setNear (t.base + 0x0C) 1 t.rseq.toNat
  let s := s.setMemory .near ((s.mem.near.clear (t.base + 0x0D) 3).clear (t.base + 0x38) 4040)
  let s := s.setNear (t.base + 0x10) 8 (rows + n)
  let s := s.setNear (t.base + 0x18) 8 ((if reset then 0 else s.near (t.base + 0x18) 8) + n)
  let s := s.setNear (t.base + 0x20) 4 st.toNat
  let s := s.onCuff d fun c => { c with rowsIn := Sparse.put 0 (t.key * 2 + buf) 0 c.rowsIn }
  if z.2 then s.cuffEvent d R.CUFF_STAT_FACT_OVF else s

/-- The Brim still reads the side (R159). -/
def brimReads (s : Device) (d : Die) (t : TapDesc) : Bool := match (s.die d).gnt.brim with
  | some x => x.phase == .assemble && x.desc.src == 0 && x.desc.srcAddr == t.base
  | none => false

/-- FOLD (R155, R159): the first fold due begins, once the Brim has done with its side; with EN = 0 none does (R162). -/
def foldBegin (s : Device) (d : Die) : Device := match (s.cuff d).folds with
  | f :: rest => if s.brimReads d f.desc ∨ ¬ s.flag (R.CUFF_CTL_EN.die d) then s
    else s.onCuff d fun c => { c with folds := { f with running := true } :: rest }
  | [] => s

/-- The live buffers of a side and their LSAT bits cleared (R155). -/
def clearNow (s : Device) (d : Die) (t : TapDesc) : Device :=
  let s := s.setMemory .near (s.mem.near.clear (t.liveBase 0) (2 * t.size))
  let s := s.setNear (t.base + 3) 1 (s.headerByte t 3 % 4)
  s.onCuff d fun c => { c with rowsIn := Sparse.put 0 (t.key * 2) 0 (Sparse.put 0 (t.key * 2 + 1) 0 c.rowsIn) }

/-- The fold of a side of the step at whose end the layout epoch changed is over (R158, R291). -/
def foldDone (s : Device) (d : Die) (t : TapDesc) : Bool :=
  !(s.cuff d).folds.any fun f => f.desc.key == t.key && f.step == s.fab.switchStep && !f.clear

/-- What goes of a shard, its factor blocks as they stand. -/
def leavingPart (s : Device) (x : Leaving) : Moved :=
  { x.part with blocks := x.sides.map fun z => (z.2.side, s.readBytes .near z.2.base (0x1000 + z.2.size)) }

/-- The shards that leave this device go out, each with its factor blocks once these are folded; those of one that stays on this device are
ready for it then (R158, R291). -/
def sendLeaving (s : Device) : Device :=
  let ready (x : Leaving) : Bool := x.sides.all fun z => s.foldDone z.1 z.2
  let here (x : Leaving) : Bool := x.peer == s.selfIdx
  let out := s.fab.leaving.filter fun x => ready x && !here x
  let stay := (s.fab.leaving.filter fun x => !ready x || here x).map fun x =>
    if ready x ∧ ¬ x.folded then { x with folded := true, part := s.leavingPart x } else x
  out.foldl (fun s x => s.send (.migration x.peer x.entry x.version (s.leavingPart x)))
    (s.onFab fun f => { f with leaving := stay })

/-- FOLD_COMPLETE (R155). -/
def foldEnd (s : Device) (d : Die) : Device := match (s.cuff d).folds with
  | f :: rest =>
    if f.running then ((if f.clear then s.clearNow d f.desc else s.foldSide d f.desc f.step).onCuff d fun c =>
      { c with folds := rest }).sendLeaving
    else s
  | [] => s

/-! ## Step start (R155, R160, R161) -/

/-- One side of the tap descriptor table: nothing where it is not enabled; `none` inside where a value is
outside the ranges of R161. -/
def readTap (s : Device) (d : Die) (layer : Nat) (side : Bool) : Option (Option TapDesc) :=
  let a := s.fld (R.CUFF_TDT_BASE_UNITS.die d) * 4096 + 64 * layer + 32 * b2n side
  let c := s.near a 1
  if ¬ c.testBit 0 then none
  else
    let k := s.near (a + 1) 1
    let fb := s.near (a + 2) 1
    let decay := s.near (a + 3) 1
    let dim := s.near (a + 8) 4
    let peer := s.near (a + 0x0C) 4
    let base := s.near (a + 0x10) 8
    let route := c.testBit 2
    if c ≥ 8 ∨ ¬ TapDesc.inRange k fb decay dim ∨ s.near (a + 6) 2 ≠ 0 ∨ s.near (a + 0x18) 8 ≠ 0
        ∨ base % 4096 ≠ 0 ∨ (¬ route ∧ peer ≠ 0) ∨ (route ∧ peer ≥ 4096) then some none
    else
      let t : TapDesc :=
        { layer := layer, side := side, i16 := c.testBit 1, route := route, k := k + 1, fbLog := fb, decay := decay,
          e := signedOf 8 (s.near (a + 4) 1), rseq := BitVec.ofNat 8 (s.near (a + 5) 1), dim := dim, peer := peer,
          base := base }
      -- a factor whose storage leaves the near tier (R256)
      if base + 0x1000 + 3 * t.size > 2 ^ 40 then some none else some (some t)

/-- The table as read at a step start, in ascending layer number, side 0 first. -/
def readTaps (s : Device) (d : Die) : List (Option TapDesc) :=
  (List.range 16384).flatMap fun l => ([false, true].filterMap fun sd => s.readTap d l sd)

/-- An enabled side whose base is a far address, its own or its owner's (R256). -/
def farTaps (s : Device) (d : Die) : Bool := (List.range 32768).any fun i =>
  let a := s.fld (R.CUFF_TDT_BASE_UNITS.die d) * 4096 + 32 * i
  (s.near a 1).testBit 0 && decide (s.near (a + 0x10) 8 ≥ 2 ^ 40)

/-- Live buffers and their LSAT bits cleared for a side that is newly enabled; behind a fold of the side that has not taken its buffer
the clearing waits its turn (R155). -/
def clearLive (s : Device) (d : Die) (t : TapDesc) : Device :=
  if t.route then s
  else if (s.cuff d).folds.any fun f => f.desc.key == t.key then
    s.onCuff d fun c => { c with folds := c.folds ++ [{ desc := t, step := s.frm.step, clear := true }] }
  else s.clearNow d t

/-- Step start on a die (order 7): the folds of the step that ended are queued, then the descriptors of the new
step are read and newly enabled sides cleared; `ended` is none at a job's first step (R155). With EN = 0 no fold is queued: those that fall
due then are dropped for good, and the live buffers start afresh, as those of a side that was disabled (R162; DESIGN CHOICE, log
entry 193). -/
def cuffStepStart (s : Device) (d : Die) (ended : Option W32) : Device :=
  let on := s.flag (R.CUFF_CTL_EN.die d)
  let old := (s.cuff d).sides
  let s := match on, ended with
    | true, some st =>
      let due := (old.filter fun (t : TapDesc) => !t.route).map fun (t : TapDesc) => ({ desc := t, step := st } : FoldJob)
      s.onCuff d fun c => { c with folds := c.folds ++ due }
    | _, _ => s
  let read := s.readTaps d
  let sides := read.filterMap id
  let s := if read.any Option.isNone then s.cuffEvent d R.CUFF_STAT_DESC_ERR else s
  let s := if s.farTaps d then s.event R.MEM_STAT_GRP_ERR else s
  let fresh := sides.filter fun t => !on || ended.isNone || !(old.any fun o => o.key == t.key)
  let s := fresh.foldl (fun s t => s.clearLive d t) s
  s.onCuff d fun c => { c with sides := sides, tapsOff := [], sizeTold := false }

end Device

/-- FOLD (R155). -/
def execFold (d : Die) (s : State) : Host.Outcome State Fault Refusal := onDev s fun v => v.foldBegin d
/-- FOLD_COMPLETE (R155). -/
def execFoldComplete (d : Die) (s : State) : Host.Outcome State Fault Refusal := onDev s fun v => v.foldEnd d

end Sys2Proof.Machine
end

