-- ==== Sys2Proof/Machine/Brim.lean ====
section
/-! DEFINITION. The Brim: solve descriptors, the sources of a matrix, the analysis, the scaling and the
damping (spec/06 R163, R167, R169 to R175, R440, R441). -/

namespace Sys2Proof.Machine

/-- Bytes of near memory (R233). -/
def nearSize : Nat := 2 ^ 40

namespace SDesc

/-- Ranges of R163. -/
def inRange (x : SDesc) : Bool :=
  x.zeros && decide (1 ≤ x.op ∧ x.op ≤ 7) && x.xpass != 3 && x.src != 3 && !(x.op == 6 && x.pre == 3)
    && decide (x.iterCap ≤ 64) && decide (x.tol ≤ 60) && decide (x.tolF ≤ 60)
    && !(x.period != 0 && decide (x.phase ≥ x.period)) && decide (x.side ≤ 1)
    && (x.op == 3 || x.op == 7 || (x.op == 6 && x.src != 2) || x.aux == 0)
    -- a KKT solve takes its right-hand side from the residuals of a Jacobian
    && !(x.op == 7 && x.src != 2)

def iters (x : SDesc) : Nat := if x.iterCap = 0 then 20 else x.iterCap
def tolI (x : SDesc) : Nat := if x.tol = 0 then 32 else x.tol
def tolFinal (x : SDesc) : Nat := if x.tolF = 0 then 28 else x.tolF
/-- The words of LDL and KKT are Q8.55 (R173). -/
def isQ8 (x : SDesc) : Bool := x.op == 2 || x.op == 7

end SDesc

/-- Tiles of a stored triangle. -/
def triTiles (n : Nat) : Nat := TapDesc.tri (Fx.padded n / 128)

/-- Data words of a copy (R167): stored tiles, the D of an LDL behind its L, or a vector. -/
def dataWords (op n extra : Nat) : Nat :=
  if op = 3 ∨ op = 6 then n else if op = 7 then n + extra else triTiles n * 16384 + (if op = 2 then n else 0)

/-- The copy size C (R167). -/
def copySize (words : Nat) : Nat := 4096 + (8 * words + 4095) / 4096 * 4096

namespace Device

/-- A descriptor of the table (R163). -/
def solveDesc (s : Device) (d : Die) (i : Nat) : SDesc :=
  let a := s.fld (R.GNT_SDT_BASE_UNITS.die d) * 4096 + 64 * i
  let b0 := s.near a 1
  let b1 := s.near (a + 1) 1
  { op := b0 % 16, resume := b0.testBit 4, xpass := b0 / 32 % 4, logp := b1 % 4, src := b1 / 4 % 4, pre := b1 / 16 % 4,
    warm := b1.testBit 6, xb := b1.testBit 7, iterCap := s.near (a + 2) 1, tol := s.near (a + 3) 1,
    tolF := s.near (a + 4) 1, period := s.near (a + 5) 1, phase := s.near (a + 6) 1, ex := signedOf 8 (s.near (a + 7) 1),
    damp := s.near (a + 8) 4, floorRatio := s.near (a + 0x0C) 4, floorCap := s.near (a + 0x10) 2,
    layer := s.near (a + 0x12) 2, n := s.near (a + 0x14) 4, npos := s.near (a + 0x18) 4, ref := s.near (a + 0x1C) 2,
    side := s.near (a + 0x1E) 1, blk := s.near (a + 0x20) 4, srcAddr := s.near (a + 0x28) 8, aux := s.near (a + 0x30) 8,
    result := s.near (a + 0x38) 8,
    zeros := !b0.testBit 7 && s.near (a + 0x1F) 1 == 0 && s.near (a + 0x24) 4 == 0 }

/-- Constraints of a KKT solve. -/
def constraints (s : Device) (x : SDesc) : Nat := if x.op = 7 then s.near x.aux 4 else 0

/-- C of a descriptor's result area. -/
def resultCopySize (s : Device) (x : SDesc) : Nat := copySize (dataWords x.op x.n (s.constraints x))

/-- Whether a result area is usable (R163). -/
def areaOk (s : Device) (x : SDesc) : Bool :=
  x.result % 4096 == 0 && decide (x.result + 4096 + 2 * s.resultCopySize x ≤ nearSize)

/-- Where the copy in force of a result area lies (R441). -/
def inForce (s : Device) (x : SDesc) : Option Nat :=
  if ¬ s.areaOk x then none
  else
    let k := s.near x.result 1
    let a := x.result + 4096 + k * s.resultCopySize x
    if k ≤ 1 ∧ s.near (a + 1) 1 = 2 then some a else none

end Device

/-! ## Sources -/

/-- A source as the Brim reads it: exact integers at a place, or a refusal. -/
structure Source where
  n : Nat := 0
  lsb : Int := 0
  a : List (List Int) := []
  jac : Option Jac := none
  blocks : List (Nat × Nat) := []
  ovf : Bool := false
  inv : Bool := false
  refused : Bool := false
  descErr : Bool := false
  inputStep : Option Nat := none
  rows : Nat := 0
  deriving Inhabited

namespace Device

/-- A symmetric matrix read from stored tiles of `w`-byte elements: tile (a, c) with a ≤ c, row-major, the other
half mirrored (R141, R167, R169). -/
def readSym (s : Device) (base n w : Nat) (f : Nat → Int) : List (List Int) :=
  let nt := Fx.padded n / 128
  (List.range n).map fun i => (List.range n).map fun j =>
    let (i, j) := if i / 128 ≤ j / 128 then (i, j) else (j, i)
    f (s.near (base + w * (16384 * TapDesc.tileNo nt (i / 128) (j / 128) + 128 * (i % 128) + j % 128)) w)

/-- A factor block (R169): refused while VALID is clear or OVF set. -/
def readFactor (s : Device) (x : SDesc) : Source :=
  let flags := s.near (x.srcAddr + 3) 1
  let t : TapDesc := { fbLog := s.near (x.srcAddr + 6) 1, dim := s.near (x.srcAddr + 8) 4, base := x.srcAddr }
  let e := signedOf 8 (s.near (x.srcAddr + 5) 1)
  let n := min (2 ^ t.fbLog) (t.dim - x.blk * 2 ^ t.fbLog)
  let bad := !flags.testBit 1 || flags.testBit 0
  let mism := decide (x.n ≠ n ∨ n = 0)
  if bad ∨ mism then { refused := true, descErr := !bad && mism }
  else { n := n, lsb := 2 * e, a := s.readSym (t.aBase + 0x20000 * t.tilesBefore x.blk) n 8 (signedOf 64),
         inputStep := some (s.near (x.srcAddr + 0x20) 4), rows := s.near (x.srcAddr + 0x10) 8 }

/-- The place at which every element of a source format is an exact integer. -/
def sourceLsb : Nat → Int
  | 0 => -149
  | 0xB => -61
  | _ => -55

/-- An element of a source format as an integer at that place. A NaN is 0 and an infinity the largest finite value of its sign, the
end of the exact form's range (R53; DESIGN CHOICE, log entry 199). -/
def sourceInt (fmt c : Nat) : Int :=
  if fmt = 0 then (match FloatFmt.fp32.decode c with
    | .fin n m e => (Val.fin n m e).units (-149)
    | .inf n => (if n then -1 else 1) * (FloatFmt.fp32.maxVal.units (-149))
    | .nan => 0)
  else signedOf 64 c

/-- Whether some FP32 code of a list is infinite, or NaN. -/
def anyInf (cs : List Nat) : Bool := cs.any fun c => (FloatFmt.fp32.decode c).isInf
def anyNan (cs : List Nat) : Bool := cs.any fun c => (FloatFmt.fp32.decode c).isNan

/-- Element formats of dense and vector headers (R169, R440). -/
def headerFmt (f : Nat) : Bool := f == 0 || f == 0xB || f == 0xC
def elemWidth (f : Nat) : Nat := if f = 0 then 4 else 8

/-- Whether a 64-byte header of R169 or R440 is in order: n, format, alignment, zero fields. -/
def headerOk (s : Device) (a n align : Nat) : Bool :=
  s.near a 4 == n && headerFmt (s.near (a + 4) 1) && s.near (a + 6) 2 == 0 && s.near (a + 8) 8 % align == 0
    && (s.readBytes .near (a + 0x10) 48).all (· == 0)

/-- A dense matrix (R169). -/
def readDense (s : Device) (x : SDesc) : Source :=
  let h := x.srcAddr
  if ¬ s.headerOk h x.n 4096 then { refused := true, descErr := true }
  else
    let f := s.near (h + 4) 1
    let w := elemWidth f
    let raw := s.readSym (s.near (h + 8) 8) x.n w fun c => (c : Int)
    let flat := raw.flatMap fun r => r.map Int.toNat
    { n := x.n, lsb := signedOf 8 (s.near (h + 5) 1) + sourceLsb f, a := raw.map fun r => r.map fun c => sourceInt f c.toNat,
      ovf := f == 0 && anyInf flat, inv := f == 0 && anyNan flat }

/-- A value quantised to a signed 32-bit integer (R170). -/
def quant (code : Nat) (e : Int) : Int × Bool × Bool :=
  let c := convFixed 32 0 .rne ((FloatFmt.fp32.decode code).scale (-e))
  (signedOf 32 c.code, c.ovf, c.nan)

/-- A weight quantised to an unsigned 32-bit integer; a weight below zero is invalid (R170). -/
def quantWeight (code : Nat) (e : Int) : Int × Bool × Bool :=
  let v := FloatFmt.fp32.decode code
  if v.isNan ∨ v.lt .zero then (0, false, true)
  else
    let c := convFixed 64 0 .rne (v.scale (-e))
    let k := signedOf 64 c.code
    (min k (2 ^ 32 - 1), c.ovf || decide (k > 2 ^ 32 - 1), false)

/-- The row pointers of a Jacobian. -/
def rowPtr (s : Device) (h i : Nat) : Nat := s.near (s.near (h + 0x10) 8 + 4 * i) 4

/-- The structure of a row (R170): pointers in order, columns in range and strictly ascending. -/
def rowOk (s : Device) (h n nnz i : Nat) : Bool :=
  let lo := s.rowPtr h i
  let hi := s.rowPtr h (i + 1)
  let c := s.near (h + 0x18) 8
  decide (lo ≤ hi ∧ hi ≤ nnz) && (List.range (hi - lo)).all fun k =>
    let col := s.near (c + 4 * (lo + k)) 4
    decide (col < n) && (k == 0 || decide (s.near (c + 4 * (lo + k - 1)) 4 < col))

/-- The blocks of a block table (R170); none where it does not ascend from 0 to n in blocks of at most 2,048. -/
def readBlocks (s : Device) (h n : Nat) : Option (List (Nat × Nat)) :=
  let a := s.near (h + 0x38) 8
  let count := s.near a 4
  let bs := (List.range (count + 1)).map fun i => s.near (a + 4 + 4 * i) 4
  let pairs := bs.zip (bs.drop 1)
  if 1 ≤ count ∧ count ≤ 1024 ∧ bs.head? = some 0 ∧ bs.getLast? = some n
      ∧ pairs.all fun p => decide (p.1 < p.2 ∧ p.2 ≤ p.1 + 2048) then some (pairs.map fun p => (p.1, p.2 - p.1)) else none

/-- A Jacobian's integers (R170). `weights` is false for the constraints of KKT. -/
def readJac (s : Device) (h n : Nat) (weights : Bool) : Source :=
  let m := s.near h 4
  let nnz := s.near (h + 8) 4
  let eh := signedOf 8 (s.near (h + 0x0C) 1)
  let ew := signedOf 8 (s.near (h + 0x0D) 1)
  let er := signedOf 8 (s.near (h + 0x0E) 1)
  if s.near (h + 4) 4 ≠ n then { refused := true, descErr := true }
  else if m > 4194304 ∨ n > 1048576 ∨ nnz > 67108864 ∨ ¬ (List.range m).all (s.rowOk h n nnz) then { refused := true }
  else
    let rows := (List.range m).map fun i => (List.range (s.rowPtr h (i + 1) - s.rowPtr h i)).map fun k =>
      let p := s.rowPtr h i + k
      (s.near (s.near (h + 0x18) 8 + 4 * p) 4, quant (s.near (s.near (h + 0x20) 8 + 4 * p) 4) eh)
    let ws := (List.range m).map fun i =>
      if weights then quantWeight (s.near (s.near (h + 0x28) 8 + 4 * i) 4) ew else (1, false, false)
    let rs := (List.range m).map fun i => quant (s.near (s.near (h + 0x30) 8 + 4 * i) 4) er
    let hs := rows.flatMap fun r => r.map (·.2)
    { n := n, jac := some
        { rows := rows.map fun r => r.map fun (c : Nat × (Int × Bool × Bool)) => (c.1, c.2.1), w := ws.map (·.1),
          lsb := if weights then 2 * eh + ew else eh, res := rs.map (·.1), resLsb := if weights then eh + ew + er else er },
      ovf := (hs ++ ws ++ rs).any (·.2.1), inv := (hs ++ ws ++ rs).any (·.2.2) }

end Device

namespace Jac

/-- An entry of a row. -/
def get (r : List (Nat × Int)) (c : Nat) : Int := ((r.find? fun e => e.1 == c).map (·.2)).getD 0

/-- G_int[j][k] = sum of w h_ij h_ik (R170). -/
def gain (x : Jac) (j k : Nat) : Int := (List.zipWith (fun r w => w * get r j * get r k) x.rows x.w).sum
/-- b_int[j] = sum of w h_ij rho_i (R170). -/
def rhs (x : Jac) (j : Nat) : Int :=
  (List.zipWith (fun (p : List (Nat × Int) × Int) r => p.2 * get p.1 j * r) (x.rows.zip x.w) x.res).sum
/-- The bound of row j: sum over i of w |h_ij| times the sum over k of |h_ik| (R172). -/
def rowBound (x : Jac) (j : Nat) : Nat :=
  (List.zipWith (fun r w => w.natAbs * (get r j).natAbs * (r.map fun e => e.2.natAbs).sum) x.rows x.w).sum

end Jac

/-! ## Analysis and scaling (R171 to R173) -/

/-- Trace, bound and right-hand side of a problem as integers at their places. -/
structure Problem where
  src : Source := {}
  /-- The dense matrix, where the operation holds one; n and constraints together for KKT. -/
  a : List (List Int) := []
  lsb : Int := 0
  n : Nat := 0
  /-- Unknowns of the descriptor; rows beyond it are constraints. -/
  states : Nat := 0
  trace : Int := 0
  bound : Int := 0
  b : List Int := []
  bLsb : Int := 0
  deriving Inhabited

/-- The largest absolute row sum, an infinity norm (R180). -/
def gershgorin (a : List (List Int)) : Nat := a.foldl (fun m r => max m (r.map Int.natAbs).sum) 0
/-- The Gershgorin term: the largest a_ii + sum of |a_ij| over j other than i (R172). -/
def gershTerm (a : List (List Int)) : Int :=
  ((a.zipIdx.map fun (r : List Int × Nat) =>
    let dg := r.1.getD r.2 0
    dg + ((r.1.map Int.natAbs).sum : Int) - dg.natAbs).max?).getD 0

namespace Problem

/-- δ = DAMP · τ / (2^32 n) or φ, as a word at place `la` of the matrix scaled by 2^-s (R172). -/
def ratio (p : Problem) (num : Nat) (s la : Int) : Int :=
  let k := p.lsb - s - la
  Fx.ratRne (num * p.trace * 2 ^ k.toNat) (2 ^ 32 * p.states * 2 ^ (-k).toNat)

/-- The scale s (R172): the smallest with (U + δ) 2^-s at most 1; for ROOT a multiple of p. Where U + δ is not
positive no scale is the smallest (log entry 62). -/
def scale (p : Problem) (x : SDesc) : Int :=
  let num := p.bound * (2 ^ 32 * p.states : Nat) + x.damp * p.trace
  let g := if num ≤ 0 then Config.openScale num else Fx.expOfRatio (2 ^ 32 * p.states) num.toNat + p.lsb
  if x.op = 5 then -((-g) / (2 ^ x.logp : Nat)) * (2 ^ x.logp : Nat) else g

/-- The scale of the right-hand side (R172). -/
def bScale (p : Problem) : Int := match Fx.maxAbs p.b with
  | 0 => 0
  | m => Fx.expOfRatio 1 m + p.bLsb

/-- The assembled problem (R172, R440). The word of the scaled right-hand side is not stated; it is Q2.61 (log entry 194). -/
def assemble (p : Problem) (x : SDesc) (step : Nat) : Asm :=
  let la : Int := if x.isQ8 then -55 else -61
  let s := p.scale x
  let sb := p.bScale
  let delta := p.ratio x.damp s la
  let phi := max 1 (p.ratio x.floorRatio s la)
  let word (v : Int) : Flagged Int := Fx.narrow v (p.lsb - s) la
  let damp (i j : Nat) (v : Int) : Flagged Int :=
    if i ≠ j then (v, false)
    else let z := satSigned 64 (if i < p.states then v + delta else v - delta); (z, z != (if i < p.states then v + delta else v - delta))
  let (a, fa) := Fx.unflag (p.a.zipIdx.map fun (r : List Int × Nat) => r.1.zipIdx.map fun (v : Int × Nat) =>
    let w := word v.1
    let z := damp r.2 v.2 w.1
    (z.1, w.2 || z.2))
  let (b, fb) := Fx.narrowV (p.bLsb - sb) (-61) p.b
  let top := max delta phi
  if p.trace = 0 ∨ ((x.op = 4 ∨ x.op = 5) ∧ delta = 0) then
    { refused := true, inputStep := p.src.inputStep.getD step, rows := p.src.rows }
  else
  { n := p.n, q8 := x.isQ8, a := a, jac := p.src.jac, blocks := p.src.blocks, b := b, s := s, sb := sb, delta := delta,
    phi := phi, lam := if x.isQ8 then top * 64 else top, ovf := p.src.ovf || fa || fb, inv := p.src.inv,
    inputStep := p.src.inputStep.getD step, rows := p.src.rows }

end Problem

namespace Device

/-- The right-hand side a vector header names (R440): integers at a place, or nothing where it is refused. -/
def readVector (s : Device) (a n : Nat) : Option (List Int × Int × Bool × Bool) :=
  if ¬ s.headerOk a n 8 then none
  else
    let f := s.near (a + 4) 1
    let cs := (List.range n).map fun i => s.near (s.near (a + 8) 8 + elemWidth f * i) (elemWidth f)
    some (cs.map (sourceInt f), signedOf 8 (s.near (a + 5) 1) + sourceLsb f, f == 0 && anyInf cs, f == 0 && anyNan cs)

/-- Refusals of capacity (R175). -/
def tooLarge (x : SDesc) (n : Nat) : Bool :=
  if x.op = 6 ∧ x.src = 2 then decide (n > 1048576) else decide (n > 16384)

/-- TRS takes the factor, the scale and the λ of REF's copy in force (R179). -/
def assembleTrs (s : Device) (d : Die) (x : SDesc) (step : Nat) : Asm :=
  if x.ref ≥ 65535 then { refused := true, descErr := true }
  else
    let y := s.solveDesc d x.ref
    match s.inForce y with
    | none => { refused := true }
    | some c =>
      let op := s.near c 1
      let n := s.near (c + 8) 4
      if op ≠ 1 ∧ op ≠ 2 then { refused := true }
      else if n ≠ x.n then { refused := true, descErr := true }
      else match s.readVector x.aux n with
        | none => { refused := true, descErr := true }
        | some (b, lb, ovf, inv) =>
          let p : Problem := { b := b, bLsb := lb }
          let nt := Fx.padded n / 128
          let l := (List.range n).map fun i => (List.range n).map fun j =>
            if i / 128 < j / 128 then 0
            else signedOf 64 (s.near (c + 4096 + 8 * (16384 * TapDesc.tileNo nt (j / 128) (i / 128) + 128 * (i % 128) + j % 128)) 8)
          let dv := if op = 2 then (List.range n).map fun i => signedOf 64 (s.near (c + 4096 + 8 * (triTiles n * 16384 + i)) 8) else []
          let (b, fb) := Fx.narrowV (lb - p.bScale) (-61) b
          { n := n, q8 := op == 2, b := b, s := signedOf 16 (s.near (c + 0x30) 2), sb := p.bScale,
            lam := signedOf 64 (s.near (c + 0x38) 8), ovf := ovf || fb, inv := inv, refused := tooLarge x n,
            inputStep := step, l := l, d := dv }

/-- The source of a descriptor (R169, R170). -/
def readSource (s : Device) (x : SDesc) : Source :=
  match x.src with
  | 0 => s.readFactor x
  | 1 => s.readDense x
  | _ =>
    let j := s.readJac x.srcAddr x.n true
    if j.refused then j
    else match s.readBlocks x.srcAddr x.n with
      | some bs => { j with blocks := bs }
      | none => { refused := true }

/-- The dense integers of a source: the gain matrix of a Jacobian where the operation holds a matrix. -/
def denseOf (src : Source) : List (List Int) := match src.jac with
  | some j => (List.range src.n).map fun r => (List.range src.n).map fun c => j.gain r c
  | none => src.a

/-- Two matrices of integers beside one another: K of a KKT solve at one place (R179). -/
def kktMatrix (g c : List (List Int)) (lg lc : Int) : List (List Int) :=
  let lo := min lg lc
  let n := g.length
  let up (l : Int) (v : Int) : Int := v * 2 ^ (l - lo).toNat
  (g.zipIdx.map fun (r : List Int × Nat) => (r.1.map (up lg)) ++ c.map fun q => up lc (q.getD r.2 0))
    ++ c.map fun q => ((List.range n).map fun j => up lc (q.getD j 0)) ++ c.map fun _ => 0

/-- The assembly of a KKT solve (R179). -/
def assembleKkt (s : Device) (x : SDesc) (src : Source) (step : Nat) : Asm :=
  let con := s.readJac x.aux x.n false
  match src.jac, con.jac with
  | some j, some k =>
    if tooLarge x (x.n + k.rows.length) then { refused := true }
    else
      let g := denseOf src
      let c := k.rows.map fun r => (List.range x.n).map fun i => Jac.get r i
      let lo := min j.lsb k.lsb
      let lb := min j.resLsb k.resLsb
      let a := kktMatrix g c j.lsb k.lsb
      let rowSum (i : Nat) : Nat :=
        j.rowBound i * 2 ^ (j.lsb - lo).toNat + (c.map fun q => (q.getD i 0).natAbs).sum * 2 ^ (k.lsb - lo).toNat
      let p : Problem :=
        { src := { src with jac := none, ovf := src.ovf || con.ovf, inv := src.inv || con.inv }, a := a, lsb := lo,
          n := x.n + k.rows.length, states := x.n,
          trace := ((List.range x.n).map fun i => Fx.at_ a i i).sum,
          bound := (max (Fx.maxAbs ((List.range x.n).map fun i => (rowSum i : Int))) (gershgorin (a.drop x.n)) : Nat),
          b := ((List.range x.n).map fun i => j.rhs i * 2 ^ (j.resLsb - lb).toNat) ++ k.res.map fun v => v * 2 ^ (k.resLsb - lb).toNat,
          bLsb := lb }
      p.assemble x step
  | _, _ => { refused := true, descErr := con.descErr }

/-- The assembly of a solve: what the Brim makes of its source as it stands now (R169 to R175). -/
def assembly (s : Device) (d : Die) (x : SDesc) (step : Nat) : Asm :=
  if ¬ x.inRange ∨ ¬ s.areaOk x then { refused := true, descErr := true }
  else if x.op = 3 then s.assembleTrs d x step
  else
    let src := s.readSource x
    if src.refused then { refused := true, descErr := src.descErr }
    else if tooLarge x src.n then { refused := true }
    else if x.op = 7 then s.assembleKkt x src step
    else
      let lsb := match src.jac with
        | some j => j.lsb
        | none => src.lsb
      let a := if x.op = 6 ∧ src.jac.isSome then [] else denseOf src
      let trace := match src.jac with
        | some j => ((List.range src.n).map fun i => j.gain i i).sum
        | none => ((List.range src.n).map fun i => Fx.at_ src.a i i).sum
      let gersh : Int := match src.jac with
        | some j => Fx.maxAbs ((List.range src.n).map fun i => (j.rowBound i : Int))
        | none => gershTerm src.a
      let rhs : Option (List Int × Int × Bool × Bool) :=
        match src.jac with
        | some j => some ((List.range src.n).map j.rhs, j.resLsb, false, false)
        | none => if x.op = 6 then s.readVector x.aux src.n else some ([], 0, false, false)
      match rhs with
      | none => { refused := true, descErr := true }
      | some (b, lb, ovf, inv) =>
        let blocks := if src.jac.isSome then src.blocks
          else (List.range ((src.n + 2047) / 2048)).map fun i => (2048 * i, min 2048 (src.n - 2048 * i))
        let p : Problem :=
          { src := { src with blocks := blocks, ovf := src.ovf || ovf, inv := src.inv || inv }, a := a, lsb := lsb, n := src.n,
            states := src.n, trace := trace,
            bound := if x.op = 2 then gersh else min gersh trace, b := b, bLsb := lb }
        p.assemble x step

end Device

end Sys2Proof.Machine
end

