-- ==== Sys2Proof/Machine/Solver.lean ====
section
/-! DEFINITION. The operations of the Gauntlet: factorisations panel by panel, triangular solves, INV, ROOT, PCG and
KKT, and the residual tests (spec/06 R173, R176 to R184). -/

namespace Sys2Proof.Machine

namespace Solve

/-- The place of a solve's matrix words. -/
def la (v : Solve) : Int := if v.asm.q8 then -55 else -61
def xp (v : Solve) : Nat := v.desc.xpass

/-- What a step of the arithmetic may set. -/
def flagged (v : Solve) (ovf : Bool) : Solve := { v with ovf := v.ovf || ovf }

/-! ## Factorisation (R177, R178) -/

/-- The place of the reciprocals: Q8.55 at the exponent that φ gives (R177). -/
def rinPlace (v : Solve) (ldl : Bool) : Int :=
  let p : Nat := if ldl then 1 else 2
  Fx.expBound v.asm.phi.toNat (2 ^ (-v.la).toNat) p - 55

/-- The sign a pivot of a column is expected to have (R177): NPOS of an LDL, the states of a KKT. -/
def pivSign (v : Solve) (ldl : Bool) (j : Nat) : Int :=
  if ¬ ldl then 1 else if j < (if v.desc.op = 7 then v.desc.n else v.desc.npos) then 1 else -1

/-- A[i][j] less the terms of the columns since the last trailing update on the mitts, in ascending k (R177). -/
def colSum (f : Fac) (la : Int) (i j : Nat) : Flagged Int :=
  Fx.sum (Fx.at_ f.a i j * 2 ^ (-la).toNat)
    ((List.range (j - f.base)).map fun k => -(Fx.at_ f.l i (f.base + k) * Fx.at_ f.w j (f.base + k)))

/-- A pivot that is zero, negative, of the wrong sign or at most φ: logged and replaced by the floor (R177). -/
def floorPivot (v : Solve) (j : Nat) (sgn d : Int) : Solve × Int :=
  if sgn * d ≤ v.asm.phi then
    let e := sgn * v.asm.phi
    let entry := (v.fac.off + j, b2n (decide (d = 0)) + 2 * b2n (decide (sgn * d < 0)), d)
    ({ v with
        pivots := if v.pivots.length < 64 then v.pivots ++ [entry] else v.pivots, floored := v.floored + 1,
        notDef := v.floored + 1 > v.desc.floorCap, fac := { v.fac with f := v.fac.f ++ [(j, e - d)] } }, e)
  else (v, d)

/-- One column (R177). -/
def column (ldl : Bool) (v : Solve) : Solve :=
  let j := v.fac.col
  if v.notDef ∨ j ≥ v.fac.n then v
  else
    let la := v.la
    let lr := v.rinPlace ldl
    let acc := colSum v.fac la j j
    let d0 := Fx.narrow acc.1 (2 * la) la
    let (v, d) := (v.flagged (acc.2 || d0.2)).floorPivot j (v.pivSign ldl j) d0.1
    if v.notDef then v
    else
      let piv := if ldl then d else Fx.sqrtWord d la
      let rin := Fx.recip piv la lr
      let f := v.fac
      let entry (i : Nat) : Flagged Int × Flagged Int :=
        if i < j then ((0, false), (0, false))
        else if i = j then ((if ldl then 2 ^ (-la).toNat else piv, false), (if ldl then 0 else piv, false))
        else
          let sm := colSum f la i j
          let s1 := Fx.narrow sm.1 (2 * la) la
          let x := Fx.narrow (s1.1 * rin.1) (la + lr) la
          let w := if ldl then Fx.narrow (x.1 * piv) (2 * la) la else (x.1, false)
          ((x.1, sm.2 || s1.2 || x.2), w)
      let es := (List.range f.n).map entry
      { v.flagged (rin.2 || es.any fun e => e.1.2 || e.2.2) with
        fac := { f with
          l := List.zipWith (fun r (e : Flagged Int × Flagged Int) => r ++ [e.1.1]) f.l es,
          w := List.zipWith (fun r (e : Flagged Int × Flagged Int) => r ++ [e.2.1]) f.w es,
          d := f.d ++ [d], rin := f.rin ++ [rin.1], col := j + 1 } }

/-- The trailing update of a panel on the mitts: operands narrowed, the matrix narrowed once (R176, R177). -/
def trail (v : Solve) : Solve :=
  let f := v.fac
  let la := v.la
  let upd (i j : Nat) : Flagged Int :=
    if i < f.col ∨ j < f.col ∨ i < j then (Fx.at_ f.a i j, false)
    else
      let z := Fx.dot v.xp ((f.l.getD i []).drop f.base) ((f.w.getD j []).drop f.base)
      let t := Fx.sum (Fx.at_ f.a i j * 2 ^ (-la).toNat) [-z.1]
      let w := Fx.narrow t.1 (2 * la) la
      (w.1, z.2 || t.2 || w.2)
  let (a, fl) := Fx.unflag ((List.range f.n).map fun i => (List.range f.n).map fun j => upd i j)
  { v.flagged fl with fac := { f with a := a, base := f.col } }

/-- A panel of 128 columns with its trailing update (R176, R177). -/
def panel (ldl : Bool) (v : Solve) : Solve :=
  let v := (List.range 128).foldl (fun v _ => column ldl v) v
  if v.xp ≠ 0 ∧ ¬ v.notDef ∧ Fx.padded v.fac.n ≥ v.fac.col + 256 then v.trail else v

def newFac (off n : Nat) (a : List (List Int)) : Fac :=
  { off := off, n := n, a := a, l := List.replicate n [], w := List.replicate n [] }

/-! ## Triangular solves (R179) -/

/-- Forward solve with L, or back solve with its transpose: each entry is narrowed, then multiplied by the
reciprocal of its pivot unless the diagonal is 1, each at the solution's exponent, which is not stated (log entry 195). Sums run in
ascending index. -/
def triangular (f : Fac) (la lr : Int) (b : List Int) (lb ly : Int) (up unit : Bool) : List Int × Bool :=
  let lo := min (la + ly) lb
  let n := f.n
  let order := if up then (List.range n).reverse else List.range n
  order.foldl (fun (z : List Int × Bool) i =>
    let ks := if up then (List.range (n - i - 1)).map (· + i + 1) else List.range i
    let ts := ks.map fun k => -((if up then Fx.at_ f.l k i else Fx.at_ f.l i k) * z.1.getD k 0) * 2 ^ (la + ly - lo).toNat
    let sm := Fx.sum (b.getD i 0 * 2 ^ (lb - lo).toNat) ts
    let x := Fx.narrow sm.1 lo ly
    let y := if unit then (x.1, false) else Fx.narrow (x.1 * f.rin.getD i 0) (ly + lr) ly
    (z.1.set i y.1, z.2 || sm.2 || x.2 || y.2)) (List.replicate n 0, false)

/-- The exponent of a solution: √n ‖b̂‖ / λ with n the unknowns of the descriptor, or what E_X declares (R163, R173). -/
def solExp (v : Solve) : Int :=
  if v.desc.xb then v.desc.ex - v.asm.sb + v.asm.s
  else match Fx.maxAbs v.asm.b with
    | 0 => 0
    | m => Fx.expBound (v.asm.lam.toNat ^ 2) (v.desc.n * m ^ 2) 2

/-- x from the factor, a right-hand side and, for an LDL, D (R179). -/
def solveWith (v : Solve) (f : Fac) (ldl : Bool) (lr : Int) (b : List Int) (ex : Int) : List Int × Bool :=
  let ly := ex - 55
  let (y, f1) := triangular f v.la lr b (-61) ly false ldl
  let (y, f2) := if ldl then Fx.unflagV (List.zipWith (fun a r => Fx.narrow (a * r) (ly + lr) ly) y f.rin) else (y, false)
  let (x, f3) := triangular f v.la lr y ly ly true ldl
  (x, f1 || f2 || f3)

/-- The factor that TRS took from REF, with the reciprocals of its pivots (R179): their exponent comes from the least of them, which is
not stated (log entry 196). -/
def refFac (v : Solve) : Fac × Int × Bool :=
  let ldl := v.asm.q8
  let n := v.asm.n
  let piv := if ldl then v.asm.d else (List.range n).map fun i => Fx.at_ v.asm.l i i
  let least := piv.foldl (fun m p => min m p.natAbs) (2 ^ 63)
  let lr := Fx.expBound (max 1 least) (2 ^ (-v.la).toNat) 1 - 55
  let (rin, fl) := Fx.unflagV (piv.map fun p => Fx.recip p v.la lr)
  ({ n := n, l := v.asm.l, d := v.asm.d, rin := rin, col := n }, lr, fl)

/-! ## Results in storage order (R167) -/

/-- Stored tiles of a matrix; `lower` for a factor, block row c and block column a. -/
def storeTiles (n : Nat) (m : List (List Int)) (lower : Bool) (one : Int) : List Int :=
  let nt := Fx.padded n / 128
  (List.range nt).flatMap fun a => ((List.range nt).filter (a ≤ ·)).flatMap fun c =>
    (List.range 128).flatMap fun i => (List.range 128).map fun j =>
      let r := if lower then 128 * c + i else 128 * a + i
      let k := if lower then 128 * a + j else 128 * c + j
      if r < n ∧ k < n then (if lower ∧ r < k then 0 else Fx.at_ m r k) else if r = k then one else 0

/-- The word of 1 at an exponent: the diagonal of ROOT's start and of padded features (R171, R180, R184). -/
def oneAt (l : Int) : Flagged Int := Fx.narrow 1 0 l

/-! ## What follows the last panel -/

/-- A solve that has a result goes to its final test. -/
def toTest (v : Solve) (data : List Int) (q8 : Bool) (er : Int) : Solve :=
  { v with phase := .test, data := data, dataQ8 := q8, er := er }

/-- The exponents of L^-1 and of the inverse (R173). -/
def invExp (v : Solve) : Int × Int :=
  (Fx.expBound v.asm.lam.toNat (2 ^ 61) 2,
   if v.desc.xb then v.desc.ex + v.asm.s else Fx.expBound v.asm.lam.toNat (2 ^ 61) 1)

/-- L^-1, column by column: the exact sum of an element is narrowed, then multiplied by the reciprocal of its pivot
and narrowed again, as R177 forms the elements of L (R179; log entry 28). -/
def triInverse (f : Fac) (la lr li : Int) : List (List Int) × Bool :=
  let cols := (List.range f.n).map fun j =>
    (List.range f.n).foldl (fun (z : List Int × Bool) i =>
      if i < j then z
      else if i = j then
        let w := Fx.narrow (f.rin.getD j 0) lr li
        (z.1.set i w.1, z.2 || w.2)
      else
        let sm := Fx.sum 0 ((List.range (i - j)).map fun k => -(Fx.at_ f.l i (j + k) * z.1.getD (j + k) 0))
        let x := Fx.narrow sm.1 (la + li) li
        let y := Fx.narrow (x.1 * f.rin.getD i 0) (li + lr) li
        (z.1.set i y.1, z.2 || sm.2 || x.2 || y.2)) (List.replicate f.n 0, false)
  (Fx.transpose f.n (cols.map (·.1)), cols.any (·.2))

/-! ## PCG (R181) -/

/-- The place of z, d and q (R173). -/
def lz (v : Solve) : Int := if v.desc.pre = 0 then -55 else Fx.expBound v.asm.lam.toNat (2 ^ 61) 1 - 55
def lx (v : Solve) : Int := v.solExp - 55

/-- Hᵀ(ω ⊙ (H v)) of the integers of R170, in an accumulator of `bits` bits at the place of those integers (R181). -/
def gainSum (v : Solve) (bits : Nat) (j : Jac) (x : List Int) : List Int × Bool :=
  let hv := j.rows.map fun r => Fx.sum 0 (r.map fun e => e.2 * x.getD e.1 0)
  let wv := List.zipWith (fun w (h : Flagged Int) => w * h.1) j.w hv
  let out := (List.range v.asm.n).map fun c => Fx.sumIn bits 0 ((List.zipWith (fun r t => (r, t)) j.rows wv).filterMap fun p =>
    (p.1.find? fun e => e.1 == c).map fun e => e.2 * p.2)
  (out.map (·.1), hv.any (·.2) || out.any (·.2))

/-- The place of the last bit of the accumulator that Ĝ v is summed in, v at place `lv`: the exact product of Q2.61
entries with v, or Q17.110 at the exponent of v where the terms are those of a Jacobian (R48; log entry 159). -/
def gainAcc (v : Solve) (lv : Int) : Int := if v.asm.jac.isSome then lv - 55 else lv - 61

/-- Ĝ v, not narrowed, with its place (R181). -/
def gain (v : Solve) (x : List Int) (lv : Int) : List Int × Int × Bool :=
  match v.asm.jac with
  | none => let z := Fx.apply v.asm.a x; (z.1, lv - 61, z.2)
  | some j =>
    let l1 := j.lsb - v.asm.s + lv
    let l2 := lv - 61
    let lo := min l1 l2
    let z := v.gainSum (Fx.accBits (v.gainAcc lv) l1) j x
    let r := Fx.unflagV (List.zipWith (fun a b => Fx.sumIn (Fx.accBits (v.gainAcc lv) lo) (a * 2 ^ (l1 - lo).toNat) [v.asm.delta * b * 2 ^ (l2 - lo).toNat]) z.1 x)
    (r.1, lo, z.2 || r.2)

/-- An entry of Ĝ as a word (R172). -/
def gainWord (v : Solve) (i k : Nat) : Int := match v.asm.jac with
  | none => Fx.at_ v.asm.a i k
  | some j => (Fx.narrow (j.gain i k) (j.lsb - v.asm.s) (-61)).1 + if i = k then v.asm.delta else 0

/-- Pinv(r) at the place of z (R181). -/
def pinv (v : Solve) (r : List Int) : List Int × Bool × Bool :=
  match v.desc.pre with
  | 0 => (r, false, false)
  | 1 =>
    let z := r.zipIdx.map fun (x : Int × Nat) =>
      let g := v.gainWord x.2 x.2
      if g = 0 then ((0, false), true)
      else
        let k := -55 + 61 - v.lz
        (Fx.narrow (Fx.ratRne ((if g < 0 then -x.1 else x.1) * 2 ^ k.toNat) (g.natAbs * 2 ^ (-k).toNat)) 0 0, false)
    (z.map (·.1.1), z.any (·.1.2), z.any (·.2))
  | _ =>
    let z := v.done.map fun f =>
      let b := (r.drop f.off).take f.n
      let y := triangular f (-61) (v.rinPlace false) b (-55) v.lz false false
      let x := triangular f (-61) (v.rinPlace false) y.1 v.lz v.lz true false
      (x.1, y.2 || x.2)
    (z.flatMap (·.1), z.any (·.2), false)

/-- Whether ‖r‖ is at most 2^-TOL (R181). -/
def rSmall (v : Solve) (r : List Int) : Bool := decide (Fx.maxAbs r * 2 ^ v.desc.tolI ≤ 2 ^ 55)

/-- A new residual whose norm does not pass takes its direction (R181). -/
def direct (v : Solve) : Solve × List Int × (Int × Int) :=
  let (z, o, i) := v.pinv v.r
  let rz := Fx.sum 0 (List.zipWith (· * ·) v.r z)
  ({ v.flagged (o || rz.2) with inv := v.inv || i }, z, Fx.scalar rz.1 (-55 + v.lz))

/-- The result of PCG goes to its test. -/
def pcgDone (v : Solve) : Solve := v.toTest v.xs true (v.solExp + v.asm.sb - v.asm.s)

/-- The start of the iteration, from x = 0 or a warm start (R181). -/
def pcgStart (warm : Option (List Int × Int)) (v : Solve) : Solve :=
  let (x, f) := match warm with
    | some (q, l) => Fx.narrowV (l + v.asm.s - v.asm.sb) v.lx q
    | none => (List.replicate v.asm.n 0, false)
  let (g, lg, f2) := v.gain x v.lx
  let (df, ld, f4) := Fx.diff (v.gainAcc v.lx) v.asm.b (-61) g lg
  let (r, f3) := Fx.narrowV ld (-55) df
  let v := { v.flagged (f || f2 || f3 || f4) with phase := .iterate, xs := x, r := r, prog := 0 }
  if v.rSmall r then v.pcgDone
  else
    let (v, z, rz) := v.direct
    { v with dd := z, rz := rz }

/-- One iteration of PCG (R181). -/
def pcgIter (v : Solve) : Solve :=
  let (g, lg, f1) := v.gain v.dd v.lz
  let (q, f2) := Fx.narrowV lg v.lz g
  let dq := Fx.sum 0 (List.zipWith (· * ·) v.dd q)
  let sdq := Fx.scalar dq.1 (2 * v.lz)
  let v := v.flagged (f1 || f2 || dq.2)
  if sdq.1 = 0 then { v with inv := true, prog := v.prog + 1 }
  else
    let al := Fx.quot v.rz sdq
    let (x, f4) := Fx.axpy v.xs v.lx al.1 al.2 v.dd v.lz v.lx
    let (r, f5) := Fx.axpy v.r (-55) (-al.1) al.2 q v.lz (-55)
    let v := { v.flagged (f4 || f5) with xs := x, r := r, prog := v.prog + 1 }
    if v.rSmall r then v.pcgDone
    else
      let (v, z, rzn) := v.direct
      if v.rz.1 = 0 then { v with inv := true }
      else
        let be := Fx.quot rzn v.rz
        let (dd, f6) := Fx.axpy z v.lz be.1 be.2 v.dd v.lz v.lz
        { v.flagged f6 with dd := dd, rz := rzn }

/-! ## ROOT (R180) -/

def rootP (v : Solve) : Nat := 2 ^ v.desc.logp
/-- The exponent of X^j: δ̂^(-j/p) (R173). -/
def rootExp (v : Solve) (j : Nat) : Int := Fx.expBound (v.asm.delta.toNat ^ j) (2 ^ (61 * j)) v.rootP
/-- The exponent of X, or what E_X declares. -/
def xExp (v : Solve) : Int := if v.desc.xb then v.desc.ex + v.asm.s / (v.rootP : Int) else v.rootExp 1
/-- The exponent of T^m: ((p + 1) / p)^m (R173). -/
def powExp (v : Solve) (m : Nat) : Int := Fx.expBound (v.rootP ^ m) ((v.rootP + 1) ^ m) 1

def rootStart (v : Solve) : Solve :=
  let n := v.asm.n
  let one := oneAt (v.xExp - 61)
  let v := v.flagged one.2
  { v with phase := .iterate, m := v.asm.a,
           x := (List.range n).map fun i => (List.range n).map fun j => if i = j then one.1 else 0 }

/-- T^p by repeated squaring (R180). -/
def squares (v : Solve) : Nat → Nat → List (List Int) → List (List Int) × Int × Bool
  | 0, m, t => (t, v.powExp m - 61, false)
  | k + 1, m, t =>
    let z := Fx.product v.xp t (v.powExp m - 61) t (v.powExp m - 61) (v.powExp (2 * m) - 61)
    let w := v.squares k (2 * m) z.1
    (w.1, w.2.1, z.2 || w.2.2)

/-- One iteration of ROOT (R180). The row sums of ‖M - I‖∞ stand in an accumulator that no row of words can overflow: a row of 16,384
words of 64 bits sums to less than 2^78 of 128 bits, whatever place its last bit has (R48; log entry 181). -/
def rootIter (v : Solve) : Solve :=
  let p := v.rootP
  let lt := v.powExp 1 - 61
  let (t, f1) := Fx.unflag (v.m.zipIdx.map fun (r : List Int × Nat) => r.1.zipIdx.map fun (e : Int × Nat) =>
    Fx.narrow ((if r.2 = e.2 then ((p : Int) + 1) * 2 ^ 61 else 0) - e.1) (-61 - v.desc.logp) lt)
  let x := Fx.product v.xp v.x (v.xExp - 61) t lt (v.xExp - 61)
  let (tp, lp, f2) := v.squares v.desc.logp 1 t
  let m := Fx.product v.xp tp lp v.m (-61) (-61)
  let v := { v.flagged (f1 || x.2 || f2 || m.2) with x := x.1, m := m.1, prog := v.prog + 1 }
  let norm : Nat := gershgorin (m.1.zipIdx.map fun (r : List Int × Nat) => r.1.zipIdx.map fun (e : Int × Nat) =>
    e.1 - (if r.2 = e.2 then (2 : Int) ^ 61 else 0))
  if norm * 2 ^ v.desc.tolI ≤ (2 ^ 61 : Nat) then
    v.toTest (storeTiles v.asm.n x.1 false (oneAt (v.xExp - 61)).1) false (v.xExp - v.asm.s / (p : Int))
  else v

/-! ## After the last panel -/

/-- What a factorisation makes of its factor (R179): a stored factor, an inverse, a solution. -/
def afterFactor (v : Solve) : Solve :=
  let n := v.asm.n
  let f := v.fac
  match v.desc.op with
  | 1 => v.toTest (storeTiles n f.l true (2 ^ 61)) false 0
  | 2 => v.toTest (storeTiles n f.l true (2 ^ 55) ++ f.d) true 0
  | 4 =>
    let (li, e) := v.invExp
    let (w, f1) := triInverse f v.la (v.rinPlace false) (li - 55)
    let x := Fx.lowerProduct v.xp (Fx.transpose n w) (li - 55) w (li - 55) (e - 55)
    { (v.flagged (f1 || x.2)).toTest (storeTiles n x.1 false (oneAt (e - 55)).1) true (e - v.asm.s) with x := x.1 }
  | 7 =>
    let e := v.solExp
    let (x, f1) := v.solveWith f true (v.rinPlace true) v.asm.b e
    { (v.flagged f1).toTest x true (e + v.asm.sb - v.asm.s) with xs := x }
  | _ => v

/-- TRS from the factor of REF (R179). -/
def trs (v : Solve) : Solve :=
  let (f, lr, f0) := v.refFac
  let e := v.solExp
  let (x, f1) := v.solveWith f v.asm.q8 lr v.asm.b e
  { (v.flagged (f0 || f1)).toTest x true (e + v.asm.sb - v.asm.s) with xs := x, fac := f }

/-! ## Beginning (R165, R186) -/

/-- The blocks PCG has still to factor. -/
def nextBlock (v : Solve) : Option (Nat × Nat) := v.asm.blocks[v.done.length]?

/-- A block's matrix of words (R181). -/
def blockFac (v : Solve) (b : Nat × Nat) : Fac :=
  newFac b.1 b.2 ((List.range b.2).map fun i => (List.range b.2).map fun j => v.gainWord (b.1 + i) (b.1 + j))

/-- The first phase of a solve behind its assembly. -/
def begin_ (warm : Option (List Int × Int)) (v : Solve) : Solve :=
  match v.desc.op with
  | 5 => v.rootStart
  | 6 =>
    if v.desc.pre = 2 then
      match v.nextBlock with
      | some b => { v with phase := .factor, fac := v.blockFac b }
      | none => v.pcgStart warm
    else v.pcgStart warm
  | 3 => { v with phase := .factor, fac := { n := v.asm.n } }
  | _ => { v with phase := .factor, fac := newFac 0 v.asm.n v.asm.a }

/-- Columns a factorisation has panels for. -/
def panelDone (v : Solve) : Bool := decide (v.fac.col ≥ v.fac.n)

/-- PANEL_COMPLETE's arithmetic: the next panel, and what follows the last one. -/
def panelStep (warm : Option (List Int × Int)) (v : Solve) : Solve :=
  match v.desc.op with
  | 3 =>
    let f := { v.fac with col := v.fac.col + 128 }
    let v := { v with fac := f, prog := v.prog + 1 }
    if v.panelDone then v.trs else v
  | 6 =>
    let v := panel false v
    if v.notDef ∨ ¬ v.panelDone then v
    else
      let v := { v with done := v.done ++ [v.fac] }
      match v.nextBlock with
      | some b => { v with fac := v.blockFac b }
      | none => v.pcgStart warm
  | _ =>
    let v := panel v.desc.isQ8 v
    if v.notDef then v
    else
      let v := { v with prog := v.prog + 1 }
      if v.panelDone then v.afterFactor else v

/-- ITERATION_COMPLETE's arithmetic. -/
def iterStep (v : Solve) : Solve := if v.desc.op = 5 then v.rootIter else v.pcgIter

/-! ## Residual tests (R182) -/

/-- A probe vector (R182). -/
def probe (key : DrawKey) (layer n q : Nat) : List Int :=
  (List.range n).map fun j => if key.draw layer j (0x120000 + q) ≥ 2 ^ 31 then -1 else 1

/-- A residual: its elements, their place, what the sticky flag learned, and the place of the last bit of the
accumulator they were summed in. -/
structure Residual where
  e : List Int := []
  place : Int := 0
  ovf : Bool := false
  acc : Int := 0

/-- x - y, summed in the accumulator of x. -/
def residual (acc : Int) (x : List Int × Int × Bool) (y : List Int) (ly : Int) : Residual :=
  let z := Fx.diff acc x.1 x.2.1 y ly
  { e := z.1, place := z.2.1, ovf := x.2.2 || z.2.2, acc := acc }

/-- ρ of a residual: its ∞-norm, exact in the accumulator of 128 bits, narrowed once to Q2.61 (R48, R182). -/
def rho (r : Residual) : Flagged Int :=
  let m : Int := Fx.maxAbs r.e
  let s := satSigned (Fx.accBits r.acc r.place) m
  let w := Fx.narrow s r.place (-61)
  (w.1, r.ovf || s != m || w.2)

/-- The place of an inner vector of L D Lᵀ v, for v a word at place `lw`: its bound is n times that of v, since no entry of L is beyond 1
(R173, R182; log entry 29). -/
def innerPlace (n : Nat) (lw : Int) : Int := lw + Fx.expBound 1 n 1

/-- L D Lᵀ v exact in its last product, D = 1 for a CHOL: the inner vectors are words (log entry 29). -/
def ldlApply (f : Fac) (la : Int) (d : List Int) (v : List Int) (lv lw : Int) : List Int × Int × Bool :=
  let u := Fx.apply (Fx.transpose f.n f.l) v
  let lw := innerPlace f.n lw
  let (w, f1) := Fx.thenNarrow (la + lv) lw u
  let (w, f2) := if d = [] then (w, false) else Fx.unflagV (List.zipWith (fun a b => Fx.narrow (a * b) (la + lw) lw) d w)
  let z := Fx.apply f.l w
  (z.1, la + lw, f1 || f2 || z.2)

/-- (Â + δ̂I + F) v. -/
def floored_ (v : Solve) (x : List Int) : List Int × Bool :=
  let z := Fx.apply v.asm.a x
  let w := Fx.unflagV (z.1.zipIdx.map fun (y : Int × Nat) =>
    Fx.sum y.1 ((v.fac.f.find? fun p => p.1 == y.2).map fun p => p.2 * x.getD y.2 0).toList)
  (w.1, z.2 || w.2)

/-- X applied j times more, each inner vector at the exponent of its power (R180, R182). -/
def rootPowers (v : Solve) (p : Nat) : Nat → List Int → Int → List Int × Int × Bool
  | 0, w, l => (w, l, false)
  | k + 1, w, l =>
    let z := Fx.apply v.x w
    let lz := v.xExp - 61 + l
    if k = 0 then (z.1, lz, z.2)
    else
      let le := v.rootExp (p - k) - 61
      let y := Fx.thenNarrow lz le z
      let r := v.rootPowers p k y.1 le
      (r.1, r.2.1, y.2 || r.2.2)

/-- The residual of one probe. The word of a probe vector is not stated: it is the integer ±1 at place 0, so that the partial sums of Lᵀ v
and of Â v are tested against a range 2^61 times as wide as that of a product of two Q2.61 words (R48, R182; log entry 182). -/
def probeResidual (v : Solve) (pr : List Int) : Residual :=
  let minus (x : List Int × Int × Bool) (y : List Int) (l : Int) : Residual := residual x.2.1 x y l
  match v.desc.op with
  | 4 =>
    let le := v.invExp.2 - 55
    let y := Fx.thenNarrow le le (Fx.apply v.x pr)
    let z := v.floored_ y.1
    minus (z.1, v.la + le, y.2 || z.2) pr 0
  | 5 =>
    let y := Fx.thenNarrow (-61) (-61) (Fx.apply v.asm.a pr)
    let z := v.rootPowers v.rootP v.rootP y.1 (-61)
    minus (z.1, z.2.1, y.2 || z.2.2) pr 0
  | _ =>
    let z := ldlApply v.fac v.la (if v.asm.q8 then v.fac.d else []) pr 0 v.la
    let w := v.floored_ pr
    minus (z.1, z.2.1, z.2.2 || w.2) w.1 v.la

/-- The residual of a solution against its right-hand side. -/
def solutionResidual (v : Solve) : Residual :=
  match v.desc.op with
  | 3 =>
    let z := ldlApply v.fac v.la v.fac.d v.xs v.lx v.lx
    residual z.2.1 z v.asm.b (-61)
  | 7 =>
    let z := Fx.apply v.asm.a v.xs
    residual (v.la + v.lx) (z.1, v.la + v.lx, z.2) v.asm.b (-61)
  | _ =>
    let z := v.gain v.xs v.lx
    residual (v.gainAcc v.lx) (v.asm.b, -61, z.2.2) z.1 z.2.1

/-- The final residual ρ (R182). -/
def finalRho (key : DrawKey) (v : Solve) : Flagged Int :=
  if v.desc.op = 3 ∨ v.desc.op = 6 ∨ v.desc.op = 7 then rho v.solutionResidual
  else
    let one (q : Nat) : Flagged Int := rho (v.probeResidual (probe key v.desc.layer v.asm.n q))
    (max (one 0).1 (one 1).1, (one 0).2 || (one 1).2)

/-- A solve passes when ρ is at most 2^-TOL_F (R182). -/
def passes (v : Solve) (r : Int) : Bool := decide (r * 2 ^ v.desc.tolFinal ≤ 2 ^ 61)

end Solve

end Sys2Proof.Machine
end

