-- ==== Sys2Proof/Machine/Visor.lean ====
section
/-! DEFINITION. The Visor: which tiles are selected, what is captured of a patch, and the check
(spec/08 R219 to R225). -/

namespace Sys2Proof.Machine

namespace Device

def visorUnit (d : Die) : W16 := unitCode 0x07 d.val

/-- The visor mode of a DKIND (R222). -/
def visorMode (s : Device) (d : Die) (dkind : BitVec 3) : Nat :=
  s.fld ((if dkind = 1 then R.VIS_CTL_MODE_F else if dkind = 2 then R.VIS_CTL_MODE_I else R.VIS_CTL_MODE_W).die d)

/-- The tile's logical origin (R219). -/
def originIdx (o : TDesc) : Nat := o.row0.toNat * o.ncols.toNat + o.col0.toNat

/-- Whether a tile is selected (R219). -/
def selected (s : Device) (d : Die) (o : TDesc) : Bool :=
  s.flag (R.VIS_CTL_EN.die d) && decide (1 ≤ o.dkind.toNat ∧ o.dkind.toNat ≤ 3)
    && s.drawKey.draw o.layer.toNat (originIdx o) 0x130000 % 2 ^ s.fld (R.VIS_CTL_RATE.die d) == 0

/-- Capture halves in use (R220): that of a tile from its first operand on. -/
def capturesBusy (s : Device) (d : Die) : Nat :=
  ((s.die d).mitts.flatMap fun m => m.2.tiles.filter fun t => t.capture.any fun c => decide (0 < c.k)).length + (s.die d).checks.length

/-- The wide source of an operand: its address and its format, where that is one the Visor reads (R222; log entry 17). -/
def wideSource (t : TDesc) : Option (Nat × Fmt) :=
  match t.wsrc, (Fmt.ofCode t.wfmt).filter fun g => !g.blocked with
  | some a, some g => some (a, g)
  | _, _ => none

/-- An operand of an instruction that WIDE mode replaces (R222). -/
def hasSource (a b : TDesc) : Bool := (wideSource a).isSome || (wideSource b).isSome

/-- The patch of a selected tile (R219); `wide` once an operand has a WSRC in WIDE mode (R222). -/
def patchOf (s : Device) (d : Die) (o a b : TDesc) (shape : BitVec 2) : Capture :=
  let u := s.drawKey.draw o.layer.toNat (originIdx o) 0x130001
  let (rows, cols) := shapeDims shape
  { r0 := 8 * (u % (rows / 8)), c0 := 8 * (u / 256 % (cols / 8)),
    wideMode := s.visorMode d o.dkind == 2, wide := s.visorMode d o.dkind == 2 && hasSource a b, els := List.replicate 64 {} }

/-- An operand row of the patch that no capture half holds (R220). -/
def rowTooLong (c : Capture) : Bool := decide (max c.aBits c.bBits > 8 * 262144)

def countSkip (s : Device) (d : Die) : Device :=
  (s.event (R.VIS_STAT_SKIP.die d)).count (R.VIS_SKIPS_COUNT.die d) 1

/-- What an operand is taken from: in WIDE mode the source in near memory at the same logical positions (R222;
log entry 17). The flag says that its rows and columns are exchanged. -/
def watched (t : TDesc) (f : Fmt) (wide : Bool) : TDesc × Fmt × Bool :=
  match wide, wideSource t with
  | true, some (a, g) => ({ t with space := .near, addr := a, fmt := t.wfmt, pitch := t.wpitch }, g, t.wtrans)
  | _, _ => (t, f, false)

/-- Products added in ascending k (R221): binary64 sums with RNE, or an exact integer sum. -/
def watchAdd (int : Bool) (w : Watch) (ps : List Val) : Watch :=
  ps.foldl (fun w p =>
    if int then { w with zi := w.zi.add p }
    else
      { w with
        z := FloatFmt.f64.ieee .rne ((FloatFmt.f64.decode w.z).add p)
        sum := FloatFmt.f64.ieee .rne ((FloatFmt.f64.decode w.sum).add p.abs) }) w

/-- An instruction's operands of the patch taken into a capture (R221); those of a continuing instruction have their own sources
(R84, R222). -/
def captureMore (s : Device) (c : Capture) (x : Mma) (af bf : Fmt) (rows cols pos n : Nat) : Capture :=
  let (ta, fa, ra) := watched x.a af c.wideMode
  let (tb, fb, rb) := watched x.b bf c.wideMode
  let a := (List.range 8).map fun i => if c.r0 + i < rows then s.operand ta fa (x.ta != ra) (c.r0 + i) 0 n else []
  let b := (List.range 8).map fun j => if c.c0 + j < cols then s.operand tb fb (x.tb != rb) (c.c0 + j) 0 n else []
  let g := groupSize af
  { c with
    wide := c.wide || (c.wideMode && hasSource x.a x.b), k := c.k + n,
    aBits := c.aBits + n * af.bits, bBits := c.bBits + n * bf.bits, rounds := c.rounds + ((pos + n + g - 1) / g - (pos + g - 1) / g),
    els := c.els.zipIdx.map fun w =>
      watchAdd (intPair af) w.1 (List.zipWith Val.mul (a.getD (w.2 / 8) []) (b.getD (w.2 % 8) [])) }

/-- An instruction's operands of a selected tile: captured, or skipped where both halves are busy at its first operand or a row grows too
long (R220). -/
def watchMore (s : Device) (d : Die) (c : Capture) (x : Mma) (af bf : Fmt) (rows cols pos n : Nat) : Option Capture :=
  if c.k = 0 ∧ s.capturesBusy d ≥ 2 then none
  else (some (s.captureMore c x af bf rows cols pos n)).filter fun c => !rowTooLong c

/-- The patch handed over for its check when the tile drains (R221): the slot values before the derivative. -/
def checkOf (s : Device) (lm : Nat) (t : Tile) (c : Capture) : Check :=
  { cap := c, layer := t.o.layer, dkind := t.o.dkind, lm := lm, row0 := t.o.row0, col0 := t.o.col0,
    kind := t.kind, sr := t.srUsed, step := s.frm.step,
    y := (List.range 64).map fun i =>
      if c.r0 + i / 8 < t.rows ∧ c.c0 + i % 8 < t.cols then t.at_ (c.r0 + i / 8) (c.c0 + i % 8) else {} }

/-! ## The check (R223) -/

inductive CheckResult where
  | uncounted | agree | fault | drift
  deriving DecidableEq, Repr, Inhabited

/-- The unit roundoff of a slot, as a power of two (R223). -/
def roundoff (k : SlotKind) (sr : Bool) : Int := (if k = .w48 then -40 else -24) + (if sr then 1 else 0)
/-- The exponent of the slot format's smallest subnormal (R223). -/
def tiny (k : SlotKind) : Int := if k = .w48 then -165 else -149

/-- The bound of a SAME check: 2 (G u + K 2^-52) S + G t (R223). -/
def sameBound (c : Check) (sum : Val) : Val :=
  let g : Int := c.cap.rounds
  let f := (Val.ofInt g (roundoff c.kind c.sr)).add (Val.ofInt c.cap.k (-52))
  ((f.mul sum).scale 1).add (Val.ofInt g (tiny c.kind))

/-- The result of one patch element and, for a float, its agreement exponent (R223). -/
def checkElem (tol : Nat) (c : Check) (w : Watch) (y : Slot) : CheckResult × Option Int :=
  if c.kind.isInt then
    if y.ovf then (.uncounted, none) else (if ((Val.ofInt y.v 0).add w.zi.neg).isZero then .agree else .fault, none)
  else
    let v := y.value c.kind
    let z := FloatFmt.f64.decode w.z
    let sum := FloatFmt.f64.decode w.sum
    if ¬ v.isFin ∨ ¬ z.isFin then
      let same := (v.isNan && z.isNan) || (v.isInf && z.isInf && v.sign == z.sign)
        || (v.isInf && z.isFin && v.sign == z.sign && c.kind.fmt.maxVal.lt z.abs)
      (if same then .agree else if c.cap.wide then .drift else .fault, none)
    else
      let diff := (v.add z.neg).abs
      let e : Int := match diff, sum with
        | .fin _ m x, .fin _ n f =>
          if m = 0 ∨ n = 0 then -128
          else
            let g := expOf m x - expOf n f
            -- floor(log2 (diff / S)): one less where the quotient of the significands lies below 1
            if (Val.fin false m x).lt ((Val.fin false n f).scale g) then g - 1 else g
        | _, _ => -128
      let bound := if c.cap.wide then sum.scale (-(tol : Int)) else sameBound c sum
      (if bound.lt diff then (if c.cap.wide then .drift else .fault) else .agree, some (max (-128) (min 127 e)))

/-- A Visor log entry (R224); of an integer pair z is whole, or the integer below it where a source is no integer (log entry 17). -/
def visorEntry (c : Check) (i : Nat) (w : Watch) (y : Slot) (res : Nat) : List Byte :=
  leBytes 4 c.step.toNat ++ leBytes 2 c.layer.toNat ++ leBytes 1 (c.dkind.toNat + 8 * res) ++ leBytes 1 c.lm
    ++ leBytes 4 (c.row0.toNat + c.cap.r0 + i / 8) ++ leBytes 4 (c.col0.toNat + c.cap.c0 + i % 8)
    ++ leBytes 8 (codeOf 64 y.v) ++ leBytes 8 (if c.kind.isInt then codeOf 64 (w.zi.units (-298) / 2 ^ 298) else w.z)

/-- A count of the watch record raised, saturating (R217, R223). -/
def bumpRecord (s : Device) (d : Die) (a n : Nat) : Device :=
  s.recording (visorUnit d) [(.near, a, n)] fun s => s.setNear a n (satCount (8 * n) (s.near a n + 1))

/-- A FAULT or a DRIFT: logged, counted in the watch record, reported (R217, R224, R225). -/
def visorReport (s : Device) (d : Die) (c : Check) (i : Nat) (w : Watch) (y : Slot) (fault : Bool) : Device :=
  let (s, idx) := s.ringEntry (visorUnit d) (s.fld (R.VIS_LOG_BASE_UNITS.die d) * 4096) (s.fld (R.VIS_LOG_SIZE_VALUE.die d)) 32
    (R.VIS_LOG_WPTR_NEXT.die d) (R.VIS_LOG_WPTR_WRAPS.die d) (visorEntry c i w y (if fault then 1 else 2))
  let a := s.watchRecord d c.step.toNat c.layer.toNat + (if fault then 0x50 else 0x54)
  let s := s.bumpRecord d a 4
  let s := s.event ((if fault then R.VIS_STAT_FAULT else R.VIS_STAT_DRIFT).die d)
  if s.flag (R.VIS_CTL_EVENT.die d) then
    s.post (if fault then 0x0208 else 0x0209) (if fault ∧ s.flag (R.VIS_CTL_FAULT_FATAL.die d) then 2 else 1) (visorUnit d)
      (BitVec.ofNat 64 (c.step.toNat + c.layer.toNat * 2 ^ 32 + idx * 2 ^ 48))
  else s

/-- The worst agreement exponent of a kind raised (R217, R223). -/
def worstExponent (s : Device) (d : Die) (c : Check) (e : Int) : Device :=
  let a := s.watchRecord d c.step.toNat c.layer.toNat + 0x58 + (c.dkind.toNat - 1)
  s.recording (visorUnit d) [(.near, a, 1)] fun s => if signedOf 8 (s.near a 1) < e then s.setNear a 1 (codeOf 8 e) else s

/-- The oldest captured patch checked (R223). -/
def visorCheck (s : Device) (d : Die) : Device :=
  match (s.die d).checks with
  | [] => s
  | c :: rest =>
    let s := s.onDie d fun x => { x with checks := rest }
    let s := s.count (R.VIS_CHECKS_COUNT.die d) 1
    let a := s.watchRecord d c.step.toNat c.layer.toNat + 0x44 + 4 * (c.dkind.toNat - 1)
    let s := s.bumpRecord d a 4
    let tol := s.fld (R.VIS_CTL_DRIFT_TOL.die d)
    (c.cap.els.zip c.y).zipIdx.foldl (fun s x =>
      let (res, e) := checkElem tol c x.1.1 x.1.2
      let s := match e with
        | some v => s.worstExponent d c v
        | none => s
      match res with
      | .fault => s.visorReport d c x.2 x.1.1 x.1.2 true
      | .drift => s.visorReport d c x.2 x.1.1 x.1.2 false
      | _ => s) s

end Device

/-- VISOR_CHECK_COMPLETE (R223). -/
def execVisorCheckComplete (d : Die) (s : State) : Host.Outcome State Fault Refusal := onDev s fun v => v.visorCheck d

end Sys2Proof.Machine
end

