-- ==== Sys2Proof/Machine/Gauntlet.lean ====
section
/-! DEFINITION. The Gauntlet's queue, the phases of a solve, its end, deadlines, suspension and commit
(spec/06 R163 to R168, R182 to R190, R218, R441). -/

namespace Sys2Proof.Machine

/-- Outcomes of R168. -/
def outPassed : Nat := 1
def outCommitted : Nat := 2
def outCap : Nat := 3
def outResidual : Nat := 4
def outNotDefinite : Nat := 5
def outOverflow : Nat := 6
def outDeadline : Nat := 7
def outSuspended : Nat := 8
def outAbandoned : Nat := 9
def outRefused : Nat := 10

/-- The unit code of a die's Brim and Gauntlet (R377). -/
def gntUnit (d : Die) : W16 := unitCode 0x03 d.val

/-- The 4,096 bytes of a copy header (R167). -/
def copyHeader (v : Solve) (outcome : Nat) (rho : Int) (digest : W64) : List Byte :=
  let x := v.desc
  leBytes 1 x.op ++ leBytes 1 outcome ++ leBytes 1 (b2n (x.op ≠ 1 ∧ x.op ≠ 5)) ++ leBytes 1 0 ++ leBytes 2 (codeOf 16 v.er)
    ++ leBytes 2 (min v.prog 0xFFFF) ++ leBytes 4 x.n ++ leBytes 4 v.floored ++ leBytes 8 (codeOf 64 rho)
    ++ leBytes 8 (if x.src = 0 ∧ x.op ≠ 3 then v.asm.inputStep else v.step.toNat)
    ++ leBytes 8 (if x.src = 0 ∧ x.op ≠ 3 then v.asm.rows else 0) ++ leBytes 8 digest.toNat
    ++ leBytes 2 (codeOf 16 v.asm.s) ++ leBytes 2 (codeOf 16 v.asm.sb) ++ leBytes 4 0 ++ leBytes 8 (codeOf 64 v.asm.lam)
    ++ ((List.range 64).flatMap fun i => match v.pivots[i]? with
        | some p => leBytes 4 p.1 ++ leBytes 4 p.2.1 ++ leBytes 8 (codeOf 64 p.2.2)
        | none => leBytes 16 0)
    ++ leBytes 3008 0

namespace Device

def gnt (s : Device) (d : Die) : Gnt := (s.die d).gnt
def onGnt (s : Device) (d : Die) (f : Gnt → Gnt) : Device := s.onDie d fun x => { x with gnt := f x.gnt }

/-! ## The end of an attempt (R167, R168, R188, R190) -/

/-- The copy that a new attempt writes: the one not in force (R441). -/
def newCopy (s : Device) (x : SDesc) : Nat := match s.near x.result 1 with
  | 0 => 1
  | 1 => 0
  | _ => 0

/-- The copy and the slot record written where the result area is usable (R163, R167, R168). -/
def writeResult (s : Device) (v : Solve) (outcome : Nat) (rho : Int) : Device :=
  let x := v.desc
  if ¬ s.areaOk x then s
  else
    let a := x.result + 4096 + s.newCopy x * s.resultCopySize x
    let ws := if outcome = outPassed ∨ outcome = outResidual then v.data else []
    let digest := ws.zipIdx.foldl (fun (z : W64) (w : Int × Nat) => z + elemDigest 5 x.layer w.2 (codeOf 64 w.1)) 0
    let s := s.writeBytes .near (a + 4096) (ws.flatMap fun w => leBytes 8 (codeOf 64 w))
    let s := s.writeBytes .near a (copyHeader v outcome rho digest)
    let s := s.setNear (x.result + 1) 1 outcome
    if outcome = outPassed then s else s.setNear (x.result + 2) 2 (satCount 16 (s.near (x.result + 2) 2 + 1))

/-- A deadline-record entry (R188). -/
def deadlineRecord (s : Device) (d : Die) (v : Solve) (outcome : Nat) (rho : Int) : Device :=
  if ¬ s.flag (R.GNT_CTL_DLR_EN.die d) then s
  else (s.ringEntry (gntUnit d) (s.fld (R.GNT_DLR_BASE_UNITS.die d) * 4096) (s.fld (R.GNT_DLR_SIZE_ENTRIES.die d)) 32
    (R.GNT_DLR_WPTR_NEXT.die d) (R.GNT_DLR_WPTR_WRAPS.die d)
    (leBytes 8 s.frm.count.toNat ++ leBytes 4 s.frm.step.toNat ++ leBytes 2 v.index ++ leBytes 1 outcome ++ leBytes 1 v.desc.op
      ++ leBytes 4 v.prog ++ leBytes 4 v.floored ++ leBytes 8 (codeOf 64 rho))).1

/-- The status bit of an outcome (R190). -/
def outcomeEvent (s : Device) (d : Die) (outcome : Nat) : Device :=
  if outcome = outNotDefinite then s.event (R.GNT_STAT_NOT_DEF.die d)
  else if outcome = outOverflow then s.event (R.GNT_STAT_OVF.die d)
  else if outDeadline ≤ outcome ∧ outcome ≤ outAbandoned then s.event (R.GNT_STAT_DEADLINE.die d)
  else s

/-- SOLVE_FAILED and the counts of a failed attempt (R190). -/
def countFailure (s : Device) (d : Die) (v : Solve) (outcome : Nat) : Device :=
  if outcome = outPassed ∨ outcome = outSuspended then s
  else
    let s := (s.event (R.GNT_STAT_FAIL.die d)).count (R.GNT_FAILS_COUNT.die d) 1
    if s.flag (R.GNT_CTL_EVENT.die d) then s.post 0x0204 1 (gntUnit d) (BitVec.ofNat 64 v.index) else s

/-- An attempt ends (R168). Where its descriptor has a PASSED attempt of the step that is not committed yet, this end takes its place: a PASSED
one is what the tick commits, any other leaves it nothing to commit (R185; DESIGN CHOICE, log entry 198). -/
def endSolve (s : Device) (d : Die) (v : Solve) (outcome : Nat) (rho : Int) : Device :=
  let x := v.desc
  let pass : Passed := { index := v.index, result := x.result, copy := s.newCopy x, size := s.resultCopySize x }
  let s := s.onGnt d fun g => { g with
    run := if (g.run.map (·.index)) = some v.index then none else g.run,
    brim := if (g.brim.map (·.index)) = some v.index then none else g.brim,
    susp := if outcome = outSuspended then g.susp ++ [{ v with replay := none }] else g.susp,
    passed := (g.passed.filter fun p => p.index != v.index) ++ if outcome = outPassed then [pass] else [] }
  let s := s.writeResult v outcome rho
  let s := s.deadlineRecord d v outcome rho
  (s.outcomeEvent d outcome).countFailure d v outcome

/-! ## Replay (R189) -/

/-- The recorded outcome and progress of an attempt of this step. -/
def replayEntry (s : Device) (d : Die) (index : Nat) : Option (Nat × Nat) :=
  let base := s.fld (R.GNT_RPL_BASE_UNITS.die d) * 4096
  ((List.range (s.fld (R.GNT_RPL_SIZE_ENTRIES.die d))).find? fun i =>
    s.near (base + 32 * i + 8) 4 == s.frm.step.toNat && s.near (base + 32 * i + 12) 2 == index).map fun i =>
      (s.near (base + 32 * i + 14) 1, s.near (base + 32 * i + 16) 4)

def replaying (s : Device) (d : Die) : Bool := s.flag (R.GNT_CTL_REPLAY.die d)

/-- A replay that does not match its record: job-fatal. -/
def replayMismatch (s : Device) (d : Die) (index : Nat) : Device :=
  (s.event (R.GNT_STAT_REPLAY_ERR.die d)).post 0x0205 2 (gntUnit d) (BitVec.ofNat 64 index)

/-- The attempt's own end, held against its record. -/
def endOwn (s : Device) (d : Die) (v : Solve) (outcome : Nat) (rho : Int) : Device :=
  match v.replay with
  | some (o, _) =>
    if (o = outPassed ∨ (outCap ≤ o ∧ o ≤ outOverflow)) ∧ o ≠ outcome then
      (s.endSolve d v outcome rho).replayMismatch d v.index
    else s.endSolve d v outcome rho
  | none => s.endSolve d v outcome rho

/-- An attempt whose source or descriptor is refused (R163). -/
def refuseSolve (s : Device) (d : Die) (v : Solve) (descErr : Bool) : Device :=
  (if descErr then s.event (R.GNT_STAT_DESC_ERR.die d) else s).endOwn d v outRefused (-1)

/-- The recorded outcome at which the attempt stops where it stands now. -/
def recordedStop (v : Solve) : Option Nat := match v.replay with
  | some (o, p) => if outDeadline ≤ o ∧ o ≤ outAbandoned ∧ v.prog ≥ p then some o else none
  | none => none

/-! ## Queueing (R164) -/

/-- A descriptor that is queued, assembled, running or suspended. -/
def solveBusy (g : Gnt) (i : Nat) : Bool :=
  (g.queue.any fun q => match q with
    | .fresh k _ => k == i
    | .held v => v.index == i)
  || g.brim.map (·.index) == some i || g.run.map (·.index) == some i || g.susp.any fun v => v.index == i

/-- An attempt begins: under REPLAY it looks its entry up, and having none does not match (R189). -/
def lookUp (s : Device) (d : Die) (v : Solve) : Device × Solve :=
  let e := if s.replaying d then s.replayEntry d v.index else none
  (if s.replaying d ∧ e = none then s.replayMismatch d v.index else s, { v with replay := e })

/-- With EN = 0 every queued solve ends with REFUSED_INPUT (R190), an end of its own (R189). -/
def purgeQueue (s : Device) (d : Die) : Device :=
  if s.flag (R.GNT_CTL_EN.die d) then s
  else
    let q := (s.gnt d).queue
    q.foldl (fun s x => s.whileOn fun s =>
      let v : Solve := match x with
        | .fresh i st => { index := i, step := st, desc := s.solveDesc d i }
        | .held v => v
      let (s, v) := s.lookUp d v
      s.refuseSolve d v false) (s.onGnt d fun g => { g with queue := [] })

/-- A solve on a factor of a frozen layer: the device issues none (R117; log entry 160). -/
def frozenSolve (s : Device) (d : Die) (i : Nat) : Bool :=
  let x := s.solveDesc d i
  x.src == 0 && x.op != 3 && s.frozenLayer x.layer

/-- A descriptor appended to the queue, or refused as busy (R164). -/
def queueSolve (s : Device) (d : Die) (i : Nat) (step : W32) : Device :=
  if s.frozenSolve d i then s
  else if solveBusy (s.gnt d) i then
    (s.event (R.GNT_STAT_BUSY.die d)).count (R.GNT_BUSY_CNT_COUNT.die d) 1
  else s.onGnt d fun g => { g with queue := g.queue ++ [.fresh i step] }

/-- GSOLVE (R164). -/
def gsolve (s : Device) (d : Die) (i : Nat) : Device :=
  if i = 65535 then s.event (R.GNT_STAT_DESC_ERR.die d)
  else (s.queueSolve d i s.frm.step).purgeQueue d

/-- Step start (order 7): suspended solves take the head, then the periodic ones join (R164, R187). -/
def gntStepStart (s : Device) (d : Die) : Device :=
  let s := s.onGnt d fun g => { g with queue := g.susp.map .held ++ g.queue, susp := [] }
  let base := s.fld (R.GNT_SDT_BASE_UNITS.die d) * 4096
  let due := (List.range 65535).filter fun i =>
    let p := s.near (base + 64 * i + 5) 1
    p != 0 && s.frm.step.toNat % p == s.near (base + 64 * i + 6) 1
  (due.foldl (fun s i => s.queueSolve d i s.frm.step) s).purgeQueue d

/-! ## Assembly (R159, R165) -/

/-- Rows of the matrix a solve works on: n, and for KKT the constraints (R175). -/
def solveSize (s : Device) (x : SDesc) : Nat := x.n + s.constraints x

/-- An operation that runs tiled through the home stacks (R175). -/
def tiled (s : Device) (x : SDesc) : Bool := match x.op with
  | 5 => decide (x.n > 1024)
  | 6 => x.src != 2 && decide (x.n > 1024)
  | _ => decide (s.solveSize x > 2048)

/-- Scratch tiles of the matrix the Brim assembles; a tiled operation's tiles go to near memory, and PCG on a
Jacobian holds integers (R165, R166, R170). -/
def matrixTiles (s : Device) (x : SDesc) : Nat :=
  if s.tiled x ∨ (x.op = 6 ∧ x.src = 2) then 0 else triTiles (s.solveSize x)

/-- Scratch tiles a running solve holds (R175): ROOT five triangles, INV the factor and its inverse. -/
def footprint (s : Device) (x : SDesc) : Nat :=
  let t := triTiles (s.solveSize x)
  min 192 (match x.op with
    | 4 => 2 * t
    | 5 => 5 * t
    | 6 => if x.src = 2 then triTiles 2048 else t
    | _ => t)

/-- Scratch tiles that a suspended solve keeps; a tiled one has them in near memory (R187). -/
def keptTiles (s : Device) (x : SDesc) : Nat := if s.tiled x then 0 else s.footprint x

/-- The suspended solves, those that wait at the head of the queue among them (R164, R187). -/
def suspended (g : Gnt) : List Solve :=
  (g.queue.filterMap fun q => match q with
    | .held v => some v
    | .fresh _ _ => none) ++ g.susp

/-- Whether the matrix of the next solve fits in the scratch that the current one and the suspended ones leave (R165, R187). -/
def matrixFits (s : Device) (d : Die) (x : SDesc) : Bool :=
  let g := s.gnt d
  let busy := (g.run.map fun r => s.footprint r.desc).getD 0 + ((suspended g).map fun v => s.keptTiles v.desc).sum
  busy == 0 || decide (busy + s.matrixTiles x ≤ 192)

/-- The first queued solve that the Brim has to assemble. -/
def nextFresh (q : List QItem) : Option (Nat × W32) := q.findSome? fun x => match x with
  | .fresh i st => some (i, st)
  | .held _ => none

/-- A fold of the source's side is due (R159). -/
def foldPending (s : Device) (d : Die) (x : SDesc) : Bool :=
  x.src == 0 && (s.cuff d).folds.any fun f => f.desc.base == x.srcAddr

/-- The factors of the source's layer are moving to this device (R158, R291): a solve reads them after the move. -/
def foldMoves (s : Device) (x : SDesc) : Bool :=
  x.src == 0 && s.fab.migrating.any fun e => s.entryLayer e == x.layer

/-- ASSEMBLY_START (R165): the source is taken as it stands now (R179). -/
def assemblyStart (s : Device) (d : Die) : Device :=
  if ¬ s.flag (R.GNT_CTL_EN.die d) then s.purgeQueue d
  else match (s.gnt d).brim, nextFresh (s.gnt d).queue with
    | none, some (i, st) =>
      let x := s.solveDesc d i
      if s.foldPending d x ∨ s.foldMoves x ∨ ¬ s.matrixFits d x then s
      else
        let (s, v) := s.lookUp d { index := i, step := st, desc := x, asm := s.assembly d x st.toNat }
        -- a replay without an entry has ended the job, and every solve with it (R187)
        if (s.gnt d).queue = [] then s
        else
        let s := s.onGnt d fun g => { g with queue := g.queue.erase (.fresh i st), brim := some v }
        match recordedStop v with
        | some o => if o = outSuspended then s else s.endSolve d v o (-1)
        | none => s
    | _, _ => s

/-- ASSEMBLY_COMPLETE (R172): assembled, refused, or stopped by a sticky flag. -/
def assemblyComplete (s : Device) (d : Die) : Device :=
  match (s.gnt d).brim with
  | some v =>
    if v.phase ≠ .assemble then s
    else if v.asm.refused then s.refuseSolve d v v.asm.descErr
    else if v.asm.ovf ∨ v.asm.inv then s.endOwn d v outOverflow (-1)
    else s.onGnt d fun g => { g with brim := some { v with phase := .assembled } }
  | none => s

/-! ## Running -/

/-- The result in force that a warm start begins from (R181). -/
def warmStart (s : Device) (x : SDesc) : Option (List Int × Int) :=
  if ¬ x.warm then none
  else match s.inForce x with
    | some c => if s.near (c + 8) 4 ≠ x.n then none
      else some ((List.range x.n).map fun i => signedOf 64 (s.near (c + 4096 + 8 * i) 8),
        signedOf 16 (s.near (c + 4) 2) - if s.near (c + 2) 1 = 1 then 55 else 61)
    | none => none

/-- A unit of work has ended: the solve stops on a flag, on NOT_DEFINITE, at its cap or where its record says
so, or runs on (R178, R183, R184, R189). Of a flag and NOT_DEFINITE in one unit, NOT_DEFINITE is the outcome (DESIGN CHOICE, log
entry 197). -/
def unitDone (s : Device) (d : Die) (v : Solve) : Device :=
  let die := s.die d
  if v.notDef then s.endOwn d v outNotDefinite (-1)
  else if v.ovf ∨ v.inv ∨ die.solveOvf ∨ die.solveInv then s.endOwn d v outOverflow (-1)
  else match recordedStop v with
    | some o => s.endSolve d v o (-1)
    | none =>
      if v.phase = .iterate ∧ v.prog ≥ v.desc.iters then s.endOwn d v outCap (-1)
      else s.onGnt d fun g => { g with run := some v }

/-- SOLVE_START (R165, R184, R187): a suspended solve resumes, or the assembled one begins; the sticky flags clear. -/
def solveStart (s : Device) (d : Die) : Device :=
  if (s.gnt d).run.isSome then s
  else
    let clear (s : Device) : Device := s.onDie d fun x => { x with solveOvf := false, solveInv := false }
    match (s.gnt d).queue, (s.gnt d).brim with
    | .held v :: rest, _ =>
      let (s, v) := s.lookUp d { v with resumes := v.resumes + 1 }
      if (s.gnt d).queue = [] then s
      else (clear (s.onGnt d fun g => { g with queue := rest, run := some v })).unitDone d v
    | _, some v =>
      if v.phase ≠ .assembled then s
      else
        let v := v.begin_ (s.warmStart v.desc)
        (clear (s.onGnt d fun g => { g with brim := none, run := some v })).unitDone d v
    | _, none => s

/-- Every pass that the Gauntlet has issued to the die's mitts has drained into its accumulator (R103, R104): a unit of work with a product
on the mitts is not complete before. -/
def passesDone (s : Device) (d : Die) : Bool :=
  (s.die d).mitts.all fun m => m.2.fx == [] && m.2.tiles.all fun t => match t.purpose with | .fx _ => false | _ => true

/-- PANEL_COMPLETE (R177, R178). -/
def panelComplete (s : Device) (d : Die) : Device := match (s.gnt d).run with
  | some v => if v.phase = .factor then s.unitDone d (v.panelStep (s.warmStart v.desc)) else s
  | none => s

/-- ITERATION_COMPLETE (R180, R181, R183). -/
def iterationComplete (s : Device) (d : Die) : Device := match (s.gnt d).run with
  | some v => if v.phase = .iterate then s.unitDone d v.iterStep else s
  | none => s

/-- FINAL_TEST_COMPLETE (R182 to R184). -/
def finalTest (s : Device) (d : Die) : Device := match (s.gnt d).run with
  | some v =>
    if v.phase ≠ .test then s
    else
      let r := v.finalRho s.drawKey
      if r.2 ∨ v.ovf ∨ v.inv ∨ (s.die d).solveOvf ∨ (s.die d).solveInv then s.endOwn d v outOverflow (-1)
      else if v.passes r.1 then s.endOwn d v outPassed r.1
      else s.endOwn d v outResidual r.1
  | none => s

/-! ## Ticks (R185 to R187) -/

/-- A suspension, or ABANDONED once it has resumed RESUME_MAX times (R186, R187). -/
def suspend (s : Device) (d : Die) (v : Solve) : Device :=
  s.endSolve d v (if v.resumes ≥ s.fld (R.GNT_CTL_RESUME_MAX.die d) then outAbandoned else outSuspended) (-1)

/-- Operations that can be resumed (R186). -/
def resumable (v : Solve) : Bool := v.desc.resume && (v.desc.op == 1 || v.desc.op == 2 || v.desc.op == 4 || v.desc.op == 7)

/-- The deadline of order 1 under HARD (R186); a solve that an earlier tick of the step suspended is suspended again. -/
def gntDeadline (s : Device) (d : Die) : Device :=
  if s.replaying d then s
  else
    let g := s.gnt d
    let s := s.onGnt d fun g => { g with queue := [], susp := [] }
    let s := g.susp.foldl (fun s v => s.whileOn fun s => s.suspend d v) s
    let s := s.whileOn fun s => match g.run with
      | some v => if resumable v ∧ (v.phase = .factor ∨ v.phase = .test) then s.suspend d v else s.endSolve d v outDeadline (-1)
      | none => s
    let s := s.whileOn fun s => match g.brim with
      | some v => s.endSolve d v outDeadline (-1)
      | none => s
    g.queue.foldl (fun s x => s.whileOn fun s => match x with
      | .fresh i st => s.endSolve d { index := i, step := st, desc := s.solveDesc d i } outDeadline (-1)
      | .held v => s.suspend d v) s

/-- Order 2: every PASSED solve commits, in ascending descriptor index (R185). -/
def gntCommit (s : Device) (d : Die) : Device :=
  let ps := sortBy (fun a b => a.index ≤ b.index) (s.gnt d).passed
  ps.foldl (fun s p =>
    let s := s.setNear p.result 1 p.copy
    let s := s.setNear (p.result + 1) 1 outCommitted
    let s := s.setNear (p.result + 2) 2 0
    let s := s.setNear (p.result + 4) 4 s.frm.step.toNat
    let s := s.setNear (p.result + 8) 8 s.frm.count.toNat
    let s := s.setNear (p.result + 4096 + p.copy * p.size + 1) 1 outCommitted
    s.count (R.GNT_COMMITS_COUNT.die d) 1) (s.onGnt d fun g => { g with passed := [] })

/-- Every solve of the step has ended (R19). -/
def solvesEnded (s : Device) (d : Die) : Bool :=
  let g := s.gnt d
  g.queue == [] && g.brim.isNone && g.run.isNone

/-- GNT_STAT.STATE (R190). -/
def gntState (g : Gnt) : Nat := match g.run, suspended g, g.brim with
  | some v, _, _ => (match v.phase with
    | .assemble | .assembled => 1
    | .factor => 2
    | .iterate => 3
    | .test => 4)
  | none, _ :: _, _ => 6
  | none, [], some _ => 1
  | none, [], none => if g.passed ≠ [] then 5 else 0

/-- GNT_RUN (R190): the running or suspended solve and its progress. -/
def gntRun (g : Gnt) : Nat × Nat := match g.run, suspended g with
  | some v, _ => (v.index, min v.prog 0xFFFF)
  | none, v :: _ => (v.index, min v.prog 0xFFFF)
  | none, [] => (0xFFFF, 0)

end Device

/-- SOLVE_START (R165). -/
def execSolveStart (d : Die) (s : State) : Host.Outcome State Fault Refusal := onLanes s d fun v => v.solveStart d
/-- ASSEMBLY_START (R165): the Brim is no issuing unit (R386). -/
def execAssemblyStart (d : Die) (s : State) : Host.Outcome State Fault Refusal := onDev s fun v => v.assemblyStart d
/-- ASSEMBLY_COMPLETE (R172). -/
def execAssemblyComplete (d : Die) (s : State) : Host.Outcome State Fault Refusal := onDev s fun v => v.assemblyComplete d
/-- PANEL_COMPLETE (R177). -/
def execPanelComplete (d : Die) (s : State) : Host.Outcome State Fault Refusal := onLanes s d fun v => if v.passesDone d then v.panelComplete d else v
/-- ITERATION_COMPLETE (R180, R181). -/
def execIterationComplete (d : Die) (s : State) : Host.Outcome State Fault Refusal := onLanes s d fun v => if v.passesDone d then v.iterationComplete d else v
/-- FINAL_TEST_COMPLETE (R182). -/
def execFinalTestComplete (d : Die) (s : State) : Host.Outcome State Fault Refusal := onLanes s d fun v => v.finalTest d

end Sys2Proof.Machine
end

