-- ==== Sys2Proof/Machine/Elementary.lean ====
section
/-! DEFINITION. The elementary functions that the spec holds to 2 ulp: 2^x, log2 x, and the derivatives of R113. Each is formed in
fixed point with 512 fraction bits, far finer than an FP32 ulp anywhere, and only bounds the value that the part's own unit gives
(spec/04 R113, R114; spec/07 R204, R205; log entry 5). -/

namespace Sys2Proof.Machine

namespace Elementary

/-- Fraction bits, and the fixed-point word of 1. -/
def places : Nat := 512
def one : Int := 2 ^ places
/-- Product and quotient of fixed-point words. -/
def mul (a b : Int) : Int := a * b / one
def quot (a b : Int) : Int := a * one / b
/-- A value as a fixed-point word; its exponent is at or above -512. -/
def word (v : Val) : Int := v.units (-(places : Int))
def value (w : Int) : Val := .ofInt w (-(places : Int))

/-- ln 2: the sum of 1 / (n 2^n). -/
def ln2 : Int := ((List.range places).map fun (n : Nat) => one / ((n + 1 : Int) * 2 ^ (n + 1))).sum
/-- arctan (1 / n). -/
def atanInv (n : Int) : Int :=
  ((List.range 240).map fun (k : Nat) => (if k % 2 = 0 then 1 else -1) * (one / ((2 * k + 1 : Int) * n ^ (2 * k + 1)))).sum
def pi : Int := 16 * atanInv 5 - 4 * atanInv 239
/-- The square root of 2 / pi. -/
def rootTwoOverPi : Int := Val.isqrt (2 * one * one * one / pi).toNat

/-- e^r for a word r from 0 to 1, by its series. -/
def expUnit (r : Int) : Int :=
  ((List.range 128).foldl (fun (z : Int × Int) n => (z.1 + z.2, mul z.2 r / (n + 1))) (0, one)).1
/-- e^(-x) for a word x at or above 0. -/
def expNeg (x : Int) : Int :=
  if x ≥ 1024 * one then 0
  else
    let k := x / ln2
    quot one (expUnit (x - k * ln2)) / 2 ^ k.toNat
/-- The logistic function. -/
def sigma (z : Int) : Int :=
  let e := expNeg (if z < 0 then -z else z)
  if z < 0 then quot e (one + e) else quot one (one + e)

/-- 2^x for a value x below 128. -/
def exp2 (x : Val) : Val :=
  let w := word x
  let i := w / one
  if i < -1024 then .zero else (value (expUnit (mul (w - i * one) ln2))).scale i

/-- log2 of m * 2^e. -/
def log2 (m : Nat) (e : Int) : Val :=
  let b := Nat.log2 m
  let t := ((m : Int) - 2 ^ b) * one / (m + 2 ^ b)
  let ln := 2 * ((List.range 200).foldl (fun (z : Int × Int) k => (z.1 + z.2 / (2 * k + 1), mul (mul z.2 t) t)) (0, t)).1
  value ((b + e) * one + quot ln ln2)

/-- The derivative of code 0x4: the tanh form of GELU, whose (1 + tanh u) / 2 is the logistic function of 2u (R113). -/
def geluSlope (z : Int) : Int :=
  if z ≥ 64 * one then one else if z ≤ -64 * one then 0
  else
    let c := 44715 * one / 1000000
    let zz := mul z z
    let u := mul rootTwoOverPi (z + mul c (mul z zz))
    let du := mul rootTwoOverPi (one + 3 * mul c zz)
    sigma (2 * u) + 2 * mul (mul z du) (mul (sigma (2 * u)) (sigma (-2 * u)))

/-- The derivative of code 0x5 (R113). -/
def siluSlope (z : Int) : Int :=
  if z ≥ 1024 * one then one else if z ≤ -1024 * one then 0 else mul (sigma z) (one + mul z (sigma (-z)))

/-- The factor of codes 0x4 to 0x7 for a finite side value, before its rounding (R113). -/
def slope (code : Nat) (z : Val) : Val :=
  match code with
  | 4 => value (geluSlope (word z))
  | 5 => value (siluSlope (word z))
  | 6 => z.mul ((Val.ofInt 1 0).add z.neg)
  | _ => (Val.ofInt 1 0).add (z.mul z).neg

/-- An FP32 code within 2 ulp of a value. -/
def near (c : W32) (v : Val) : Bool :=
  let q : Int := match v with
    | .fin _ m e => if m = 0 then -149 else max (expOf m e - 23) (-149)
    | _ => 0
  let gap := ((FloatFmt.fp32.decode c.toNat).add v.neg).abs
  gap.isFin && !(Val.ofInt 1 (q + 1)).lt gap

/-- What the part's unit gives, where it keeps the bound of 2 ulp; else the value rounded to nearest (R114, R204). -/
def held (unit : W32) (v : Val) : W32 := if near unit v then unit else BitVec.ofNat 32 (FloatFmt.fp32.ieee .rne v)

end Elementary

end Sys2Proof.Machine
end

