-- ==== Sys2Proof/Machine/Vector.lean ====
section
/-! DEFINITION. The convert, split, narrow and maximum instructions of the vector engines
(spec/02 R50 to R66). -/

namespace Sys2Proof.Machine

/-- The unit code of a die's vector engines (R377). -/
def vecUnit (d : Die) : W16 := unitCode 0x05 d.val

open TDescOps

namespace Device

/-- A refused vector instruction: an illegal-instruction fault, nothing written (R51, R58, R376). -/
def refuseVec (s : Device) (d : Die) (iaddr : W64) : Device := s.postIllegal (vecUnit d) iaddr

/-- The stored weights of frozen matrices in this device's near memory (R117). -/
def frozenRanges (s : Device) : List (Space × Nat × Nat) :=
  (s.fab.frozen.filter (·.own)).map fun z => (.near, z.addr, z.len)
/-- A destination whose elements or scale bytes lie in the stored weight of a frozen matrix (R117). -/
def frozenTarget (s : Device) (t : TDesc) (f : Fmt) : Bool := touch (ranges t f) s.frozenRanges

/-- A destination every instruction refuses: a reserved DKIND, a frozen matrix, a rank outside 1 to 256 (R215, R117, R118). -/
def badDest (s : Device) (t : TDesc) (f : Fmt) : Bool := t.dkind > 4 || s.frozenTarget t f || !rankOk t

/-- An element of a source, read with rows and columns exchanged where TSRC is set (R109). -/
def srcElem (s : Device) (t : TDesc) (f : Fmt) (r c : Nat) : Val := if t.tsrc then s.elem t f c r else s.elem t f r c
def srcCode (s : Device) (t : TDesc) (f : Fmt) (r c : Nat) : Nat :=
  if t.tsrc then s.elemCode t f c r else s.elemCode t f r c

/-- The values a source gives for the positions of a destination. -/
def srcRows (s : Device) (src dst : TDesc) (f : Fmt) : List (List Val) :=
  (List.range dst.rows).map fun r => (List.range dst.cols).map fun c => s.srcElem src f r c

/-- The sticky flags of conversions to integers and Q words (R53). -/
def cvtFlags (s : Device) (d : Die) (f : Fmt) (cs : List Conv) : Device :=
  if f.fixed?.isSome then
    let s := if cs.any (·.ovf) then s.event (R.VEC_STAT_CVT_OVF.die d) else s
    if cs.any (·.nan) then s.event (R.VEC_STAT_CVT_INV.die d) else s
  else s

/-- The destination of a convert instruction with the instruction's own block size and HIST bit (R57). -/
def destOf (x : Vec) : TDesc := { x.dst with bs := x.bs, hist := x.hist }
/-- The source with the instruction's block size. -/
def sourceOf (x : Vec) : TDesc := { x.src with bs := x.bs }
/-- The draw number of a convert instruction (R100). -/
def vecDraw (t : TDesc) : Nat := 0x100000 + t.drawTag.toNat

/-- Values converted into a destination with its flags, counts and digest (R50 to R53). -/
def convertInto (s : Device) (d : Die) (x : Vec) (f : Fmt) (rows : List (List Val)) : Device :=
  let (s, cs) := s.writeTensor d (destOf x) f x.rnd x.inf (vecDraw x.dst) rows fun _ _ => false
  s.cvtFlags d f cs

/-- Codes written as they are into a plain destination, counted and digested with the values they read as. -/
def writeCodes (s : Device) (d : Die) (t : TDesc) (f : Fmt) (rows : List (List (Conv × Val))) : Device :=
  let w := rows.zipIdx.foldl (fun (w : Written) (row : List (Conv × Val) × Nat) =>
    let one := w.dev.writePlainRow t f row.2 (row.1.map (·.1))
    { dev := one.dev, counts := w.counts ++ row.1, bits := w.bits ++ one.bits }) { dev := s }
  let s := (w.dev.histogram t w.counts).digest d t w.bits
  s.cvtFlags d f (w.counts.map (·.1))

/-! ## VCVT, VCVT.B, VCVT.U -/

/-- VCVT (R57): plain formats, one rounding; the 48-bit form beside a Q source takes that word's scale (R58), and one that is itself
the source, or has no Q source, the free scale of log entry 15. -/
def vcvt (s : Device) (d : Die) (x : Vec) : Device :=
  match Fmt.ofCode x.srcf, Fmt.ofCode x.dstf with
  | some sf, some df =>
    if x.rnd = 3 ∨ sf.blocked ∨ df.blocked ∨ s.badDest x.dst df ∨ ¬ rankOk x.src then s.refuseVec d x.iaddr
    else s.accessing (vecUnit d) (ranges x.src sf ++ ranges x.dst df) fun s =>
      s.convertInto d x (df.beside sf) (s.srcRows x.src x.dst sf)
  | _, _ => s.refuseVec d x.iaddr

/-- VCVT.B (R55, R57): from FP32, BF16 or FP16 into a block-scaled format. -/
def vcvtB (s : Device) (d : Die) (x : Vec) : Device :=
  match Fmt.ofCode x.srcf, Fmt.ofCode x.dstf with
  | some sf, some df =>
    if x.rnd = 3 ∨ ¬ sf.wide ∨ ¬ df.blocked ∨ s.badDest x.dst df ∨ ¬ rankOk x.src then s.refuseVec d x.iaddr
    else s.accessing (vecUnit d) (ranges x.src sf ++ ranges (destOf x) df) fun s =>
      s.convertInto d x df (s.srcRows x.src x.dst sf)
  | _, _ => s.refuseVec d x.iaddr

/-- VCVT.U (R57): from a block-scaled format into a plain one. -/
def vcvtU (s : Device) (d : Die) (x : Vec) : Device :=
  match Fmt.ofCode x.srcf, Fmt.ofCode x.dstf with
  | some sf, some df =>
    if x.rnd = 3 ∨ ¬ sf.blocked ∨ df.blocked ∨ s.badDest x.dst df ∨ ¬ rankOk x.src then s.refuseVec d x.iaddr
    else s.accessing (vecUnit d) (ranges (sourceOf x) sf ++ ranges x.dst df) fun s =>
      s.convertInto d x df (s.srcRows (sourceOf x) x.dst sf)
  | _, _ => s.refuseVec d x.iaddr

/-! ## Splits -/

/-- The top BF16 piece of an FP32 value with its overflow (R52, R59). A magnitude that rounds beyond BF16 saturates whatever the
instruction's INF bit is, for with an infinite piece the others could not make up the value: DESIGN CHOICE, log entry 187. -/
def topPiece (code : Nat) : Conv := convFloat .bf16 .rne false (FloatFmt.fp32.decode code)

/-- The BF16 pieces of an FP32 value (R59). -/
def splitF (code : Nat) : Nat × Nat × Nat :=
  let v := FloatFmt.fp32.decode code
  let b (w : Val) : Nat := (convFloat .bf16 .rne false w).code
  match v with
  | .fin n 0 _ => let z := FloatFmt.bf16.withSign n 0; (z, z, z)
  | .fin .. =>
    let x0 := b v
    let r1 := v.add (FloatFmt.bf16.decode x0).neg
    let x1 := b r1
    (x0, x1, b (r1.add (FloatFmt.bf16.decode x1).neg))
  | _ => (b v, 0, 0)

/-- The i-th piece. -/
def pieceF (i code : Nat) : Nat := match i with
  | 0 => (splitF code).1
  | 1 => (splitF code).2.1
  | _ => (splitF code).2.2

/-- The i-th piece as an element written: the top one counts as overflow where it saturated (R52, R65). -/
def convPieceF (i code : Nat) : Conv := { code := pieceF i code, ovf := i == 0 && (topPiece code).ovf }

/-- Piece i of an integer split into 16-bit pieces, low piece first (R62). -/
def pieceI (i code : Nat) : Nat := code / 65536 ^ i % 65536

/-- Piece i as an integer: the top piece is signed (R62). -/
def pieceVal (np i code : Nat) : Int := if i + 1 = np then signedOf 16 (pieceI i code) else pieceI i code

/-- Destinations of the pieces of a split: the instruction's own and those beside it. -/
def splitDests (x : Vec) (p1 p2 : TDesc) : List TDesc :=
  [x.dst, p1] ++ (if x.np = 3 then [p2] else [])

def badSplit (s : Device) (x : Vec) (p1 p2 : TDesc) (f : Fmt) : Bool :=
  x.np < 2 || x.rnd == 3 || !rankOk x.src || (splitDests x p1 p2).any fun t => s.badDest t f

/-- One piece tensor written, with the instruction's HIST bit. -/
def writePiece (s : Device) (d : Die) (x : Vec) (f : Fmt) (t : TDesc) (codes : List (List (Conv × Val))) : Device :=
  s.writeCodes d { t with hist := x.hist } f codes

/-- VSPLIT.F (R59): FP32 into two or three BF16 pieces. -/
def vsplitF (s : Device) (d : Die) (x : Vec) (p1 p2 : TDesc) : Device :=
  if Fmt.ofCode x.srcf ≠ some .fp32 ∨ Fmt.ofCode x.dstf ≠ some .bf16 ∨ s.badSplit x p1 p2 .bf16 then s.refuseVec d x.iaddr
  else s.accessing (vecUnit d) (ranges x.src .fp32 ++ (splitDests x p1 p2).flatMap fun t => ranges t .bf16) fun s =>
    let codes := (List.range x.dst.rows).map fun r => (List.range x.dst.cols).map fun c => s.srcCode x.src .fp32 r c
    (splitDests x p1 p2).zipIdx.foldl (fun v t =>
      v.writePiece d x .bf16 t.1 (codes.map fun row => row.map fun k =>
        let p := convPieceF t.2 k; (p, FloatFmt.bf16.decode p.code))) s

/-- VSPLIT.I (R62): the 48-bit form into three INT16 pieces, INT32 into two. Another number of pieces is refused: DESIGN CHOICE, log entry
188. -/
def vsplitI (s : Device) (d : Die) (x : Vec) (p1 p2 : TDesc) : Device :=
  let sf := Fmt.ofCode x.srcf
  let np := if sf = some .f48 then 3 else 2
  if (sf ≠ some .f48 ∧ sf ≠ some .i32) ∨ Fmt.ofCode x.dstf ≠ some .i16 ∨ x.np.toNat ≠ np ∨ s.badSplit x p1 p2 .i16 then
    s.refuseVec d x.iaddr
  else
    let f := sf.getD .i32
    s.accessing (vecUnit d) (ranges x.src f ++ (splitDests x p1 p2).flatMap fun t => ranges t .i16) fun s =>
    let codes := (List.range x.dst.rows).map fun r => (List.range x.dst.cols).map fun c => s.srcCode x.src f r c
    (splitDests x p1 p2).zipIdx.foldl (fun v t =>
      v.writePiece d x .i16 t.1 (codes.map fun row => row.map fun k =>
        ({ code := pieceI t.2 k }, .ofInt (pieceVal np t.2 k) 0))) s

/-- A Q word narrowed by discarding its low bits under RNE; beyond the range it saturates (R61). -/
def narrowQ (drop code : Nat) : Conv :=
  convFixed (64 - drop) 0 .rne (.ofInt (signedOf 64 code) (-(drop : Int)))

/-- VNARROW.Q (R61): a Q word to its 48-bit or 32-bit form. R58 has no code for the 32-bit forms: the model takes 0xA, INT32, for
them (log entry 141). -/
def vnarrowQ (s : Device) (d : Die) (x : Vec) : Device :=
  match Fmt.ofCode x.srcf, Fmt.ofCode x.dstf with
  | some sf, some df =>
    if (sf ≠ .q2 ∧ sf ≠ .q8) ∨ (df ≠ .f48 ∧ df ≠ .i32) ∨ x.rnd = 3 ∨ s.badDest x.dst df ∨ ¬ rankOk x.src then s.refuseVec d x.iaddr
    else s.accessing (vecUnit d) (ranges x.src sf ++ ranges x.dst df) fun s =>
      let drop := if df = .f48 then 16 else 32
      let frac : Nat := (if sf = .q2 then 61 else 55) - drop
      s.writeCodes d (destOf x) df ((List.range x.dst.rows).map fun r => (List.range x.dst.cols).map fun c =>
        let k := narrowQ drop (s.srcCode x.src sf r c)
        (k, .ofInt (signedOf (64 - drop) k.code) (-(frac : Int))))
  | _, _ => s.refuseVec d x.iaddr

/-! ## Maximum and minimum -/

/-- The formats VMAX and VMIN take (R57). -/
def maxFmt : Fmt → Bool
  | .fp32 | .bf16 | .fp16 | .i8 | .i16 | .i32 => true
  | _ => false

/-- VMAX and VMIN (R56, R57): element by element, NaN canonical, -0 below +0. A SRCF other than DSTF is refused (log entry 142). -/
def vmaxMin (s : Device) (d : Die) (x : Vec) (src2 : TDesc) (op : Val → Val → Val) : Device :=
  match Fmt.ofCode x.srcf, Fmt.ofCode x.dstf with
  | some sf, some df =>
    if sf ≠ df ∨ ¬ maxFmt sf ∨ x.rnd = 3 ∨ s.badDest x.dst df ∨ ¬ rankOk x.src ∨ ¬ rankOk src2 then s.refuseVec d x.iaddr
    else s.accessing (vecUnit d) (ranges x.src sf ++ ranges src2 sf ++ ranges x.dst df) fun s =>
      let rows := (List.range x.dst.rows).map fun r => (List.range x.dst.cols).map fun c =>
        op (s.srcElem x.src sf r c) (s.srcElem src2 sf r c)
      s.convertInto d { x with rnd := 0 } df rows
  | _, _ => s.refuseVec d x.iaddr

end Device

end Sys2Proof.Machine
end

