-- ==== Sys2Proof/Machine/Mitt.lean ====
section
/-! DEFINITION. The mitt instructions and the events of a tile's life: opening, waiting, placing, combining,
draining, and the switch of a profile (spec/03 R79 to R107, R439; spec/04 R113 to R117). -/

namespace Sys2Proof.Machine

/-- What becomes of an instruction: refused, held until the mitt can take it, or carried out. -/
inductive Verdict where
  | refuse | wait | run
  deriving DecidableEq, Repr, Inhabited

open TDescOps

namespace Device

/-! ## Checks (R70, R82 to R86, R94, R100, R101) -/

/-- The checks of an MMA that no mitt decides. -/
def mmaLegal (s : Device) (d : Die) (x : Mma) (af bf : Fmt) : Bool :=
  pairOk af bf && rankOk x.a && rankOk x.b
    && (!x.ta || transposable af) && (!x.tb || transposable bf)
    && !(x.sr && intPair af)
    && (x.ksplit == 0 || (!x.cont && x.endReq && splitFits (x.k.toNat + 1) (x.ksplit.toNat + 1) x.lm.val))
    && !(s.badTap d x)

/-- The checks of the output descriptor of an instruction that opens a tile: its format, its rounding, its
DKIND, its fused derivative, a frozen matrix, its rank (R51, R55, R58, R113, R117, R118, R215). -/
def odescLegal (s : Device) (x : Mma) (af : Fmt) : Bool :=
  match Fmt.ofCode x.o.fmt with
  | none => false
  | some f => rankOk x.o && x.o.rnd != 3 && decide (x.o.dkind.toNat ≤ 4) && decide (x.o.fder.toNat ≤ 8)
      && !(f.blocked && intPair af) && !(x.o.dkind == 3 && s.frozenLayer x.o.layer.toNat)

/-- Groups or elements of a tile with SR = 1 that draws can number (R100). In a tile whose instructions have pairs of both k-group sizes
the whole inner dimension is measured by the pair of the instruction that is checked: DESIGN CHOICE, log entry 169. -/
def srFits (af : Fmt) (total : Nat) : Bool := decide ((total + groupSize af - 1) / groupSize af ≤ 0xFFFFF)

/-- The mitts of an instruction's parts. -/
def partMitts (x : Mma) : List Nat := (List.range (x.ksplit.toNat + 1)).map (x.lm.val + ·)

def tileOf (m : Mitt) (id : Nat) : Option Tile := m.tiles.find? fun t => t.id == id

/-- A mitt cannot take a tile of this shape now: it switches, or holds tiles of another shape (R79, R82). -/
def shapeWaits (m : Mitt) (shape : BitVec 2) : Bool := m.switching || m.tiles.any fun t => t.shape != shape

/-- The mitts of a Gauntlet pass. -/
def fxMitts (x : MmaFx) : List Nat := (List.range (x.ksplit.toNat + 1)).map (x.lm.val + ·)
/-- A mitt can take a Gauntlet pass now (R82, R103). -/
def fxFits (m : Mitt) (x : MmaFx) : Bool := !shapeWaits m 0 && m.profN && (tileOf m (x.q % 2)).isNone
/-- The lowest identifier free for a tap tile. -/
def freeId (m : Mitt) (k : SlotKind) : Option Nat :=
  (List.range (tileLimit 0 k)).find? fun i => (tileOf m i).isNone
/-- The first waiting tap tile of a mitt that its profile can hold: one of an INT16 batch needs profile N (R148). -/
def tapNext (m : Mitt) : Option TapTile := m.taps.find? fun t => !t.desc.i16 || m.profN
/-- The identifier a mitt's next tap tile can take now. -/
def tapId (m : Mitt) : Option Nat :=
  if tapNext m = none ∨ shapeWaits m 0 then none else freeId m (if m.profN then .i64 else .i32)

/-- The part of a Gauntlet pass that a mitt takes next can be placed on it now (R105, R149). -/
def fxFirst (s : Device) (d : Die) (m : Nat) : Bool := (s.mitt d m).fx.head?.any fun p => fxFits (s.mitt d m) p.1
/-- A waiting Gauntlet tile or tap tile could be placed on a mitt, which takes it before a tile of the program (R105, R149). -/
def tapFirst (s : Device) (d : Die) (m : Nat) : Bool := s.fxFirst d m || (tapId (s.mitt d m)).isSome

/-- The profile the next tile of a mitt has: the new one where it switches (R79). -/
def profNext (s : Device) (d : Die) (m : Nat) : Bool := (s.mitt d m).profN != (s.mitt d m).switching

/-- The verdict on an instruction that opens a tile (R82, R84, R93, R94, R101, R149). R82 limits the tiles of each kind; what tiles of
two kinds take together is no test (log entry 145). -/
def openVerdict (s : Device) (d : Die) (x : Mma) (af : Fmt) : Verdict :=
  let ms := partMitts x
  let n := s.profNext d x.lm.val
  let busy := ms.any fun p => (tileOf (s.mitt d p) x.tile.toNat).isSome
  if (if x.ksplit = 0 then (tileOf (s.mitt d x.lm.val) x.tile.toNat).any (fun t => !t.closed)
        else busy || ms.any fun p => s.profNext d p != n)
      ∨ x.tile.toNat ≥ tileLimit x.shape (slotKind n af)
      ∨ (x.sr ∧ (¬ n ∨ ms.any (fun p => !s.srWanted d p) ∨ ¬ srFits af (x.k.toNat + 1))) then .refuse
  else if busy ∨ ms.any fun p => shapeWaits (s.mitt d p) x.shape || s.tapFirst d p then .wait
  else .run

/-- A k-group that a continuing instruction would straddle wrongly (R84, R121). -/
def boundaryBreaks (t : Tile) (af bf : Fmt) : Bool :=
  let same := t.af == af && t.bf == bf && !af.blocked && !bf.blocked
  !same && (groupSize af == 8 || groupSize t.af == 8) && t.consumed % 8 != 0

/-- The verdict on a continuing instruction (R84, R91). -/
def contVerdict (s : Device) (d : Die) (x : Mma) (af bf : Fmt) : Verdict :=
  let m := s.mitt d x.lm.val
  match tileOf m x.tile.toNat with
  | none => .refuse
  | some t =>
    if t.closed ∨ t.shape ≠ x.shape ∨ t.kind ≠ slotKind m.profN af ∨ x.ksplit ≠ 0 ∨ boundaryBreaks t af bf
        ∨ (x.sr ∧ (¬ m.profN ∨ ¬ t.srEn)) ∨ ((x.sr ∨ t.srUsed) ∧ ¬ srFits af (t.consumed + x.k.toNat + 1)) then .refuse
    else .run

/-! ## Carrying out an MMA -/

/-- The blocks of transposed operands that a mitt holds once its operands have passed (R87, R88). -/
def stageBlocks (s : Device) (d : Die) (m : Nat) (a b : TDesc) (ta tb : Bool) (af bf : Fmt) (rows cols k0 n : Nat) : Device :=
  if !ta && !tb then s
  else s.onMitt d m fun y =>
    let bs := if ta then s.holdBlocks a af rows k0 n y.blocks else y.blocks
    { y with blocks := if tb then s.holdBlocks b bf cols k0 n bs else bs }
/-- The block scales that the staging bytes of a mitt in profile T hold once its operands have passed (R69; log entry 12). -/
def stageScales (s : Device) (d : Die) (m : Nat) (x : Mma) (af bf : Fmt) (rows cols k : Nat) : Device :=
  if (s.mitt d m).profN ∨ (¬ af.blocked ∧ ¬ bf.blocked) then s
  else s.onMitt d m fun y => { y with scales := if af.blocked then s.scalesAt x.a rows k else s.scalesAt x.b cols k }

/-- The products of an abandoned micro-batch do not run (R285). -/
def abandonedWork (s : Device) (x : Mma) : Bool := x.mb.any fun m => s.fab.abandoned.contains m
/-- The side storage of a mitt once the operands of an instruction have passed (R69); those of an abandoned micro-batch do not. -/
def staged (s : Device) (d : Die) (m : Nat) (x : Mma) (af bf : Fmt) (rows cols k0 n : Nat) : Device :=
  if s.abandonedWork x then s
  else (s.stageBlocks d m x.a x.b x.ta x.tb af bf rows cols k0 n).stageScales d m x af bf rows cols (k0 + n - 1)

/-- Operands of an instruction taken into a tile from inner element `k0` on: none of an abandoned micro-batch (R285). -/
def feed (s : Device) (x : Mma) (af bf : Fmt) (t : Tile) (k0 n : Nat) : Tile :=
  if s.abandonedWork x then t
  else t.consume s.drawKey (groupSize af) x.sr
    ((List.range t.rows).map fun r => s.operand x.a af x.ta r k0 n)
    ((List.range t.cols).map fun c => s.operand x.b bf x.tb c k0 n) n

/-- A tile put on its mitt, in place of the one with its identifier, what it reports reported; a tile that is to be drained by its own
mitt joins the drain queue (R90). -/
def placeTile (s : Device) (d : Die) (m : Nat) (old new : Tile) (queue : Bool) : Device :=
  let s := s.reportTile d m new
  let t := Tile.stuck old new
  s.onMitt d m fun x => { x with
    tiles := (x.tiles.filter fun y => y.id != t.id) ++ [t], drains := if queue then x.drains ++ [t.id] else x.drains }

/-- A tile as an instruction opens it on a mitt (R74, R81): where its output has fewer rows or columns than its shape, the cells beyond
them hold no element of it (log entry 146). -/
def freshTile (s : Device) (d : Die) (x : Mma) (af bf : Fmt) (m p k0 : Nat) : Tile :=
  let (rows, cols) := shapeDims x.shape
  let k := slotKind (s.mitt d m).profN af
  let rows := min rows x.o.rows
  let cols := min cols x.o.cols
  { id := x.tile.toNat, kind := k, shape := x.shape, rows := rows, cols := cols, af := af, bf := bf, base := k0,
    srEn := (s.mitt d m).srEn, o := x.o, engines := [x.engine], slots := List.replicate (rows * cols) k.opened,
    closed := x.endReq, part := p, parts := x.ksplit.toNat + 1, mb := x.mb }

/-- A tile's last operands are in: a partial group enters its slot where the tile is closed (R73). -/
def closeUp (s : Device) (t : Tile) : Tile := if t.closed then t.finished s.drawKey else t

/-- The Visor looks at a tile as it opens (R219 to R221): captured, skipped, or not selected. Of an abandoned micro-batch that opens a tile
for others it takes no operand (R285), and neither half is needed yet. -/
def watchOpen (s : Device) (d : Die) (x : Mma) (af bf : Fmt) : Device × Option Capture :=
  let n := x.k.toNat + 1
  if ¬ s.selected d x.o then (s, none)
  else if s.visorMode d x.o.dkind = 0 then (s.countSkip d, none)
  else if s.abandonedWork x then (s, some (s.patchOf d x.o {} {} x.shape))
  else
    let t := s.freshTile d x af bf x.lm.val 0 0
    let parts := x.ksplit.toNat + 1
    match s.watchMore d (s.patchOf d x.o x.a x.b x.shape) x af bf t.rows t.cols 0 n with
    | none => (s.countSkip d, none)
    | some c => (s, some (if parts = 1 then c
        else { c with rounds := (partLen n parts + groupSize af - 1) / groupSize af + Nat.log2 (2 * parts - 1) }))

/-- Part p of an instruction that opens a tile: its mitt takes its range of the inner dimension (R71, R94). -/
def openPart (d : Die) (x : Mma) (af bf : Fmt) (cap : Option Capture) (s : Device) (p : Nat) : Device :=
  let (k0, n) := partRange (x.k.toNat + 1) (x.ksplit.toNat + 1) p
  let m := x.lm.val + p
  let t := s.freshTile d x af bf m p k0
  let t' := s.closeUp (s.feed x af bf t k0 n)
  (s.placeTile d m t { t' with capture := if p = 0 then cap else none } (x.endReq && p == 0)).staged d m x af bf t.rows t.cols k0 n

/-- The Cuff takes the rows of an instruction, none of an abandoned micro-batch; with the last of a micro-batch's F3 or B4 work, rows that
remain close their batch (R146, R285). -/
def tapped (s : Device) (d : Die) (x : Mma) (rows row0 : Nat) (af : Fmt) : Device :=
  let s := if s.abandonedWork x then s else s.capture d x rows row0 af
  if x.mbLast then s.closeFilling d else s

/-- An instruction that opens its tile, a tile boundary for its mitts (R84, R93, R94). -/
def openTile (s : Device) (d : Die) (x : Mma) (af bf : Fmt) : Device :=
  let s := (partMitts x).foldl (fun s m => s.applyUnit 2 d m) s
  let (s, cap) := s.watchOpen d x af bf
  let s := (List.range (x.ksplit.toNat + 1)).foldl (openPart d x af bf cap) s
  let s := s.onFrm fun f => { f with served := x.stage }
  s.tapped d x (min (shapeDims x.shape).1 x.o.rows) x.o.row0.toNat af

/-- An instruction that continues its tile (R84): its ODESC is ignored, so that a tap samples by the ROW0 of the instruction that opened
the tile (R142, log entry 147). -/
def continueTile (s : Device) (d : Die) (x : Mma) (af bf : Fmt) : Device :=
  let m := x.lm.val
  match tileOf (s.mitt d m) x.tile.toNat with
  | none => s
  | some old =>
    let n := x.k.toNat + 1
    let dead := s.abandonedWork x
    let t := if dead then old.unstuck else s.feed x af bf { old.unstuck with af := af, bf := bf } 0 n
    let t := s.closeUp { t with closed := x.endReq, engines := (x.engine :: t.engines).eraseDups }
    let kept := if dead then old.capture else old.capture.bind fun c => s.watchMore d c x af bf old.rows old.cols old.consumed n
    let s := (s.placeTile d m old { t with capture := kept } x.endReq).staged d m x af bf old.rows old.cols 0 n
    let s := if kept.isNone ∧ old.capture.isSome then s.countSkip d else s
    s.tapped d x old.rows old.o.row0.toNat af

/-- An MMA with nothing waiting in front of it: none where it must wait. One of an abandoned micro-batch that has a tile of its own
is not run; one that shares its tile with other micro-batches opens or ends it with no product (R285; log entry 152). -/
def tryMma (s : Device) (d : Die) (x : Mma) : Option Device :=
  match Fmt.ofCode x.af, Fmt.ofCode x.bf with
  | some af, some bf =>
    if ¬ s.mmaLegal d x af bf ∨ (¬ x.cont ∧ ¬ s.odescLegal x af) then some (s.refuseMitt d x.iaddr)
    else match if x.cont then s.contVerdict d x af bf else s.openVerdict d x af with
      | .refuse => some (s.refuseMitt d x.iaddr)
      | .wait => if s.abandonedWork x ∧ x.endReq then some s else none
      | .run => if s.abandonedWork x ∧ ¬ x.cont ∧ x.endReq then some s
        else some (s.accessing (mittUnit d) (TDescOps.ranges x.a af ++ TDescOps.ranges x.b bf) fun s =>
          if x.cont then s.continueTile d x af bf else s.openTile d x af bf)
  | _, _ => some (s.refuseMitt d x.iaddr)

def enqueueJob (s : Device) (d : Die) (m : Nat) (j : MittJob) : Device :=
  s.onMitt d m fun x => { x with jobs := x.jobs ++ [j] }

/-- Whether waiting work of a mitt goes before another piece of work: work of one tile keeps its order. Tiles may open in another
order than that of their instructions, so that no mitt stands idle (R6). -/
def goesBefore : MittJob → MittJob → Bool
  | .mma x, .mma y => x.tile == y.tile
  | .mma x, .mdrain _ id => x.tile.toNat == id
  | .mdrain _ id, .mma y => id == y.tile.toNat
  | .mdrain _ i, .mdrain _ j => i == j

/-! ## MDRAIN (R91) -/

/-- A TILE identifier that no tile of the program on a mitt can have now: at or above the value of R82 for its profile and the shape
of its tiles, the 128 x 128 shape where it holds none (R82, R83; log entry 148). -/
def noSuchTile (m : Mitt) (id : Nat) : Bool :=
  decide (tileLimit ((m.tiles.head?.map fun t => t.shape).getD 0) (if m.profN then .w48 else .f32) ≤ id)

/-- MDRAIN with nothing waiting in front of it (R82, R91, R107). -/
def drainRequest (s : Device) (d : Die) (iaddr : W64) (m id : Nat) : Device :=
  if noSuchTile (s.mitt d m) id then s.refuseMitt d iaddr
  else match tileOf (s.mitt d m) id with
  | some t =>
    if t.closed ∨ t.purpose ≠ .job then s.eventCount (R.MITT_STAT_DUP_DRAIN_CNT.die d)
    else s.placeTile d m t (s.closeUp { t.unstuck with closed := true }) true
  | none => s.eventCount (R.MITT_STAT_DUP_DRAIN_CNT.die d)

def mdrain (s : Device) (d : Die) (iaddr : W64) (lm id : Nat) : Device :=
  if (s.mitt d lm).jobs.any fun j => goesBefore j (.mdrain iaddr id) then s.enqueueJob d lm (.mdrain iaddr id)
  else s.drainRequest d iaddr lm id

/-! ## MMA.FX (R102, R103) -/

/-- The pieces of the passes of a product, in their order: ascending i + j, then ascending i (R63). -/
def passOrder (npa npb : Nat) : List (Nat × Nat) :=
  (List.range (npa + npb - 1)).flatMap fun t => ((List.range npa).filter fun i => decide (i ≤ t ∧ t - i < npb)).map fun i => (i, t - i)

/-- The fields R102 allows, on mitts in profile N: pass q of its product has the pieces that R63 gives it, and follows pass q - 1. -/
def fxLegal (s : Device) (d : Die) (x : MmaFx) : Bool :=
  !x.byProgram && ((fxMitts x).all fun m => (s.mitt d m).profN) && x.shape == 0 && !x.sr && x.af == 0x09 && x.bf == 0x09
    && decide (2 ≤ x.npa.toNat ∧ 2 ≤ x.npb.toNat ∧ (passOrder x.npa.toNat x.npb.toNat)[x.q]? = some (x.pa.toNat, x.pb.toNat))
    && (x.q == 0 || x.q == (s.mitt d x.lm.val).nextPass)
    && (x.ksplit == 0 || splitFits (x.k.toNat + 1) (x.ksplit.toNat + 1) x.lm.val)

/-- A piece operand: the top piece is signed, every other one unsigned (R62, R102). -/
def pieceOperand (s : Device) (t : TDesc) (transposed top : Bool) (i k0 n : Nat) : List Val :=
  (List.range n).map fun k =>
    let c := if transposed then s.elemCode t .i16 (k0 + k) i else s.elemCode t .i16 i (k0 + k)
    .ofInt (if top then signedOf 16 c else c) 0

/-- Part p of a pass on its mitt: slot q mod 2 (R94, R103). -/
def passPart (d : Die) (x : MmaFx) (s : Device) (p : Nat) : Device :=
  let (k0, n) := partRange (x.k.toNat + 1) (x.ksplit.toNat + 1) p
  let rows := min 128 x.rows
  let cols := min 128 x.cols
  let t : Tile :=
    { id := x.q % 2, kind := .i64, rows := rows, cols := cols, af := .i16, bf := .i16, closed := true, base := k0,
      part := p, parts := x.ksplit.toNat + 1, slots := List.replicate (rows * cols) {}, purpose := .fx x }
  let t' := t.consume s.drawKey 1 false
    ((List.range rows).map fun r => s.pieceOperand x.a x.ta (x.pa.toNat + 1 == x.npa.toNat) r k0 n)
    ((List.range cols).map fun c => s.pieceOperand x.b x.tb (x.pb.toNat + 1 == x.npb.toNat) c k0 n) n
  (s.placeTile d (x.lm.val + p) t t' (p == 0)).stageBlocks d (x.lm.val + p) x.a x.b x.ta x.tb .i16 .i16 rows cols k0 n

/-- A part of a pass placed, the drain of the whole requested with the first (R103). -/
def openPass (s : Device) (d : Die) (x : MmaFx) (p : Nat) : Device :=
  s.accessing (mittUnit d) (TDescOps.ranges x.a .i16 ++ TDescOps.ranges x.b .i16) fun s => passPart d x s p

/-- A part of a pass reaches its mitt: placed there at once, or behind the parts that wait. Each mitt takes its part as soon as it can, so
that none stands idle for another (R6, R105; log entry 116). -/
def passArrives (d : Die) (x : MmaFx) (s : Device) (p : Nat) : Device :=
  let m := x.lm.val + p
  if (s.mitt d m).fx = [] ∧ fxFits (s.mitt d m) x then s.openPass d x p
  else s.onMitt d m fun y => { y with fx := y.fx ++ [(x, p)] }

def mmaFx (s : Device) (d : Die) (x : MmaFx) : Device :=
  if ¬ s.fxLegal d x then s.refuseMitt d x.iaddr
  else (List.range (x.ksplit.toNat + 1)).foldl (passArrives d x) (s.onMitt d x.lm.val fun y => { y with nextPass := x.q + 1 })

/-! ## Dispatch (R105, R149) -/

/-- A tap tile placed: its products are taken from the row store (R147, R149). -/
def placeTap (s : Device) (d : Die) (m : Nat) (t : TapTile) (id : Nat) : Device :=
  let tile := { s.tapTileOf d (s.mitt d m).profN t with id := id }
  let s := s.onMitt d m fun x => { x with taps := x.taps.erase t }
  let s := s.count (R.CUFF_TAP_CYCLES_COUNT.die d) (t.rows * if t.desc.i16 then 4 else 1)
  s.onMitt d m fun x => { x with tiles := x.tiles ++ [tile], drains := x.drains ++ [id] }

/-- One piece of waiting work, where it can go on. -/
def tryJob (s : Device) (d : Die) (m : Nat) : MittJob → Option Device
  | .mma x => s.tryMma d x
  | .mdrain a id => some (s.drainRequest d a m id)

/-- The waiting work of a mitt that can go on, each with the device once it has; `passed` is the work in front. -/
def readyJobs (s : Device) (d : Die) (m : Nat) (passed : List MittJob) : List MittJob → List (MittJob × Device)
  | [] => []
  | j :: rest =>
    let more := s.readyJobs d m (passed ++ [j]) rest
    if passed.any fun p => goesBefore p j then more
    else match (s.onMitt d m fun y => { y with jobs := passed ++ rest }).tryJob d m j with
      | some v => (j, v) :: more
      | none => more

/-- The place of a piece of work in the choice of R32: what asks for no slot first, then backward work, then forward work, each by
stage from the one behind the stage served last. -/
def workRank (served : Fin 8) : MittJob → Nat
  | .mdrain _ _ => 0
  | .mma x => if x.cont then 0 else (if x.backward then 1 else 9) + (x.stage.val + 7 - served.val) % 8

/-- An MMA would open its tile now. -/
def opens (s : Device) (d : Die) (x : Mma) : Bool :=
  match Fmt.ofCode x.af, Fmt.ofCode x.bf with
  | some af, some bf => !x.cont && s.mmaLegal d x af bf && s.odescLegal x af && s.openVerdict d x af == .run
  | _, _ => false

/-- Waiting work that needs a mitt of an MMA and goes before it in the choice of R32. -/
def outranks (served : Fin 8) (x : Mma) : MittJob → Bool
  | .mdrain _ _ => false
  | .mma y => !y.cont && (partMitts y).any (partMitts x).contains && decide (workRank served (.mma y) ≤ workRank served (.mma x))

/-- Waiting work that is ready goes before an MMA which would open its tile (R32). -/
def outranked (s : Device) (d : Die) (x : Mma) : Bool :=
  s.opens d x && (s.die d).mitts.any fun m => (s.readyJobs d m.1 [] m.2.jobs).any fun z => outranks s.frm.served x z.1

/-- MMA (R83, R84): behind waiting work of its mitt that goes before it, it waits too; so does one whose tile other ready work is placed
before (R32). -/
def mma (s : Device) (d : Die) (x : Mma) : Device :=
  if (s.mitt d x.lm.val).jobs.any (fun j => goesBefore j (.mma x)) || s.outranked d x then s.enqueueJob d x.lm.val (.mma x)
  else (s.tryMma d x).getD (s.enqueueJob d x.lm.val (.mma x))

/-- Waiting work has a part on a mitt. -/
def workOn (m : Nat) : MittJob → Bool
  | .mma x => (partMitts x).contains m
  | .mdrain .. => false

/-- The waiting work that can go on and needs a mitt: that of the mitt itself, and the parts it has in long splits which wait at another
mitt (R32, R94). -/
def readyOn (s : Device) (d : Die) (m : Nat) : List (MittJob × Device) :=
  s.readyJobs d m [] (s.mitt d m).jobs ++
    ((s.die d).mitts.filter (·.1 != m)).flatMap fun y => (s.readyJobs d y.1 [] y.2.jobs).filter fun z => workOn m z.1

/-- Waiting work of the program for a mitt goes on: of what can, the first in the order of R32, and of several of one stage and direction
the one issued first (log entry 149). -/
def dispatchJob (s : Device) (d : Die) (m : Nat) : Device :=
  match sortBy (fun a b => decide (workRank s.frm.served a.1 ≤ workRank s.frm.served b.1)) (s.readyOn d m) with
  | [] => s
  | z :: _ => z.2

/-- A tap tile takes a free slot, or a job tile (R149). -/
def dispatchTap (s : Device) (d : Die) (m : Nat) : Device :=
  match tapNext (s.mitt d m), tapId (s.mitt d m) with
  | some t, some id => s.placeTap d m t id
  | _, _ => s.dispatchJob d m

/-- A free slot takes a waiting tile: a Gauntlet tile, then a tap tile, then a job tile (R105, R149). -/
def dispatch (s : Device) (d : Die) (m : Nat) : Device :=
  match (s.mitt d m).fx with
  | p :: rest => if fxFits (s.mitt d m) p.1 then (s.onMitt d m fun y => { y with fx := rest }).openPass d p.1 p.2 else s.dispatchTap d m
  | [] => s.dispatchTap d m

/-! ## Combining a long split (R95) -/

/-- The last level below `l` at which part `p` of P has a partner. -/
def lastLevel (p parts : Nat) : Nat → Nat
  | 0 => 0
  | l + 1 => if l ≥ 1 ∧ p % 2 ^ l = 0 ∧ p + 2 ^ (l - 1) < parts then l else lastLevel p parts l

/-- Part `part` receives its partner's partial at a level (R95). -/
def combine (s : Device) (d : Die) (lm id part level : Nat) : Device :=
  let q := part + 2 ^ (level - 1)
  match tileOf (s.mitt d (lm + part)) id, tileOf (s.mitt d (lm + q)) id with
  | some a, some b =>
    if 1 ≤ level ∧ part % 2 ^ level = 0 ∧ a.purpose = b.purpose ∧ a.parts = b.parts ∧ q < a.parts ∧ a.part = part ∧ b.part = q
        ∧ a.level = lastLevel part a.parts level ∧ b.level = lastLevel q a.parts level then
      let new := { a.unstuck with slots := List.zipWith (slotCombine a.kind) a.unstuck.slots b.slots, level := level }
      let s := s.placeTile d (lm + part) (a.sharing b) new false
      s.onMitt d (lm + q) fun x => { x with tiles := x.tiles.filter fun t => t.id != id }
    else s
  | _, _ => s

/-! ## Draining (R90) -/

/-- The mask bit of an element of a side tensor (R116). -/
def maskBit (s : Device) (d : Die) (o : TDesc) (r c : Nat) : Bool :=
  let i := r * o.sidePitch + c
  ((s.die d).tile.read (o.side + i / 8)).toNat.testBit (i % 8)

/-- The BF16 side value of an element (R116). -/
def sideCode (s : Device) (d : Die) (o : TDesc) (r c : Nat) : Nat :=
  (s.die d).tile.readLE (o.side + 2 * (r * o.sidePitch + c)) 2

/-- The factor of a fused derivative (R113 to R115); codes 0x4 to 0x7 give what the part's unit gives, within 2 FP32 ulp of the
function (R114; log entry 5). Code 0x3 is exact also where 2z lies beyond FP32: DESIGN CHOICE, log entry 190. -/
def fusedFactor (fder : Nat) (fparam : W16) (mask : Bool) (side : Nat) : Val :=
  let p := FloatFmt.bf16.decode fparam.toNat
  let z := FloatFmt.bf16.decode side
  match fder with
  | 1 => if mask then .ofInt 1 0 else .zero
  | 2 => if mask then .ofInt 1 0 else p
  | 3 => (z.max2 .zero).scale 1
  | 8 => p
  | n =>
    if z.isNan then .nan
    else match n, z with
      | 4, .inf neg => if neg then .zero else .ofInt 1 0
      | 5, .inf neg => if neg then .zero else .ofInt 1 0
      | _, .inf _ => .inf true
      | _, z => FloatFmt.fp32.decode (Elementary.held (Config.fusedFactor n (BitVec.ofNat 16 side)) (Elementary.slope n z)).toNat

/-- A drained element after step 4 of R90: the slot value times the factor, rounded once in the slot's
format (R114). -/
def derived (s : Device) (d : Die) (t : Tile) (r c : Nat) : Val :=
  let v := (t.at_ r c).value t.kind
  let n := t.o.fder.toNat
  if n = 0 then v
  else
    let f := fusedFactor n t.o.fparam (s.maskBit d t.o r c) (s.sideCode d t.o r c)
    if t.kind.isInt then
      .ofInt (Config.fusedInteger (BitVec.ofInt 64 (t.at_ r c).v) (BitVec.ofNat 32 (FloatFmt.fp32.ieee .rne f))).toInt 0
    else t.kind.fmt.decode (t.kind.fmt.ieee .rne (v.mul f))

/-- A program's tile written to its destination: derivative, conversion, histogram, digest (R90 steps 3 to 7); what a peer is to receive goes
out (R19, R269). A capture that no operand has reached is a skip here while both halves are busy (R220, R285; DESIGN CHOICE, log entry
200). -/
def drainJob (s : Device) (d : Die) (m : Nat) (t : Tile) : Device :=
  let s := match t.capture with
    | some c => if c.k = 0 ∧ s.capturesBusy d ≥ 2 then s.countSkip d
      else s.onDie d fun x => { x with checks := x.checks ++ [s.checkOf m t c] }
    | none => s
  match Fmt.ofCode t.o.fmt with
  | none => s
  | some f =>
    s.accessing (mittUnit d) (TDescOps.ranges { t.o with rows := t.rows, cols := t.cols } f) fun s =>
      let rows := (List.range t.rows).map fun r => (List.range t.cols).map fun c => s.derived d t r c
      let (s, cs) := s.writeTensor d t.o f t.o.rnd t.o.inf 0xFFFFF rows fun r c => t.kind != .i32 && (t.at_ r c).ovf
      let s := s.cvtFlags d f cs
      match t.o.toPeer with
      | some p => s.sendTensor { peer := p, kind := if t.o.dkind = 2 then .gradient else .activation, mb := t.mb } (cs.map (·.code))
      | none => s

/-- The left shift of a form's products (R64, R103). The tables list 3 x 2 and 3 x 3 pieces; of 2 x 2 and 2 x 3 pieces, which R102 allows, the
same expression aligns the product: DESIGN CHOICE, log entry 170. -/
def fxShift (x : MmaFx) : Nat := 16 * (8 - x.npa.toNat - x.npb.toNat)

/-- A pass added into the 128-bit accumulators in scratch: saturating, sticky (R103, R104); scratch has the bytes of R1. -/
def drainPass (s : Device) (d : Die) (t : Tile) (x : MmaFx) : Device :=
  let sh := 16 * (x.pa.toNat + x.pb.toNat) + fxShift x
  let z := t.slots.zipIdx.foldl (fun (z : Memory × Bool) (p : Slot × Nat) =>
    let a := x.acc + 16 * p.2
    let sum := signedOf 128 (z.1.readLE a 16) + p.1.v * 2 ^ sh
    let sat := satSigned 128 sum
    (z.1.writeLE a 16 (codeOf 128 sat), z.2 || sat != sum || p.1.ovf)) ((s.die d).scratch, false)
  (s.setMemory (.scratch d) z.1).onDie d fun y => { y with solveOvf := y.solveOvf || z.2 }

/-- Every part of a tile is combined (R95). -/
def allCombined (t : Tile) : Bool := t.level == lastLevel 0 t.parts 8

/-- A tile whose drain can begin: resident side tensor, every part combined (R95, R116). -/
def drainable (t : Tile) : Bool := (t.o.fder == 0 || t.o.fder == 8 || t.o.sideResident) && allCombined t

/-- The tile leaves its slot (R90 step 8); the cycles for which its drain paused count (R92). It is a tile boundary, at which the mitt
applies a commit (R93). -/
def freeSlot (s : Device) (d : Die) (m id : Nat) : Device :=
  ((s.onMitt d m fun x => { x with tiles := x.tiles.filter fun t => t.id != id, drains := x.drains.drop 1 }).freeCycles
    (R.MITT_DRAIN_STALL_CYCLES.die d)).applyUnit 2 d m

/-- The first requested drain of a mitt, where its tile is one of a program or of the Gauntlet (R90). -/
def tileDrain (s : Device) (d : Die) (m : Nat) : Device :=
  match (s.mitt d m).drains with
  | [] => s
  | id :: _ => match tileOf (s.mitt d m) id with
    | none => s
    | some t => match t.purpose with
      | .job => if drainable t then (s.drainJob d m t).freeSlot d m id else s
      | .fx x => if allCombined t then (s.drainPass d t x).freeSlot d m id else s
      | .tap _ => s

/-- The first requested drain of a mitt, where its tile is a tap tile whose live buffer takes rows (R150, R155). -/
def tapDrain (s : Device) (d : Die) (m : Nat) : Device :=
  match (s.mitt d m).drains with
  | [] => s
  | id :: _ => match tileOf (s.mitt d m) id with
    | none => s
    | some t => match t.purpose with
      | .tap x => if s.foldHolds d x.desc.key x.step then s else (s.drainTap d x t.slots).freeSlot d m id
      | _ => s

/-! ## Profiles (R79, R93) -/

/-- The in-force mirror bit of a mitt's profile (R336). -/
def setProfileBit (s : Device) (d : Die) (m : Nat) (n : Bool) : Device :=
  let f := if m < 32 then R.MITT_PROFILE_LO_PROFILE.die d else R.MITT_PROFILE_HI_PROFILE.die d
  s.setFld f (insertBits (s.fld f) (m % 32) 1 (b2n n))

/-- A mitt that is empty and switches takes its new profile, its slots and side storage cleared; it is then done with its commit (R79,
R80). -/
def profileSwitch (s : Device) (d : Die) (m : Nat) : Device :=
  let x := s.mitt d m
  if x.switching ∧ x.tiles = [] then
    (s.onMitt d m fun y => { y with
      profN := !y.profN, switching := false, blocks := [], scales := [] }).setProfileBit d m (!x.profN)
  else s

end Device

/-- TILE_DISPATCH (R149). -/
def execTileDispatch (d : Die) (lm : Lm) (s : State) : Host.Outcome State Fault Refusal :=
  issue s d fun v => v.dispatch d lm.val
/-- LONG_SPLIT_COMBINE (R95). -/
def execLongSplitCombine (d : Die) (lm : Lm) (tile : BitVec 2) (part level : Nat) (s : State) :
    Host.Outcome State Fault Refusal := onDev s fun v => v.combine d lm.val tile.toNat part level

end Sys2Proof.Machine
end

