-- ==== Sys2Proof/Machine/PalmCode.lean ====
section
/-! DEFINITION. The instruction words of a Palm: the opcodes of R204 and the fields of R203. -/

namespace Sys2Proof.Machine

/-- The opcodes of R204. -/
inductive PalmOp where
  | nop | ld | st | ldw | ldwo | stw | wcp | lds | ldh | sts | srd | idxr | idxc
  | fadd | fsub | fmul | fma | fnma | fdiv | fsqrt | frsq | fmax | fmin | fabs | fneg | fcps | fscl
  | fexp2 | flog2 | rndbf | rnde4 | iadd | iand | cvtfi | cvtif | fcmp | fcls | pand | por | pnot | sel | mov
  | bsum | bssq | bmax | bmin | bcnt | accs
  deriving DecidableEq, Repr, Inhabited

namespace PalmOp

def code : PalmOp → BitVec 8
  | nop => 0x00 | ld => 0x01 | st => 0x02 | ldw => 0x03 | ldwo => 0x04 | stw => 0x05 | wcp => 0x06 | lds => 0x07
  | ldh => 0x08 | sts => 0x09 | srd => 0x0A | idxr => 0x0B | idxc => 0x0C
  | fadd => 0x10 | fsub => 0x11 | fmul => 0x12 | fma => 0x13 | fnma => 0x14 | fdiv => 0x15 | fsqrt => 0x16
  | frsq => 0x17 | fmax => 0x18 | fmin => 0x19 | fabs => 0x1A | fneg => 0x1B | fcps => 0x1C | fscl => 0x1D
  | fexp2 => 0x20 | flog2 => 0x21 | rndbf => 0x24 | rnde4 => 0x25
  | iadd => 0x30 | iand => 0x31 | cvtfi => 0x32 | cvtif => 0x33
  | fcmp => 0x40 | fcls => 0x41 | pand => 0x42 | por => 0x43 | pnot => 0x44 | sel => 0x45 | mov => 0x46
  | bsum => 0x50 | bssq => 0x51 | bmax => 0x52 | bmin => 0x53 | bcnt => 0x54 | accs => 0x55

/-- Every opcode. -/
def all : List PalmOp :=
  [nop, ld, st, ldw, ldwo, stw, wcp, lds, ldh, sts, srd, idxr, idxc,
   fadd, fsub, fmul, fma, fnma, fdiv, fsqrt, frsq, fmax, fmin, fabs, fneg, fcps, fscl,
   fexp2, flog2, rndbf, rnde4, iadd, iand, cvtfi, cvtif, fcmp, fcls, pand, por, pnot, sel, mov,
   bsum, bssq, bmax, bmin, bcnt, accs]

/-- The opcode of a code; none where R204 has none. -/
def ofCode (c : BitVec 8) : Option PalmOp := all.find? fun o => o.code == c

/-- Permitted in the body, the prologue, the epilogue (R204). -/
def inBody : PalmOp → Bool
  | lds | ldh | sts => false
  | _ => true
def inPrologue : PalmOp → Bool
  | nop | lds | ldh | fadd | fsub | fmul | fma | fnma | fdiv | fsqrt | frsq | fmax | fmin | fabs | fneg | fcps | fscl
  | fexp2 | flog2 | iadd | iand | cvtfi | cvtif | mov => true
  | _ => false
def inEpilogue : PalmOp → Bool
  | lds | ldh => false
  | sts => true
  | o => o.inPrologue

/-- Draw-consuming instructions (R209). -/
def draws : PalmOp → Bool
  | stw | st | srd | rndbf | rnde4 => true
  | _ => false

end PalmOp

/-- The word of an instruction (R203). -/
def encodePalm (o : PalmOp) (x : PalmArgs) : W64 :=
  x.imm ++ (0 : BitVec 5) ++ BitVec.ofBool x.sc ++ BitVec.ofBool x.sb ++ BitVec.ofBool x.sa ++ x.m ++ BitVec.ofBool x.ge
    ++ BitVec.ofBool x.gn ++ x.g ++ x.c ++ x.b ++ x.a ++ x.d ++ o.code

/-- The fields of a word (R203). -/
def palmArgs (w : W64) : PalmArgs :=
  { d := w.extractLsb' 8 6, a := w.extractLsb' 14 6, b := w.extractLsb' 20 6, c := w.extractLsb' 26 6,
    g := w.extractLsb' 32 3, gn := w.getLsbD 35, ge := w.getLsbD 36, m := w.extractLsb' 37 3,
    sa := w.getLsbD 40, sb := w.getLsbD 41, sc := w.getLsbD 42, imm := w.extractLsb' 48 16 }

/-- A word read: nothing where its opcode is unknown or bits [47:43] are not zero (R201, R203). -/
def decodePalm (w : W64) : Option (PalmOp × PalmArgs) :=
  if w.extractLsb' 43 5 = 0 then (PalmOp.ofCode (w.extractLsb' 0 8)).map fun o => (o, palmArgs w) else none

end Sys2Proof.Machine
end

