-- ==== Sys2Proof/Machine/Palm.lean ====
section
/-! DEFINITION. The Palms: update descriptors, the Palm queue, runs, and what each instruction of a program does to
the lanes of a chunk (spec/07 R191 to R214; spec/08 R226, R227; spec/10 R280, R281). -/

namespace Sys2Proof.Machine

/-- The unit code of a die's Palms (R377). -/
def palmUnit (d : Die) : W16 := unitCode 0x04 d.val

namespace Device

def palm (s : Device) (d : Die) : Palms := (s.die d).palm
def onPalm (s : Device) (d : Die) (f : Palms → Palms) : Device := s.onDie d fun x => { x with palm := f x.palm }
def onRun (s : Device) (d : Die) (f : PalmRun → PalmRun) : Device := s.onPalm d fun p => { p with run := p.run.map f }

/-- A Palm status event, posted when it first sets after a clear (R214). -/
def palmEvent (s : Device) (d : Die) (f : Fld) : Device :=
  let first := !s.flag (f.die d)
  let s := s.event (f.die d)
  if first ∧ s.flag (R.PALM_CTL_EVENT.die d) then s.post 0x0207 1 (palmUnit d) 0 else s

/-! ## Update descriptors (R198) -/

def readStream (s : Device) (a : Nat) : PStream :=
  let f := s.near (a + 9) 1
  { addr := s.near a 8, fmt := s.near (a + 8) 1, valid := f.testBit 0, tile := f.testBit 1, rnd := f / 4 % 4,
    inf := f.testBit 4, pitch := s.near (a + 12) 4 }

def updateDesc (s : Device) (d : Die) (layer : Nat) : UDesc :=
  let a := s.fld (R.PALM_UDT_BASE_UNITS.die d) * 4096 + 256 * layer
  let f := s.near (a + 2) 1
  { layer := s.near a 2, fp16 := f.testBit 0, wcp := f.testBit 1, keep := f.testBit 2, hist := f.testBit 3,
    blkLog := s.near (a + 3) 1, body := s.near (a + 4) 2, pro := s.near (a + 6) 1, epi := s.near (a + 7) 1,
    ncols := s.near (a + 8) 4, row0 := s.near (a + 0x0C) 4, col0 := s.near (a + 0x10) 4, rows := s.near (a + 0x14) 4,
    cols := s.near (a + 0x18) 4, prog := s.near (a + 0x20) 8, par := s.near (a + 0x28) 8, bank := s.near (a + 0x30) 8,
    bankSize := s.near (a + 0x38) 8, rem := s.near (a + 0x40) 8, histAddr := s.near (a + 0x48) 8,
    histBase := s.near (a + 0x50) 1, histMode := s.near (a + 0x51) 1, wcFmt := s.near (a + 0x52) 1,
    wcLog := s.near (a + 0x53) 1, wcElem := s.near (a + 0x58) 8, wcScale := s.near (a + 0x60) 8,
    status := s.near (a + 0x68) 8, streams := (List.range 8).map fun k => s.readStream (a + 0x80 + 16 * k),
    zeros := f < 16 && s.near (a + 0x1C) 4 == 0 && s.near (a + 0x54) 4 == 0 && s.near (a + 0x70) 16 == 0
      && (List.range 8).all fun k => s.near (a + 0x80 + 16 * k + 9) 1 < 32 && s.near (a + 0x80 + 16 * k + 10) 2 == 0 }

end Device

namespace UDesc

/-- The format of a stream: a plain code of R58 (R198). -/
def streamFmt (x : PStream) : Option Fmt :=
  if x.fmt ≤ 4 ∨ (8 ≤ x.fmt ∧ x.fmt ≤ 10) then Fmt.ofCode (BitVec.ofNat 5 x.fmt) else none
def stream (u : UDesc) (k : Nat) : PStream := u.streams.getD k {}
def wfmt (u : UDesc) : FloatFmt := if u.fp16 then .fp16 else .bf16
/-- The working-copy format (R198). -/
def wcFloat (u : UDesc) : Option FloatFmt :=
  if 0x13 ≤ u.wcFmt ∧ u.wcFmt ≤ 0x17 then (Fmt.ofCode (BitVec.ofNat 5 u.wcFmt)).bind Fmt.float? else none
def wcFormat (u : UDesc) : Fmt := (Fmt.ofCode (BitVec.ofNat 5 u.wcFmt)).getD .be4m3

/-- The ranges of R201. -/
def inRange (u : UDesc) : Bool :=
  u.zeros && decide (4 ≤ u.blkLog ∧ u.blkLog ≤ 9) && decide (1 ≤ u.body ∧ u.body ≤ 256) && decide (u.pro ≤ 64 ∧ u.epi ≤ 64)
    && u.prog % 64 == 0 && u.par % 4 == 0 && u.status % 64 == 0 && decide (u.rows * u.cols * 2 ≤ u.bankSize) && u.bankSize % 4096 == 0
    && decide (u.histMode ≤ 1)
    && (!u.wcp || (u.wcFloat.isSome && decide (4 ≤ u.wcLog ∧ u.wcLog ≤ 7)))
    && u.streams.all fun x => !x.valid || ((streamFmt x).isSome && decide (u.cols ≤ x.pitch) && x.rnd != 3)

/-- Chunks of a row, and of the shard (R200). -/
def rowChunks (u : UDesc) : Nat := (u.cols + 511) / 512
def chunks (u : UDesc) : Nat := u.rows * u.rowChunks
/-- Chunks of Palm p. -/
def palmChunks (u : UDesc) (p : Nat) : Nat := (u.chunks + 3 - p) / 4
/-- Row, first column and active lanes of a chunk. -/
def chunkAt (u : UDesc) (c : Nat) : Nat × Nat × Nat :=
  let c0 := c % u.rowChunks * 512
  (c / u.rowChunks, c0, min 512 (u.cols - c0))
/-- The logical index of a lane (R200). -/
def laneIdx (u : UDesc) (r c0 j : Nat) : Nat := (u.row0 + r) * u.ncols + u.col0 + c0 + j
/-- The place of a weight in its bank (R191). -/
def weightAt (u : UDesc) (v r c : Nat) : Nat := u.bank + v % 3 * u.bankSize + 2 * (r * u.cols + c)
def remAt (u : UDesc) (r c : Nat) : Nat := u.rem + (r * u.cols + c)
/-- The layer's weight histogram record (R195, R198). -/
def record (u : UDesc) : TDesc :=
  { hist := u.hist, histAddr := u.histAddr, histBase := BitVec.ofNat 8 u.histBase, histKeep := u.histMode == 1 }

end UDesc

/-! ## The checks of a program (R201) -/

inductive Section where
  | prologue | body | epilogue
  deriving DecidableEq, Repr, Inhabited

/-- What an opcode takes: destination and sources by register kind. -/
inductive RegKind where
  | none | v | p | s
  deriving DecidableEq, Repr, Inhabited

/-- Destination and three sources of an opcode in the body (R204). -/
def opKinds : PalmOp → RegKind × RegKind × RegKind × RegKind
  | .nop | .wcp => (.none, .none, .none, .none)
  | .ld | .ldw | .ldwo | .srd | .idxr | .idxc => (.v, .none, .none, .none)
  | .st | .stw => (.none, .v, .none, .none)
  | .lds | .ldh => (.s, .none, .none, .none)
  | .sts => (.none, .s, .none, .none)
  | .fadd | .fsub | .fmul | .fdiv | .fmax | .fmin | .fcps | .fscl | .iadd | .iand => (.v, .v, .v, .none)
  | .fma | .fnma => (.v, .v, .v, .v)
  | .fsqrt | .frsq | .fabs | .fneg | .fexp2 | .flog2 | .rndbf | .rnde4 | .cvtfi | .cvtif | .mov => (.v, .v, .none, .none)
  | .fcmp => (.p, .v, .v, .none)
  | .fcls => (.p, .v, .none, .none)
  | .pand | .por => (.p, .p, .p, .none)
  | .pnot => (.p, .p, .none, .none)
  | .sel => (.v, .v, .v, .none)
  | .bsum | .bssq | .bmax | .bmin => (.v, .v, .none, .none)
  | .bcnt => (.v, .p, .none, .none)
  | .accs => (.s, .v, .none, .none)

/-- A register number inside its kind's range; a V source may name an S register. -/
def kindOk (k : RegKind) (scalar : Bool) (n : BitVec 6) : Bool := match k with
  | .none | .s => true
  | .v => scalar || decide (n.toNat < 32)
  | .p => decide (n.toNat < 8)

/-- The mode of an instruction (R203). -/
def modeOk (o : PalmOp) (m : BitVec 3) : Bool := match o with
  | .fcmp => decide (m.toNat ≤ 3)
  | .fcls => true
  | .stw | .rndbf | .rnde4 => m == 0 || m == 2
  | _ => m == 0

/-- Field values that R201 and R204 leave assigned. -/
def fieldsOk (u : UDesc) (sec : Section) (o : PalmOp) (x : PalmArgs) : Bool :=
  modeOk o x.m
    && (match o with
      | .ld | .st => (u.stream x.imm.toNat).valid && decide (x.imm.toNat < 8)
      | .lds => decide (x.imm.toNat < 64)
      | .sts => decide (x.imm.toNat < 8)
      | .ldh => x.b.toNat != 6 && decide (x.b.toNat ≤ 7) && (x.b.toNat == 7 || x.imm != 0xFFFF)
      | _ => true)
    && (sec != .body ||
      (let k := opKinds o
       kindOk k.1 false x.d && ((o == .mov && x.a == 63 && !x.sa) || kindOk k.2.1 x.sa x.a)
         && kindOk k.2.2.1 x.sb x.b && kindOk k.2.2.2 x.sc x.c))

/-- One word of a section. -/
def wordOk (u : UDesc) (sec : Section) (w : Nat) : Bool := match decodePalm (BitVec.ofNat 64 w) with
  | none => false
  | some (o, x) => (match sec with
      | .prologue => o.inPrologue
      | .body => o.inBody
      | .epilogue => o.inEpilogue) && fieldsOk u sec o x

/-- The rules over a whole body (R201): one STW, at most one WCP behind it, no draw number twice. -/
def bodyOk (u : UDesc) (ws : List Nat) : Bool :=
  let is := ws.filterMap fun w => decodePalm (BitVec.ofNat 64 w)
  let ops := is.map (·.1)
  let draws := (is.filter fun i => i.1.draws).map fun i => i.2.imm
  ops.count .stw == 1 && decide (ops.count .wcp ≤ 1) && (u.wcp || ops.count .wcp == 0)
    && (ops.takeWhile (· != .stw)).count .wcp == 0 && draws.eraseDups.length == draws.length

namespace PalmRun

def section_ (r : PalmRun) : Section → List Nat
  | .prologue => r.words.take r.desc.pro
  | .body => (r.words.drop r.desc.pro).take r.desc.body
  | .epilogue => r.words.drop (r.desc.pro + r.desc.body)

/-- A program and descriptor that the Palm accepts (R201). -/
def accepted (r : PalmRun) : Bool :=
  r.desc.inRange && (r.section_ .prologue).all (wordOk r.desc .prologue) && (r.section_ .body).all (wordOk r.desc .body)
    && (r.section_ .epilogue).all (wordOk r.desc .epilogue) && bodyOk r.desc (r.section_ .body)

/-- The instruction at a place; none where the section has ended. -/
def instrAt (r : PalmRun) (sec : Section) (pc : Nat) : Option (PalmOp × PalmArgs) :=
  ((r.section_ sec)[pc]?).bind fun w => decodePalm (BitVec.ofNat 64 w)

/-- Every chunk of every Palm has ended. -/
def chunksDone (r : PalmRun) : Bool :=
  (List.range 4).all fun p => (r.units.get (Fin.ofNat 4 p)).ended == r.desc.palmChunks p

end PalmRun

/-! ## Arithmetic on one lane (R204 to R206) -/

def fpVal (w : W32) : Val := FloatFmt.fp32.decode w.toNat
def toFp (v : Val) : W32 := BitVec.ofNat 32 (FloatFmt.fp32.ieee .rne v)

/-- FEXP2: the ends of the range are exact, inside it the value is the unit's, within 2 ulp of 2^a (R204; log entry 5). -/
def exp2Lane (a : W32) : W32 := match fpVal a with
  | .nan => toFp .nan
  | .inf n => if n then 0 else toFp (.inf false)
  | v => if (Val.ofInt 128 0).lt v || v.eq (Val.ofInt 128 0) then toFp (.inf false)
    else Elementary.held (Config.exp2 a) (Elementary.exp2 v)

/-- FLOG2: of a positive operand the value is the unit's, within 2 ulp of log2 a (R204; log entry 5). -/
def log2Lane (a : W32) : W32 := match fpVal a with
  | .nan => toFp .nan
  | .inf n => if n then toFp .nan else toFp (.inf false)
  | .fin neg m e =>
    if m = 0 then toFp (.inf true) else if neg then toFp .nan else Elementary.held (Config.log2 a) (Elementary.log2 m e)

/-- A value rounded to a narrower format and held in FP32 (R204 RNDBF, RNDE4). -/
def roundLane (f : FloatFmt) (m : BitVec 3) (u : Nat) (a : W32) : W32 :=
  toFp (f.decode (convFloat f (if m = 2 then .sr 32 u else .rne) false (fpVal a)).code)

/-- CVTFI: FP32 to INT32 under RNE, saturating (R53, R204). -/
def toInt32 (a : W32) : Conv := convFixed 32 0 .rne (fpVal a)

/-- The result of an instruction that writes a register from its three sources (R204); `u` is its draw. -/
def lane (o : PalmOp) (m : BitVec 3) (u : Nat) (a b c : W32) : W32 :=
  match o with
  | .fadd => toFp ((fpVal a).add (fpVal b))
  | .fsub => toFp ((fpVal a).add (fpVal b).neg)
  | .fmul => toFp ((fpVal a).mul (fpVal b))
  | .fma => toFp (((fpVal a).mul (fpVal b)).add (fpVal c))
  | .fnma => toFp ((fpVal c).add ((fpVal a).mul (fpVal b)).neg)
  | .fdiv => toFp ((fpVal a).div (fpVal b))
  | .fsqrt => toFp (fpVal a).sqrt
  | .frsq => toFp (fpVal a).rsqrt
  | .fmax => toFp ((fpVal a).max2 (fpVal b))
  | .fmin => toFp ((fpVal a).min2 (fpVal b))
  | .fabs => toFp (fpVal a).abs
  | .fneg => toFp (fpVal a).neg
  | .fcps => toFp (if b.getLsbD 31 then (fpVal a).abs.neg else (fpVal a).abs)
  | .fscl => toFp ((fpVal a).scale (max (-600) (min 600 b.toInt)))
  | .fexp2 => exp2Lane a
  | .flog2 => log2Lane a
  | .rndbf => roundLane .bf16 m u a
  | .rnde4 => roundLane .e4m3 m u a
  | .iadd => a + b
  | .iand => a &&& b
  | .cvtfi => BitVec.ofNat 32 (toInt32 a).code
  | .cvtif => toFp (.ofInt a.toInt 0)
  | _ => a

/-- The predicate a comparison or classification gives (R204). -/
def lanePred (o : PalmOp) (m : BitVec 3) (a b : W32) : Bool :=
  let x := fpVal a
  let y := fpVal b
  match o with
  | .fcmp => (match m.toNat with
    | 0 => x.eq y
    | 1 => x.lt y
    | 2 => x.lt y || x.eq y
    | _ => x.isNan || y.isNan)
  | _ => (m.getLsbD 0 && x.isNan) || (m.getLsbD 1 && x.isInf) || (m.getLsbD 2 && x.isZero)

/-! ## Block reductions (R207) -/

/-- One level of the tree: neighbours combined; a missing lane is absent. -/
def treeLevel (f : W32 → W32 → W32) : List W32 → List W32
  | a :: b :: rest => f a b :: treeLevel f rest
  | l => l

/-- The fixed pairwise tree over a block of 2^k lanes. -/
def tree (f : W32 → W32 → W32) : Nat → List W32 → List W32
  | 0, l => l
  | k + 1, l => tree f k (treeLevel f l)

/-- The reduction of a list of lanes. -/
def reduce (f : W32 → W32 → W32) (l : List W32) : W32 := (tree f 9 l).headD 0

def fadd2 (a b : W32) : W32 := lane .fadd 0 0 a b 0

/-- What a block instruction gives each block (R204, R207). -/
def blockValueOf (o : PalmOp) (as : List W32) : W32 := match o with
  | .bssq => reduce fadd2 (as.map fun a => lane .fmul 0 0 a a 0)
  | .bmax => reduce (fun a b => lane .fmax 0 0 a b 0) as
  | .bmin => reduce (fun a b => lane .fmin 0 0 a b 0) as
  | _ => reduce fadd2 as

/-! ## Chunk registers -/

namespace PalmSet

def vReg (z : PalmSet) (n : Nat) : List W32 := Sparse.get (List.replicate 512 0) n z.v
def pReg (z : PalmSet) (n : Nat) : List Bool := Sparse.get (List.replicate 512 false) n z.p
def setV (z : PalmSet) (n : Nat) (l : List W32) : PalmSet := { z with v := Sparse.put (List.replicate 512 0) n l z.v }
def setP (z : PalmSet) (n : Nat) (l : List Bool) : PalmSet := { z with p := Sparse.put (List.replicate 512 false) n l z.p }

end PalmSet

/-- A chunk under execution: where it lies and its registers. -/
structure Chunk where
  d : Die
  u : UDesc
  step : W32
  r : Nat
  c0 : Nat
  n : Nat
  unit : PalmUnit
  set_ : PalmSet

namespace Chunk

/-- A source of a lane: an S register, or a V register (R203). -/
def src (k : Chunk) (scalar : Bool) (a : BitVec 6) (j : Nat) : W32 :=
  if scalar then Sparse.get 0 a.toNat k.unit.s else (k.set_.vReg a.toNat).getD j 0
/-- Source A of a lane, MOV's immediate included. -/
def srcA (k : Chunk) (o : PalmOp) (x : PalmArgs) (j : Nat) : W32 :=
  if o = .mov ∧ x.a = 63 ∧ ¬ x.sa then x.imm ++ (0 : BitVec 16) else k.src x.sa x.a j
/-- Whether an instruction acts on a lane (R206). -/
def on (k : Chunk) (x : PalmArgs) (j : Nat) : Bool := !x.ge || ((k.set_.pReg x.g.toNat).getD j false != x.gn)
/-- The draw of a lane (R209). -/
def draw (k : Chunk) (key : DrawKey) (x : PalmArgs) (j : Nat) : Nat :=
  { key with step := k.step.toNat : DrawKey }.draw k.u.layer (k.u.laneIdx k.r k.c0 j) (0x200000 + x.imm.toNat)

/-- A V register written in the active lanes that the predicate selects. -/
def writeV (k : Chunk) (x : PalmArgs) (f : Nat → W32) : PalmSet :=
  let old := k.set_.vReg x.d.toNat
  k.set_.setV x.d.toNat ((List.range 512).map fun j => if j < k.n && k.on x j then f j else old.getD j 0)
/-- A P register written in the same way. -/
def writeP (k : Chunk) (x : PalmArgs) (f : Nat → Bool) : PalmSet :=
  let old := k.set_.pReg x.d.toNat
  k.set_.setP x.d.toNat ((List.range 512).map fun j => if j < k.n && k.on x j then f j else old.getD j false)

/-- The active lanes of block b, mapped. -/
def blockLanes (k : Chunk) (b : Nat) (f : Nat → W32) : List W32 :=
  (List.range (2 ^ k.u.blkLog)).filterMap fun i =>
    let j := b * 2 ^ k.u.blkLog + i
    if j < k.n then some (f j) else none

end Chunk

/-! ## Weights and remainders (R192 to R195) -/

/-- The spacing of a stored format at a weight, as a power of two (R192). -/
def ulpExp (f : FloatFmt) (v : Val) : Int := match v with
  | .fin _ m e => if m = 0 then f.qmin else max f.qmin (expOf m e - f.fw)
  | _ => f.qmin

/-- w + rho * ulp(w) / 128 (R192, R193). -/
def wFull (f : FloatFmt) (w rho : Nat) : Val :=
  let v := f.decode w
  if v.isFin then
    let r := signedOf 8 rho
    if r = 0 then v else v.add (.ofInt r (ulpExp f v - 7))
  else v

/-- What STW makes of a lane (R194, R195). -/
structure Stored where
  w : Nat
  rho : Nat
  kept : Bool := false
  clamp : Bool := false
  conv : Conv := { code := 0 }
  deriving Inhabited

def stw (f : FloatFmt) (keep : Bool) (rnd : Rnd) (v : Val) (oldW oldRho : Nat) : Stored :=
  let held : Stored := { w := oldW, rho := oldRho, kept := true, conv := { code := oldW, nan := (f.decode oldW).isNan } }
  match v with
  | .nan => if keep then held else { w := f.nanCode, rho := 0, conv := { code := f.nanCode, nan := true } }
  | .inf n =>
    let m := f.withSign n f.maxCode
    if keep then held else { w := m, rho := 0, conv := { code := m, ovf := true } }
  | .fin .. =>
    let c := convFloat f rnd false v
    if c.ovf then { w := c.code, rho := 0, conv := c }
    else
      let wv := f.decode c.code
      let r := signedOf 64 (convFixed 64 0 .rne ((v.add wv.neg).scale (7 - ulpExp f wv))).code
      { w := c.code, rho := codeOf 8 (min r 127), clamp := decide (r > 127), conv := c }

namespace Device

/-! ## Body instructions -/

/-- Stream k of a die: its space. -/
def streamSpace (d : Die) (x : PStream) : Space := if x.tile then .tile d else .near

/-- LD of a lane: the element, in FP32 (R204). -/
def loadLane (s : Device) (k : Chunk) (x : PStream) (j : Nat) : W32 :=
  match UDesc.streamFmt x with
  | none => 0
  | some f => toFp (f.value (packedCode (s.memory (streamSpace k.d x)) x.addr f.bits (k.r * x.pitch + k.c0 + j)))

/-- ST of a chunk, with the flags of a conversion to an integer format (R53, R204). -/
def storeLanes (s : Device) (k : Chunk) (o : PalmOp) (a : PalmArgs) : Device :=
  let x := k.u.stream a.imm.toNat
  match UDesc.streamFmt x with
  | none => s
  | some f => ((List.range k.n).filter (k.on a)).foldl (fun s j =>
      let c := f.convert (rndOf (BitVec.ofNat 2 x.rnd) (k.draw s.drawKey a j)) x.inf (fpVal (k.srcA o a j))
      (s.setMemory (streamSpace k.d x)
        (setPacked (s.memory (streamSpace k.d x)) x.addr f.bits (k.r * x.pitch + k.c0 + j) c.code)).cvtFlags k.d f [c]) s

/-- The version a run reads: bank (s − 1) mod 3 (R191). -/
def oldVersion (st : W32) : Nat := (st.toNat + 2) % 3

/-- The digest word of a shard takes a term (R280). -/
def addDigest (s : Device) (e : Option Nat) (t : W64) : Device := match e with
  | none => s
  | some i => s.onFab fun f => { f with digests := Sparse.put 0 i (Sparse.get 0 i f.digests + t) f.digests }

/-- STW of a lane. -/
def storeWeight (k : Chunk) (a : PalmArgs) (shard : Option Nat) (z : Device × List (Conv × Val)) (j : Nat) :
    Device × List (Conv × Val) :=
  let s := z.1
  let f := k.u.wfmt
  let at_ (v : Nat) := k.u.weightAt v k.r (k.c0 + j)
  let rho := k.u.remAt k.r (k.c0 + j)
  let oldW := s.near (at_ (oldVersion k.step)) 2
  let oldR := s.near rho 1
  let on := k.on a j
  let st := if on then stw f k.u.keep (if a.m = 2 then .sr 32 (k.draw s.drawKey a j) else .rne) (fpVal (k.srcA .stw a j)) oldW oldR
    else { w := oldW, rho := oldR, conv := { code := oldW, nan := (f.decode oldW).isNan } }
  let s := (s.setNear (at_ k.step.toNat) 2 st.w).setNear rho 1 st.rho
  let s := s.addDigest shard (elemDigest 6 k.u.layer (k.u.laneIdx k.r k.c0 j) st.w)
  let s := s.onRun k.d fun r => { r with
    elements := r.elements + 1, kept := r.kept + b2n st.kept, clamps := r.clamps + b2n st.clamp, ovfs := r.ovfs + b2n st.conv.ovf }
  (s, z.2 ++ [(st.conv, f.decode st.w)])

/-- STW of a chunk, with its counts (R194, R195). -/
def storeWeights (s : Device) (k : Chunk) (a : PalmArgs) : Device :=
  let z := (List.range k.n).foldl (storeWeight k a (s.ownedShard k.u.layer k.d)) (s, [])
  let r0 : PalmRun := ((s.palm k.d).run).getD {}
  let r1 : PalmRun := ((z.1.palm k.d).run).getD {}
  let s := z.1.histogram k.u.record z.2
  let s := if r1.kept > r0.kept then (s.count (R.PALM_NAN_CNT_COUNT.die k.d) (r1.kept - r0.kept)).palmEvent k.d R.PALM_STAT_NAN_SKIP else s
  let s := if r1.clamps > r0.clamps then (s.count (R.PALM_SAT_CNT_COUNT.die k.d) (r1.clamps - r0.clamps)).palmEvent k.d R.PALM_STAT_REM_SAT else s
  if r1.ovfs > r0.ovfs then (s.count (R.PALM_OVF_CNT_COUNT.die k.d) (r1.ovfs - r0.ovfs)).palmEvent k.d R.PALM_STAT_OVF else s

/-- WCP of a chunk: the blocks of the weights just stored, with the counts that VCVT.B makes; the descriptor names one record
for both (R196; log entry 161). -/
def deriveCopy (s : Device) (k : Chunk) : Device :=
  match k.u.wcFloat with
  | none => s
  | some g =>
    let t : TDesc := { space := .near, addr := k.u.wcElem, scaleAddr := k.u.wcScale, bs := BitVec.ofNat 2 (k.u.wcLog - 4),
                       rows := k.u.rows, cols := k.u.cols, pitch := k.u.cols }
    let vs := (List.range k.n).map fun j => (k.u.wfmt.decode (s.near (k.u.weightAt k.step.toNat k.r (k.c0 + j)) 2), Rnd.rne)
    let first := k.c0 / blockSize t.bs
    let w := (chunksOf (blockSize t.bs) vs).zipIdx.foldl (fun (w : Written) (b : List (Val × Rnd) × Nat) =>
      writeBlock t k.u.wcFormat g false k.r w (b.1, first + b.2)) { dev := s }
    w.dev.histogram k.u.record w.counts

/-- What a body instruction does: the device, the chunk's registers and the Palm's accumulators (R204). -/
def bodyInstr (s : Device) (k : Chunk) (o : PalmOp) (x : PalmArgs) : Device × PalmSet × PalmUnit :=
  let a := k.srcA o x
  let regs (z : PalmSet) : Device × PalmSet × PalmUnit := (s, z, k.unit)
  match o with
  | .nop | .lds | .ldh | .sts => regs k.set_
  | .ld => regs (k.writeV x (s.loadLane k (k.u.stream x.imm.toNat)))
  | .st => (s.storeLanes k o x, k.set_, k.unit)
  | .ldw => regs (k.writeV x fun j => toFp (wFull k.u.wfmt (s.near (k.u.weightAt (oldVersion k.step) k.r (k.c0 + j)) 2)
      (s.near (k.u.remAt k.r (k.c0 + j)) 1)))
  | .ldwo => regs (k.writeV x fun j => toFp (k.u.wfmt.decode (s.near (k.u.weightAt (oldVersion k.step) k.r (k.c0 + j)) 2)))
  | .stw => (s.storeWeights k x, k.set_, k.unit)
  | .wcp => (s.deriveCopy k, k.set_, k.unit)
  | .srd => regs (k.writeV x fun j => BitVec.ofNat 32 (k.draw s.drawKey x j))
  | .idxr => regs (k.writeV x fun _ => BitVec.ofNat 32 (k.u.row0 + k.r))
  | .idxc => regs (k.writeV x fun j => BitVec.ofNat 32 (k.u.col0 + k.c0 + j))
  | .fcmp | .fcls => regs (k.writeP x fun j => lanePred o x.m (a j) (k.src x.sb x.b j))
  | .pand => regs (k.writeP x fun j => (k.set_.pReg x.a.toNat).getD j false && (k.set_.pReg x.b.toNat).getD j false)
  | .por => regs (k.writeP x fun j => (k.set_.pReg x.a.toNat).getD j false || (k.set_.pReg x.b.toNat).getD j false)
  | .pnot => regs (k.writeP x fun j => !(k.set_.pReg x.a.toNat).getD j false)
  | .sel =>
    let all := { x with ge := false }
    regs (k.writeV all fun j => if (k.set_.pReg x.g.toNat).getD j false != x.gn then a j else k.src x.sb x.b j)
  | .bsum | .bssq | .bmax | .bmin =>
    regs (k.writeV x fun j => blockValueOf o (k.blockLanes (j / 2 ^ k.u.blkLog) a))
  | .bcnt => regs (k.writeV x fun j =>
      let l := k.blockLanes (j / 2 ^ k.u.blkLog) fun i => if (k.set_.pReg x.a.toNat).getD i false then 1 else 0
      toFp (.ofInt (l.map BitVec.toNat).sum 0))
  | .accs =>
    let sum := reduce fadd2 ((List.range k.n).map a)
    (s, k.set_, { k.unit with acc := Sparse.put 0 x.d.toNat (fadd2 (Sparse.get 0 x.d.toNat k.unit.acc) sum) k.unit.acc })
  | .cvtfi =>
    let cs := ((List.range k.n).filter (k.on x)).map fun j => toInt32 (a j)
    (s.cvtFlags k.d .i32 cs, k.writeV x fun j => BitVec.ofNat 32 (toInt32 (a j)).code, k.unit)
  | _ => regs (k.writeV x fun j => lane o x.m (k.draw s.drawKey x j) (a j) (k.src x.sb x.b j) (k.src x.sc x.c j))

/-! ## Scalar sections -/

/-- LDH (R204): a field of a result area as FP32. -/
def resultField (s : Device) (d : Die) (step : W32) (sel idx : Nat) : W32 :=
  let x := s.solveDesc d idx
  let word (a n : Nat) (f : Nat → Int) (e : Int) : W32 := toFp (.ofInt (f (s.near a n)) e)
  match sel with
  | 7 => toFp (.ofInt step.toNat 0)
  | 0 => word (x.result + 2) 2 (fun v => v) 0
  | 1 => toFp (.ofInt (b2n (s.inForce x).isSome) 0)
  | _ => match s.inForce x with
    | none => toFp .nan
    | some c => match sel with
      | 2 => word (x.result + 4) 4 (fun v => v) 0
      | 3 => word (c + 4) 2 (signedOf 16) 0
      | 4 => word (c + 0x20) 8 (fun v => v) 0
      | _ => word (c + 0x10) 8 (signedOf 64) (-61)

/-- An instruction of the prologue or epilogue: every operand is an S register (R203). -/
def scalarInstr (s : Device) (d : Die) (run : PalmRun) (u : PalmUnit) (o : PalmOp) (x : PalmArgs) : PalmUnit :=
  let get (r : BitVec 6) : W32 := Sparse.get 0 r.toNat u.s
  let a := if o = .mov ∧ x.a = 63 ∧ ¬ x.sa then x.imm ++ (0 : BitVec 16) else get x.a
  let set_ (v : W32) : PalmUnit := { u with s := Sparse.put 0 x.d.toNat v u.s }
  match o with
  | .nop | .sts => u
  | .lds => set_ (BitVec.ofNat 32 (s.near (run.desc.par + 4 * x.imm.toNat) 4))
  | .ldh => set_ (s.resultField d run.step x.b.toNat x.imm.toNat)
  | _ => set_ (lane o x.m 0 a (get x.b) (get x.c))

/-- The sticky flags of a CVTFI of the prologue or epilogue (R53). -/
def scalarFlags (s : Device) (d : Die) (u : PalmUnit) (o : PalmOp) (x : PalmArgs) : Device :=
  if o = .cvtfi then s.cvtFlags d .i32 [toInt32 (Sparse.get 0 x.a.toNat u.s)] else s

/-- The copies of an accumulator combined, and read in the epilogue under the S register's number (R208). -/
def combineAcc (r : PalmRun) : PalmRun :=
  let targets := ((r.section_ .body).filterMap fun w => decodePalm (BitVec.ofNat 64 w)).filterMap fun i =>
    if i.1 = .accs then some i.2.d.toNat else none
  let get (p : Fin 4) (t : Nat) : W32 := Sparse.get 0 t (r.units.get p).acc
  let sum (t : Nat) : W32 := fadd2 (fadd2 (get 0 t) (get 1 t)) (fadd2 (get 2 t) (get 3 t))
  { r with combined := true,
           units := r.units.map fun u => targets.foldl (fun u t => { u with s := Sparse.put 0 t (sum t) u.s }) u }

/-! ## One issue (R201, R202) -/

/-- The next chunk of a Palm and the set it takes: chunks begin in ascending order, at most 16 in flight. -/
def beginChunk (r : PalmRun) (p : Fin 4) (c : Nat) : Option (Nat × PalmSet) :=
  let u := r.units.get p
  let slot := u.begun % 16
  let z := Sparse.get {} slot u.sets
  if c = 4 * u.begun + p.val ∧ u.begun < r.desc.palmChunks p.val ∧ z.chunk.isNone ∧ u.pc = r.desc.pro ∧ ¬ r.stopping
  then some (slot, { z with chunk := some c, pc := 0 }) else none

/-- The set that holds a chunk in flight. -/
def findChunk (u : PalmUnit) (c : Nat) : Option (Nat × PalmSet) := u.sets.find? fun x => x.2.chunk == some c

/-- ACCS adds its chunks in ascending order (R208). -/
def accsInOrder (u : PalmUnit) (c pc : Nat) : Bool :=
  u.sets.all fun x => match x.2.chunk with
    | some k => decide (k ≥ c) || decide (x.2.pc > pc)
    | none => true

/-- A body instruction of a chunk carried out; the chunk behind its last one ends. -/
def runChunk (s : Device) (d : Die) (r : PalmRun) (p : Fin 4) (c slot : Nat) (z : PalmSet) (fresh : Bool)
    (o : PalmOp) (x : PalmArgs) : Device :=
  let u := r.units.get p
  let (row, c0, n) := r.desc.chunkAt c
  let res := s.bodyInstr { d := d, u := r.desc, step := r.step, r := row, c0 := c0, n := n, unit := u, set_ := z } o x
  let fin := decide (z.pc + 1 = r.desc.body)
  let set_ : PalmSet := if fin then { res.2.1 with chunk := none, pc := 0 } else { res.2.1 with pc := z.pc + 1 }
  let z' : PalmUnit := res.2.2
  let z' : PalmUnit :=
    { z' with begun := u.begun + b2n fresh, ended := u.ended + b2n fin, sets := Sparse.put {} slot set_ z'.sets }
  res.1.onRun d fun (r : PalmRun) =>
    let r : PalmRun := { r with units := r.units.set p z' }
    if r.chunksDone && !r.combined then combineAcc r else r

/-- A run that stops has ended once no chunk is in flight (R212). -/
def settleStop (s : Device) (d : Die) : Device := match (s.palm d).run with
  | some r =>
    if r.stopping ∧ r.units.toList.all (fun u => u.sets.all fun x => x.2.chunk.isNone) then
      s.onPalm d fun p => { p with run := none, regs := r.units.map (·.sets), queue := [], held := [] }
    else s
  | none => s

/-- One issue of an instruction: it has its effect where the program word at that place is this instruction. -/
def palmIssue (s : Device) (i : PalmIssue) (o : PalmOp) : Device :=
  match (s.palm i.die).run with
  | none => s
  | some r =>
    let u := r.units.get i.palm
    match i.place with
    | .prologue =>
      if r.instrAt .prologue u.pc = some (o, i.x) ∧ ¬ r.stopping then
        let u' := s.scalarInstr i.die r u o i.x
        (s.scalarFlags i.die u o i.x).onRun i.die fun r => { r with units := r.units.set i.palm { u' with pc := u.pc + 1 } }
      else s
    | .chunk c =>
      match findChunk u c, beginChunk r i.palm c with
      | some (slot, z), _ =>
        if r.instrAt .body z.pc = some (o, i.x) ∧ (o ≠ .accs ∨ accsInOrder u c z.pc) then
          (s.runChunk i.die r i.palm c slot z false o i.x).settleStop i.die
        else s
      | none, some (slot, z) =>
        if r.instrAt .body 0 = some (o, i.x) ∧ (o ≠ .accs ∨ accsInOrder u c 0) then
          s.runChunk i.die r i.palm c slot z true o i.x
        else s
      | none, none => s
    | .epilogue =>
      if r.chunksDone ∧ ¬ r.stopping ∧ r.instrAt .epilogue u.epc = some (o, i.x) then
        let r1 := if r.combined then r else combineAcc r
        let u := r1.units.get i.palm
        let u' := s.scalarInstr i.die r1 u o i.x
        let word := Sparse.get 0 i.x.a.toNat u.s
        (s.scalarFlags i.die u o i.x).onRun i.die fun _ => { r1 with
          units := r1.units.set i.palm { u' with epc := u.epc + 1 },
          sts := if o = .sts ∧ i.palm = 0 then Sparse.put 0 i.x.imm.toNat word r1.sts else r1.sts }
      else s

/-! ## The Palm queue (R199) -/

/-- What an output descriptor writes, row by row: the elements of a row, whatever lies between two rows. -/
def outputRows (t : TDesc) : List (Space × Nat × Nat) := match Fmt.ofCode t.fmt with
  | some f => TDescOps.rowSpans t.space t.addr f.bits t.rows t.cols (TDescOps.stride t f)
  | none => []

/-- The bytes of a stream of a run, row by row. -/
def streamRows (d : Die) (u : UDesc) (x : PStream) : List (Space × Nat × Nat) := match UDesc.streamFmt x with
  | some f => TDescOps.rowSpans (streamSpace d x) x.addr f.bits u.rows u.cols x.pitch
  | none => []

/-- The fence of a PRUN: no MMA of its engine that writes a stream of the run has still to drain (R199). -/
def fenceClear (s : Device) (d : Die) (e : Engine) (layer : Nat) : Bool :=
  let u := s.updateDesc d layer
  let streams := (u.streams.filter (·.valid)).flatMap (streamRows d u)
  let outs := (s.die d).mitts.flatMap fun m =>
    ((m.2.tiles.filter fun t => t.purpose == .job && t.engines.contains e).map fun t => t.o)
      ++ m.2.jobs.filterMap fun j => match j with
        | .mma x => if x.engine = e then some x.o else none
        | .mdrain .. => none
  outs.all fun o => !TDescOps.touch (outputRows o) streams

/-- The bytes of a run's working copy, whole blocks, and of its scales (R43, R196). -/
def copyRanges (u : UDesc) : List (Space × Nat × Nat) :=
  let blocks := u.rows * ((u.cols + 2 ^ u.wcLog - 1) / 2 ^ u.wcLog)
  if u.wcp then [(.near, u.wcElem, (blocks * 2 ^ u.wcLog * u.wcFormat.bits + 7) / 8), (.near, u.wcScale, blocks)] else []

/-- The near memory that a run may write: its three banks and remainders, its working copy, and the streams that its body stores. -/
def runWrites (d : Die) (u : UDesc) (body : List Nat) : List (Space × Nat × Nat) :=
  let stored := (body.filterMap fun w => decodePalm (BitVec.ofNat 64 w)).filterMap fun i =>
    if i.1 = .st then some (u.stream i.2.imm.toNat) else none
  [(.near, u.bank, 3 * u.bankSize), (.near, u.rem, u.rows * u.cols)] ++ stored.flatMap (streamRows d u) ++ copyRanges u

/-- A run that names a frozen weight as a destination (R117). -/
def frozenRun (s : Device) (d : Die) (r : PalmRun) : Bool :=
  s.frozenLayer r.layer || TDescOps.touch (runWrites d r.desc (r.section_ .body)) s.frozenRanges

/-- The starvation test of a layer whose PRUN enters the queue (R226, R227). -/
def starvation (s : Device) (d : Die) (layer : Nat) : Device :=
  let limit := s.fld (R.VIS_STARVE_CTL_VALUE.die d)
  let a := s.fld (R.VIS_STARVE_BASE_UNITS.die d) * 4096 + 16 * layer
  let h := s.near a 8
  if limit = 0 ∨ h = 0 then s
  else
    let flags := s.near (h + 0x10C) 4
    let starved := (s.readBytes .near h 0x100).all (· == 0) && s.near (h + 0x104) 4 == 0 && s.near (h + 0x108) 4 == 0
    let s := s.setNear (a + 0x0C) 4 s.frm.step.toNat
    if flags.testBit 9 then s
    else if ¬ starved then (s.setNear (a + 8) 2 0).setNear (a + 0x0A) 1 0
    else
      let n := satCount 16 (s.near (a + 8) 2 + 1)
      let s := s.setNear (a + 8) 2 n
      if n ≥ limit ∧ ¬ (s.near (a + 0x0A) 1).testBit 0 then
        ((s.setNear (a + 0x0A) 1 1).event (R.VIS_STAT_STARVED.die d)).post 0x020A 1 (visorUnit d) (BitVec.ofNat 64 (layer + n * 2 ^ 16))
      else s

/-- A run appended to the queue. -/
def appendRun (s : Device) (d : Die) (layer : Nat) : Device :=
  (s.onPalm d fun p => { p with queue := p.queue ++ [layer] }).starvation d layer

/-- A shard's version t − 3 is gone as its run of step t begins: pins of it break (R281). -/
def breakPins (s : Device) (e : Nat) (st : W32) : Device :=
  let broken (p : Fetch) : Bool := p.entry == e && p.version == st - 3
  let n := (s.fab.pins.filter broken).length
  let s := s.onFab fun f => { f with pins := f.pins.filter fun p => !broken p, begun := f.begun ++ [e],
                                     digests := Sparse.put 0 e 0 f.digests }
  s.count R.FAB_PIN_BROKEN_COUNT n

/-- The memory that a run reads and writes: its streams, its banks, its remainders, its working copy and its record (R198). -/
def runRanges (d : Die) (u : UDesc) : List (Space × Nat × Nat) :=
  ((u.streams.filter (·.valid)).map fun x =>
    (streamSpace d x, x.addr, (u.rows * x.pitch * ((UDesc.streamFmt x).map Fmt.bits |>.getD 32) + 7) / 8)) ++
  [(.near, u.bank, 3 * u.bankSize), (.near, u.rem, u.rows * u.cols), (.near, u.status, 64)] ++ copyRanges u

/-! ## The end of a run (R210, R211) -/

/-- Bytes a chunk's loads and stores move (R210). -/
def chunkBytes (r : PalmRun) (n : Nat) : Nat :=
  let is := (r.section_ .body).filterMap fun w => decodePalm (BitVec.ofNat 64 w)
  (is.map fun i => match i.1 with
    | .ld | .st => (n * ((UDesc.streamFmt (r.desc.stream i.2.imm.toNat)).map Fmt.bits |>.getD 0) + 7) / 8
    | .ldw | .stw => 3 * n
    | .ldwo => 2 * n
    | .wcp => (n * r.desc.wcFormat.bits + 7) / 8 + (n + 2 ^ r.desc.wcLog - 1) / 2 ^ r.desc.wcLog
    | _ => 0).sum

/-- Cycles of Palm p over its chunks. -/
def palmCycles (r : PalmRun) (p : Nat) : Nat :=
  ((List.range (r.desc.palmChunks p)).map fun k =>
    max r.desc.body ((chunkBytes r (r.desc.chunkAt (4 * k + p)).2.2 + 511) / 512)).sum

/-- Cycles of the run: the longest Palm, and 1.5 µs and 0.5 µs at 1.000 GHz (R210). -/
def runCycles (r : PalmRun) : Nat := ((List.range 4).map (palmCycles r)).foldl max 0 + 2000

/-- The status record (R211). -/
def statusRecord (r : PalmRun) : List Byte :=
  leBytes 2 r.layer ++ leBytes 2 0 ++ leBytes 4 r.step.toNat ++ leBytes 8 r.elements ++ leBytes 4 r.kept ++ leBytes 4 r.clamps
    ++ leBytes 4 r.ovfs ++ leBytes 4 ((runCycles r + 999) / 1000)
    ++ (List.range 8).flatMap fun i => leBytes 4 (Sparse.get 0 i r.sts).toNat

/-- Every chunk and every epilogue has ended. -/
def runOver (r : PalmRun) : Bool := r.chunksDone && r.units.toList.all fun u => u.pc == r.desc.pro && u.epc == r.desc.epi

/-- PALM_RUN_COMPLETE (R211): the shard's version is ready to publish and to export (R279, R292). -/
def palmEnd (s : Device) (d : Die) : Device := match (s.palm d).run with
  | some r =>
    if ¬ runOver r ∨ r.stopping then s
    else
      let s := s.writeBytes .near r.desc.status (statusRecord r)
      let s := (s.count (R.PALM_RUNS_COUNT.die d) 1).count (R.PALM_CYCLES_COUNT.die d) (4 * runCycles r)
      let s := s.onPalm d fun p => { p with run := none, regs := r.units.map (·.sets) }
      match s.ownedShard r.layer d with
      | some e => s.onFab fun f => { f with
          ran := f.ran ++ [{ entry := e, step := r.step, digest := Sparse.get 0 e f.digests }], exportDue := if s.sinks = [] then f.exportDue else f.exportDue ++ [e] }
      | none => s
  | none => s

/-- The Palms of a die have nothing to do (R19). -/
def palmIdle (s : Device) (d : Die) : Bool :=
  let p := s.palm d
  p.queue == [] && p.held == [] && p.run.isNone

/-! ## RUNPACK (R213) -/

/-- An entry of the copy in force as an FP32 code: rounded once; a value beyond FP32 saturates, as a conversion without an INF bit
does (R52, R213). -/
def rootEntry (s : Device) (c op n er : Nat) (q8 : Bool) (i j : Nat) : Nat :=
  let scale : Int := signedOf 16 er - if q8 then 55 else 61
  let word (k : Nat) : Nat := (convFloat .fp32 .rne false (.ofInt (signedOf 64 (s.near (c + 4096 + 8 * k) 8)) scale)).code
  let nt := Fx.padded n / 128
  if op = 3 ∨ op = 6 ∨ op = 7 then (if i = 0 then word j else 0)
  else if op = 4 ∨ op = 5 then
    let (i, j) := if i / 128 ≤ j / 128 then (i, j) else (j, i)
    word (16384 * TapDesc.tileNo nt (i / 128) (j / 128) + 128 * (i % 128) + j % 128)
  else
    -- a stored triangle: block row c, block column a; the mirror of its other half
    let (i, j) := if j ≤ i then (i, j) else (j, i)
    word (16384 * TapDesc.tileNo nt (j / 128) (i / 128) + 128 * (i % 128) + j % 128)

/-- The format of a form, the bytes from one piece to the next, and what the pieces cover (R213). -/
def rootFmt (form : Nat) : Fmt := if form = 0 then .fp32 else .bf16
def rootSize (dst : TDesc) (form : Nat) : Nat := (dst.rows * dst.pitch * (rootFmt form).bits + 7) / 8
def rootPieces (dst : TDesc) (form : Nat) : List (Space × Nat × Nat) :=
  (List.range (max 1 form)).flatMap fun k => TDescOps.ranges { dst with addr := dst.addr + k * rootSize dst form } (rootFmt form)

/-- RUNPACK (R213): form 1 is the first BF16 piece of R59, so an entry is rounded to FP32 and then to BF16 (log entry 162); the pieces
of forms 2 and 3 lie one behind the other at the destination. A rank outside 1 to 256 is refused (R118). -/
def runpack (s : Device) (d : Die) (iaddr : W64) (index : Nat) (dst : TDesc) (form : Nat) : Device :=
  if ¬ TDescOps.rankOk dst then s.refuseVec d iaddr
  else s.accessing (vecUnit d) (rootPieces dst form) fun s =>
  let x := s.solveDesc d index
  let (s, code) : Device × (Nat → Nat → Nat) := match s.inForce x with
    | some c => (s, fun i j => s.rootEntry c (s.near c 1) (s.near (c + 8) 4) (s.near (c + 4) 2) (s.near (c + 2) 1 == 1) i j)
    | none => (s.palmEvent d R.PALM_STAT_NOROOT, fun i j => if i = j then 0x3F800000 else 0)
  let f := rootFmt form
  let size := rootSize dst form
  let piece (k c : Nat) : Nat :=
    if form = 0 then c else pieceF k c
  let put (s : Device) (k : Nat) : Device :=
    let t := { dst with addr := dst.addr + k * size }
    (TDescOps.positions t).foldl (fun s rc => s.putCode t f rc.1 rc.2 (piece k (code rc.1 rc.2))) s
  (List.range (max 1 form)).foldl put s

end Device

/-- A Palm goes on while its die issues, and, where the die's duty is not 0, to the chunk boundary when its run stops (R212, R386). -/
def palmStep (i : PalmIssue) (o : PalmOp) (s : State) : Host.Outcome State Fault Refusal :=
  onDev s fun v =>
    if v.issues i.die || (v.duty i.die != 0 && (match (v.palm i.die).run with
      | some r => r.stopping
      | none => false)) then v.palmIssue i o else v

/-- PALM_RUN_COMPLETE (R211). -/
def execPalmRunComplete (d : Die) (s : State) : Host.Outcome State Fault Refusal := onDev s fun v => v.palmEnd d
/-- NOP of a Palm (R204). -/
def execPalmNop (i : PalmIssue) (s : State) : Host.Outcome State Fault Refusal := palmStep i .nop s
/-- LD (R204). -/
def execLd (i : PalmIssue) (s : State) : Host.Outcome State Fault Refusal := palmStep i .ld s
/-- ST (R204). -/
def execSt (i : PalmIssue) (s : State) : Host.Outcome State Fault Refusal := palmStep i .st s
/-- LDW (R204). -/
def execLdw (i : PalmIssue) (s : State) : Host.Outcome State Fault Refusal := palmStep i .ldw s
/-- LDWO (R204). -/
def execLdwo (i : PalmIssue) (s : State) : Host.Outcome State Fault Refusal := palmStep i .ldwo s
/-- STW (R204). -/
def execStw (i : PalmIssue) (s : State) : Host.Outcome State Fault Refusal := palmStep i .stw s
/-- WCP (R204). -/
def execWcp (i : PalmIssue) (s : State) : Host.Outcome State Fault Refusal := palmStep i .wcp s
/-- LDS (R204). -/
def execLds (i : PalmIssue) (s : State) : Host.Outcome State Fault Refusal := palmStep i .lds s
/-- LDH (R204). -/
def execLdh (i : PalmIssue) (s : State) : Host.Outcome State Fault Refusal := palmStep i .ldh s
/-- STS (R204). -/
def execSts (i : PalmIssue) (s : State) : Host.Outcome State Fault Refusal := palmStep i .sts s
/-- SRD (R204). -/
def execSrd (i : PalmIssue) (s : State) : Host.Outcome State Fault Refusal := palmStep i .srd s
/-- IDXR (R204). -/
def execIdxr (i : PalmIssue) (s : State) : Host.Outcome State Fault Refusal := palmStep i .idxr s
/-- IDXC (R204). -/
def execIdxc (i : PalmIssue) (s : State) : Host.Outcome State Fault Refusal := palmStep i .idxc s
/-- FADD (R204). -/
def execFadd (i : PalmIssue) (s : State) : Host.Outcome State Fault Refusal := palmStep i .fadd s
/-- FSUB (R204). -/
def execFsub (i : PalmIssue) (s : State) : Host.Outcome State Fault Refusal := palmStep i .fsub s
/-- FMUL (R204). -/
def execFmul (i : PalmIssue) (s : State) : Host.Outcome State Fault Refusal := palmStep i .fmul s
/-- FMA (R204). -/
def execFma (i : PalmIssue) (s : State) : Host.Outcome State Fault Refusal := palmStep i .fma s
/-- FNMA (R204). -/
def execFnma (i : PalmIssue) (s : State) : Host.Outcome State Fault Refusal := palmStep i .fnma s
/-- FDIV (R204). -/
def execFdiv (i : PalmIssue) (s : State) : Host.Outcome State Fault Refusal := palmStep i .fdiv s
/-- FSQRT (R204). -/
def execFsqrt (i : PalmIssue) (s : State) : Host.Outcome State Fault Refusal := palmStep i .fsqrt s
/-- FRSQ (R204). -/
def execFrsq (i : PalmIssue) (s : State) : Host.Outcome State Fault Refusal := palmStep i .frsq s
/-- FMAX (R204). -/
def execFmax (i : PalmIssue) (s : State) : Host.Outcome State Fault Refusal := palmStep i .fmax s
/-- FMIN (R204). -/
def execFmin (i : PalmIssue) (s : State) : Host.Outcome State Fault Refusal := palmStep i .fmin s
/-- FABS (R204). -/
def execFabs (i : PalmIssue) (s : State) : Host.Outcome State Fault Refusal := palmStep i .fabs s
/-- FNEG (R204). -/
def execFneg (i : PalmIssue) (s : State) : Host.Outcome State Fault Refusal := palmStep i .fneg s
/-- FCPS (R204). -/
def execFcps (i : PalmIssue) (s : State) : Host.Outcome State Fault Refusal := palmStep i .fcps s
/-- FSCL (R204). -/
def execFscl (i : PalmIssue) (s : State) : Host.Outcome State Fault Refusal := palmStep i .fscl s
/-- FEXP2 (R204). -/
def execFexp2 (i : PalmIssue) (s : State) : Host.Outcome State Fault Refusal := palmStep i .fexp2 s
/-- FLOG2 (R204). -/
def execFlog2 (i : PalmIssue) (s : State) : Host.Outcome State Fault Refusal := palmStep i .flog2 s
/-- RNDBF (R204). -/
def execRndbf (i : PalmIssue) (s : State) : Host.Outcome State Fault Refusal := palmStep i .rndbf s
/-- RNDE4 (R204). -/
def execRnde4 (i : PalmIssue) (s : State) : Host.Outcome State Fault Refusal := palmStep i .rnde4 s
/-- IADD (R204). -/
def execIadd (i : PalmIssue) (s : State) : Host.Outcome State Fault Refusal := palmStep i .iadd s
/-- IAND (R204). -/
def execIand (i : PalmIssue) (s : State) : Host.Outcome State Fault Refusal := palmStep i .iand s
/-- CVTFI (R204). -/
def execCvtfi (i : PalmIssue) (s : State) : Host.Outcome State Fault Refusal := palmStep i .cvtfi s
/-- CVTIF (R204). -/
def execCvtif (i : PalmIssue) (s : State) : Host.Outcome State Fault Refusal := palmStep i .cvtif s
/-- FCMP (R204). -/
def execFcmp (i : PalmIssue) (s : State) : Host.Outcome State Fault Refusal := palmStep i .fcmp s
/-- FCLS (R204). -/
def execFcls (i : PalmIssue) (s : State) : Host.Outcome State Fault Refusal := palmStep i .fcls s
/-- PAND (R204). -/
def execPand (i : PalmIssue) (s : State) : Host.Outcome State Fault Refusal := palmStep i .pand s
/-- POR (R204). -/
def execPor (i : PalmIssue) (s : State) : Host.Outcome State Fault Refusal := palmStep i .por s
/-- PNOT (R204). -/
def execPnot (i : PalmIssue) (s : State) : Host.Outcome State Fault Refusal := palmStep i .pnot s
/-- SEL (R204). -/
def execSel (i : PalmIssue) (s : State) : Host.Outcome State Fault Refusal := palmStep i .sel s
/-- MOV (R204). -/
def execMov (i : PalmIssue) (s : State) : Host.Outcome State Fault Refusal := palmStep i .mov s
/-- BSUM (R204). -/
def execBsum (i : PalmIssue) (s : State) : Host.Outcome State Fault Refusal := palmStep i .bsum s
/-- BSSQ (R204). -/
def execBssq (i : PalmIssue) (s : State) : Host.Outcome State Fault Refusal := palmStep i .bssq s
/-- BMAX (R204). -/
def execBmax (i : PalmIssue) (s : State) : Host.Outcome State Fault Refusal := palmStep i .bmax s
/-- BMIN (R204). -/
def execBmin (i : PalmIssue) (s : State) : Host.Outcome State Fault Refusal := palmStep i .bmin s
/-- BCNT (R204). -/
def execBcnt (i : PalmIssue) (s : State) : Host.Outcome State Fault Refusal := palmStep i .bcnt s
/-- ACCS (R204). -/
def execAccs (i : PalmIssue) (s : State) : Host.Outcome State Fault Refusal := palmStep i .accs s

end Sys2Proof.Machine
end

