-- ==== Sys2Proof/Machine/Adders.lean ====
section
/-! DEFINITION. Memory-side adders: integer adds, FP32 adds, and reduction groups (spec/09 R244 to R252, R256;
spec/08 R229, R230; spec/10 R289). -/

namespace Sys2Proof.Machine

/-- The unit code of a die's near stacks and adders (R377). -/
def adderUnit (d : Die) : W16 := unitCode 0x08 d.val
/-- The die whose window a near address lies in (R236). -/
def windowOf (a : Nat) : Die := Fin.ofNat 4 (a / 2 ^ 38)

/-! ## Integer adds (R244) -/

/-- An element's sum in memory and whether it saturated. -/
def addElem (op : AddOp) (old new : Nat) : Nat × Bool := match op with
  | .i64m => ((old + new) % 2 ^ 64, false)
  | .i64s =>
    let x := signedOf 64 old + signedOf 64 new
    (codeOf 64 (satSigned 64 x), satSigned 64 x != x)
  | .u32s => (satCount 32 (old + new % 2 ^ 32), decide (old + new % 2 ^ 32 ≥ 2 ^ 32))

/-- The bytes of an element. -/
def addBytes : AddOp → Nat
  | .u32s => 4
  | _ => 8

/-- An integer add request on consecutive elements; the flag says that one saturated. -/
def addElems (op : AddOp) (m : Memory) (a : Nat) (ws : List W64) : Memory × Bool :=
  ws.zipIdx.foldl (fun (z : Memory × Bool) w =>
    let p := a + addBytes op * w.2
    let r := addElem op (z.1.readLE p (addBytes op)) w.1.toNat
    (z.1.writeLE p (addBytes op) r.1, z.2 || r.2)) (m, false)

namespace Device

def grpErr (s : Device) : Device := s.event R.MEM_STAT_GRP_ERR

/-- An integer add request (R244): naturally aligned, in near memory (R256); a saturation ORs the mask into the
flag word. -/
def integerAdd (s : Device) (op : AddOp) (a : Nat) (ws : List W64) (flagAddr : Nat) (mask : W32) : Device :=
  if a % addBytes op ≠ 0 ∨ a + addBytes op * ws.length > 2 ^ 40 then s.grpErr
  else s.accessing (adderUnit (windowOf a)) [(.near, a, addBytes op * ws.length)] fun s =>
    let z := addElems op s.mem.near a ws
    let s := s.setMemory .near z.1
    if z.2 then s.accessing (adderUnit (windowOf flagAddr)) [(.near, flagAddr, 4)] fun s =>
      s.setNear flagAddr 4 (s.near flagAddr 4 ||| mask.toNat)
    else s

/-! ## Groups -/

def adders (s : Device) (d : Die) : Adders := (s.die d).adders
def onAdders (s : Device) (d : Die) (f : Adders → Adders) : Device := s.onDie d fun x => { x with adders := f x.adders }
def group? (s : Device) (d : Die) (gid : Nat) : Option Group := (s.adders d).groups.find? fun g => g.gid == gid
def onGroup (s : Device) (d : Die) (gid : Nat) (f : Group → Group) : Device :=
  s.onAdders d fun a => { a with groups := a.groups.map fun g => if g.gid = gid then f g else g }

/-- A group's descriptor in the die's group table (R246). -/
def groupDesc (s : Device) (d : Die) (gid : Nat) : Nat := s.fld ((R.MEM_GRP_BASE_UNITS).nth d.val) * 4096 + 64 * gid
def stageBytes (s : Device) (d : Die) : Nat := s.fld ((R.MEM_STAGE_SIZE_UNITS).nth d.val) * 4096
/-- Where a place of the die's staging area lies (R248). -/
def stageAddr (s : Device) (d : Die) (i : Nat) : Nat := s.fld ((R.MEM_STAGE_BASE_UNITS).nth d.val) * 4096 + 256 * i
/-- The lowest place of the staging area that holds no staged line. -/
def freePlace (s : Device) (d : Die) : Nat :=
  let used := (s.adders d).groups.flatMap fun g => g.keys.flatMap fun k => k.2.staged.map (·.2)
  ((List.range (used.length + 1)).find? fun i => !used.contains i).getD 0

end Device

namespace Group

def key (g : Group) (k : Nat) : GKey := Sparse.get {} k g.keys
def setKey (g : Group) (k : Nat) (x : GKey) : Group := { g with keys := Sparse.put {} k x g.keys }
/-- Lines are staged (R248, R252). -/
def stages (g : Group) : Bool := g.ordered || g.demoted
/-- Keys in a state. -/
def countOf (g : Group) (st : KeyState) : Nat := ((List.range g.n).filter fun k => (g.key k).state == st).length
/-- The lowest unresolved key (R248). -/
def lowest (g : Group) : Option Nat := (List.range g.n).find? fun k => (g.key k).state == .unresolved
/-- Lines a key still misses. -/
def missing (g : Group) (k : Nat) : Nat := g.lines - (g.key k).seen.length
/-- Lines staged. -/
def stagedLines (g : Group) : Nat := (g.keys.map fun x => x.2.staged.length).sum
/-- The key that the adder applies next: resolved by END, every lower key resolved and, where by END, applied. -/
def next (g : Group) : Option Nat :=
  match (List.range g.n).find? fun k => (g.key k).state == .unresolved || (g.key k).state == .ended with
  | some k => if (g.key k).state = .ended then some k else none
  | none => none
/-- Every key is resolved and every key resolved by END is applied (R249). -/
def over_ (g : Group) : Bool :=
  (List.range g.n).all fun k => (g.key k).state != .unresolved && (g.key k).state != .ended

end Group

namespace Device

/-! ## Opening (R246) -/

/-- A group opened, or refused; `shard` names the directory entry of a group that Band opens, with its step. -/
def openGroup (s : Device) (d : Die) (gid : Nat) (shard : Option Nat) (step : W32) : Device × Bool :=
  let a := s.groupDesc d gid
  let lines := s.near a 4
  let n := s.near (a + 4) 2
  let mode := s.near (a + 6) 1
  let dest := s.near (a + 8) 8
  let rec_ := s.near (a + 0x10) 8
  let ordered := !mode.testBit 0
  let staged := ordered || s.detLatched
  let need := (((s.adders d).groups.filter Group.stages).map fun g => g.lines * 256).sum + lines * 256
  if (s.bad [(.near, a, 64)]).isSome then (s.recording (adderUnit d) [(.near, a, 64)] fun s => s, false)
  else if (s.group? d gid).isSome ∨ mode.testBit 2 ∨ mode ≥ 8 ∨ lines = 0 ∨ lines > 2 ^ 24 ∨ n = 0 ∨ n > 4096
      ∨ dest % 256 ≠ 0 ∨ dest / 2 ^ 38 ≠ d.val ∨ (dest + 256 * lines - 1) / 2 ^ 38 ≠ d.val
      ∨ rec_ % 16 ≠ 0 ∨ rec_ ≥ 2 ^ 40 ∨ s.near (a + 0x18) 40 ≠ 0 ∨ (staged ∧ need > s.stageBytes d) then
    (s.grpErr, false)
  else
    let ranges := if mode.testBit 1 then [] else [(.near, dest, 256 * lines)]
    if (s.bad ranges).isSome then (s.recording (adderUnit d) ranges fun s => s, false)
    else
    let s := s.setNear (a + 6) 1 (mode ||| 4)
    let s := if mode.testBit 1 then s
      else s.writeBytes .near dest ((List.replicate (64 * lines) (leBytes 4 0x80000000)).flatten)
    let g : Group := { gid, lines, n, ordered, demoted := !ordered && s.detLatched, epoch := BitVec.ofNat 8 (s.near (a + 7) 1),
                       dest, rec_, shard, step }
    (s.onAdders d fun x => { x with groups := x.groups ++ [g] }, true)

/-! ## FP32 adds (R245) -/

/-- One line added into the destination; the flags of infinities and NaNs come back. -/
def addLine (m : Memory) (a : Nat) (ws : List W32) : Memory × Bool × Bool :=
  ws.zipIdx.foldl (fun (z : Memory × Bool × Bool) w =>
    let p := a + 4 * w.2
    let v := fadd2 (BitVec.ofNat 32 (z.1.readLE p 4)) w.1
    (z.1.writeLE p 4 v.toNat, z.2.1 || (fpVal v).isInf, z.2.2 || (fpVal v).isNan)) (m, false, false)

/-- Lines added into a group's destination. -/
def addLines (s : Device) (d : Die) (gid : Nat) (ls : List (Nat × List W32)) : Device := match s.group? d gid with
  | none => s
  | some g => s.accessing (adderUnit d) [(.near, g.dest, 256 * g.lines)] fun s =>
    ls.foldl (fun s l =>
      let z := addLine s.mem.near (g.dest + 256 * l.1) l.2
      (s.setMemory .near z.1).onGroup d gid fun g => { g with inf := g.inf || z.2.1, nan := g.nan || z.2.2 }) s

/-! ## Completion (R249) -/

def completionRecord (g : Group) (frm : W64) : List Byte :=
  leBytes 2 (g.countOf .applied) ++ leBytes 2 (g.countOf .skipped) ++ leBytes 2 (g.countOf .refused)
    ++ leBytes 1 (b2n g.inf + 2 * b2n g.nan + 4 * b2n g.demoted) ++ leBytes 1 0 ++ leBytes 8 frm.toNat

/-- A group whose keys are all resolved and applied completes, and its opener is told; a shard's group with no key applied asks for
a copy run (R279). -/
def completeIf (s : Device) (d : Die) (gid : Nat) : Device := match s.group? d gid with
  | none => s
  | some g =>
    if ¬ g.over_ then s
    else
      let a := s.groupDesc d gid + 6
      let s := s.recording (adderUnit d) [(.near, g.rec_, 16)] fun s => s.writeBytes .near g.rec_ (completionRecord g s.frm.count)
      let s := s.recording (adderUnit d) [(.near, a, 1)] fun s => s.setNear a 1 (insertBits (s.near a 1) 2 1 0)
      let s := s.onAdders d fun x => { x with groups := x.groups.filter fun h => h.gid != gid, told := x.told ++ [gid] }
      match g.shard with
      | some e => if g.countOf .applied = 0 then s.onFab fun f => { f with copyDue := f.copyDue ++ [e] } else s
      | none => s

/-! ## Refusals (R247, R251) -/

def late (s : Device) : Device := s.count R.MEM_LATE_CNT_COUNT 1

/-- A key error: a key of the group is refused and resolved as absent, with which the group may complete; the job that the error ends leaves the
group open for its other keys. A key at or above N refuses none. -/
def keyError (s : Device) (d : Die) (g : Group) (key : Nat) : Device :=
  let s := s.event R.MEM_STAT_KEY_ERR
  let s := if key < g.n then s.onGroup d g.gid fun g => g.setKey key { state := .refused } else s
  (s.completeIf d g.gid).post 0x0306 2 (adderUnit d) (BitVec.ofNat 64 g.dest)

/-! ## Arrivals (R247, R248, R252) -/

/-- Room for one more line of a key, with the reserve for the lowest unresolved key of every ordered group (R248). -/
def admits (s : Device) (d : Die) (gid key : Nat) : Bool :=
  let gs := (s.adders d).groups.filter Group.stages
  let used := (gs.map Group.stagedLines).sum + 1
  let reserve := (gs.map fun g => match g.lowest with
    | some k => g.missing k - b2n (g.gid == gid && k == key)
    | none => 0).sum
  decide ((used + reserve) * 256 ≤ s.stageBytes d)

def hold (s : Device) (d : Die) (h : HeldLine) : Device := s.onAdders d fun x => { x with held := x.held ++ [h] }
def isHeld (s : Device) (d : Die) (gid key : Nat) : Bool := (s.adders d).held.any fun h => h.gid == gid && h.key == key

/-- One unordered contribution, counted at its first line: as nondeterminism, or as demoted (R229, R230, R252). -/
def countUnordered (s : Device) (g : Group) : Device :=
  if g.ordered then s
  else if g.demoted then s.count R.GLB_NDET_DEMOTED_VALUE 1
  else
    let n := s.fld R.GLB_NDET_CNT_LO_VALUE + s.fld R.GLB_NDET_CNT_HI_VALUE * 2 ^ 32
    let s := if n = 0 then s.setFld R.GLB_NDET_FIRST_VALUE s.stepNo.toNat else s
    (s.setFld R.GLB_NDET_CNT_LO_VALUE ((n + 1) % 2 ^ 32)).setFld R.GLB_NDET_CNT_HI_VALUE ((n + 1) / 2 ^ 32 % 2 ^ 32)

/-- A side of this device's factors, as read at the step start. -/
def localSide (s : Device) (d : Die) (layer : Nat) (side : Bool) : Option TapDesc :=
  (s.cuff d).sides.find? fun t => t.layer == layer && t.side == side && !t.route

/-- A late or old-epoch tap contribution counted in its side's header (R157, R158); an item that brings no sampled
rows is not the contribution's last: one tap batch counts once (DESIGN CHOICE, log entry 174). At its largest value a count
wraps (DESIGN CHOICE, log entry 192). -/
def countTaps (s : Device) (d : Die) (off : Nat) (i : Item) : Device := match i with
  | .tapRow layer side _ _ n _ _ =>
    match s.localSide d layer.toNat side with
    | some t => if n = 0 then s else s.setNear (t.base + off) 4 (s.near (t.base + off) 4 + 1)
    | none => s
  | .line .. => s

/-- An item whose group or key cannot take it (R251). A tap row of another epoch counts in its factor's header (R158). -/
def refuseLate (s : Device) (d : Die) (old : Bool) (i : Item) : Device :=
  let s := s.late
  match old, i with
  | true, .tapRow .. => (s.event (R.CUFF_STAT_OLD_EPOCH.die d)).countTaps d 0x28 i
  | _, _ => s

/-- A line as the staging area holds it: a short one is filled with -0, which adds nothing (R245). -/
def lineBytes (ws : List W32) : List Byte :=
  ((List.range 64).flatMap fun i => leBytes 4 (ws.getD i 0x80000000).toNat)
/-- A staged line read back. -/
def stagedLine (s : Device) (d : Die) (i : Nat) : List W32 :=
  (List.range 64).map fun k => BitVec.ofNat 32 (s.near (s.stageAddr d i + 4 * k) 4)

/-- A line or a tap row that reaches the adder: refused, held, staged, or added at once. -/
def lineArrives (s : Device) (d : Die) (h : HeldLine) (i : Item) : Device := match s.group? d h.gid with
  | none => s.refuseLate d (h.epoch != s.fab.epoch) i
  | some g =>
    let k := g.key h.key
    if g.epoch ≠ h.epoch then s.refuseLate d true i
    else if h.key ≥ g.n then s.keyError d g h.key
    else if k.state ≠ .unresolved then s.late
    else match i with
      | .tapRow .. => s.onGroup d h.gid fun g => g.setKey h.key { k with taps := k.taps ++ [i] }
      | .line n ws =>
        if n ≥ g.lines ∨ k.seen.any (· == n) then s.keyError d g h.key
        else if g.stages ∧ ¬ s.admits d h.gid h.key then s.hold d h
        else
          let s := if k.seen = [] then s.countUnordered g else s
          let k := { k with seen := k.seen ++ [n] }
          let p := s.freePlace d
          if g.stages then s.accessing (adderUnit d) [(.near, s.stageAddr d p, 256)] fun s =>
            (s.writeBytes .near (s.stageAddr d p) (lineBytes ws)).onGroup d h.gid fun g =>
              g.setKey h.key { k with staged := k.staged ++ [(n, p)] }
          else (s.onGroup d h.gid fun g => g.setKey h.key k).addLines d h.gid [(n, ws)]

/-- The step whose live buffer takes a key's tap rows: its own for an on-time key, the step in progress for a late
one (R289). -/
def tapStep (s : Device) (g : Group) (key : Nat) : W32 :=
  if g.shard.isSome ∧ key < g.n / 2 then g.step else s.frm.step

/-- A tap row of a resolved key added into its live buffer, with the rows dropped and the elements saturated that it reports (R144,
R157, R289). -/
def addTap (s : Device) (d : Die) (g : Group) (key : Nat) (i : Item) : Device := match i with
  | .tapRow layer side off ws n nan sat =>
    match s.localSide d layer.toNat side with
    | none => s
    | some t =>
      let buf := bufOf (s.tapStep g key)
      let s := s.addLive d t.base buf (t.liveBase buf + off) (ws.map BitVec.toInt)
      let s := ((s.addRows d t.key buf n).countNan d t nan).countSat d t sat
      if g.shard.isSome ∧ key ≥ g.n / 2 then s.countTaps d 0x24 i else s
  | .line .. => s

/-- A tap row of a key waits for a fold to clear its live buffer (R155). -/
def tapWaits (s : Device) (d : Die) (g : Group) (key : Nat) : Bool :=
  (g.key key).taps.any fun i => match i with
    | .tapRow layer side .. => match s.localSide d layer.toNat side with
      | some t => s.foldHolds d t.key (s.tapStep g key)
      | none => false
    | .line .. => false

/-- The owner of a factor tells the contributor of a key that its tap rows have been added (R151). -/
def ackTaps (s : Device) (g : Group) (key : Nat) : Device := match g.shard with
  | some e =>
    let p := s.contributor e (key % (g.n / 2))
    if (g.key key).taps = [] ∨ p = s.selfIdx then s else s.send (.tapAck p e key g.step)
  | none => s

/-- An END that reaches the adder (R247, R248, R251, R288); one of another epoch counts as such (R291). -/
def endArrives (s : Device) (d : Die) (h : HeldLine) : Device := match s.group? d h.gid with
  | none => s.late.count R.FAB_OLD_EPOCH_CNT_COUNT (b2n (h.epoch != s.fab.epoch))
  | some g =>
    let k := g.key h.key
    if g.epoch ≠ h.epoch then s.late.count R.FAB_OLD_EPOCH_CNT_COUNT (b2n g.shard.isSome)
    else if h.key ≥ g.n then s.keyError d g h.key
    else if k.state ≠ .unresolved then s.late
    else if k.seen.length < g.lines then s.keyError d g h.key
    else if s.tapWaits d g h.key then s.hold d h
    else
      let s := (k.taps.foldl (fun s i => s.addTap d g h.key i) s).ackTaps g h.key
      let st : KeyState := if g.stages then .ended else .applied
      let s := s.onGroup d h.gid fun g => g.setKey h.key { k with state := st, taps := [] }
      let s := if g.shard.isSome ∧ h.key ≥ g.n / 2 then s.count R.FAB_FOLD_CNT_COUNT 1 else s
      s.completeIf d h.gid

/-- A line, a tap row or an END at the adder. -/
def arriveNow (s : Device) (d : Die) (h : HeldLine) : Device := match h.item with
  | some i => s.lineArrives d h i
  | none => s.endArrives d h

/-- An arrival behind one of its own key that flow control holds waits behind it. -/
def arrive (s : Device) (d : Die) (h : HeldLine) : Device :=
  if s.isHeld d h.gid h.key then s.hold d h else s.arriveNow d h

/-- The i-th held item sent again, unless an earlier one of its key still waits or it finds no room. -/
def retryAt (s : Device) (d : Die) (i : Nat) : Option Device :=
  let hs := (s.adders d).held
  match hs[i]? with
  | none => none
  | some h =>
    if (hs.take i).any (fun b => b.gid == h.gid && b.key == h.key) then none
    else
      let s := (s.onAdders d fun x => { x with held := hs.eraseIdx i }).arriveNow d h
      if (s.adders d).held.length < hs.length then some s else none

/-- The oldest held item that can go on is sent again (R248). -/
def stagingRetry (s : Device) (d : Die) : Device :=
  ((List.range (s.adders d).held.length).findSome? (s.retryAt d)).getD s

/-! ## SKIP (R250) -/

def skipOutcome (s : Device) (d : Die) (x : SkipOutcome) : Device := s.onAdders d fun a => { a with lastSkip := some x }

/-- An on-time key of a shard's group that was skipped: its late key may be open in the next step (R286). -/
def noteSkip (s : Device) (g : Group) (key : Nat) : Device := match g.shard with
  | some e => if key < g.n / 2 then s.onFab fun f => { f with skippedNow := f.skippedNow ++ [(e, key)] } else s
  | none => s

/-- A SKIP: an unresolved key becomes absent and what it staged is discarded. -/
def skip (s : Device) (d : Die) (gid key : Nat) (epoch : Byte) : Device := match s.group? d gid with
  | none => s.late.skipOutcome d .skipClosed
  | some g =>
    if g.epoch ≠ epoch then s.late.skipOutcome d .skipClosed
    else if key ≥ g.n then (s.keyError d g key).skipOutcome d .keyError
    else match (g.key key).state with
      | .unresolved =>
        (((s.noteSkip g key).onGroup d gid fun g => g.setKey key { state := .skipped }).completeIf d gid).skipOutcome d .skipped
      | .skipped => s.skipOutcome d .skipped
      | .refused => s.late.skipOutcome d .keyError
      | .ended | .applied => s.skipOutcome d .skipLate

/-! ## Applying keys (R248) -/

def keyApply (s : Device) (d : Die) (gid : Nat) : Device := match s.group? d gid with
  | some g => if g.applying.isNone ∧ g.stages then s.onGroup d gid fun g => { g with applying := g.next } else s
  | none => s

def keyApplied (s : Device) (d : Die) (gid : Nat) : Device := match s.group? d gid with
  | some g => match g.applying with
    | some k =>
      let s := s.addLines d gid ((g.key k).staged.map fun x => (x.1, s.stagedLine d x.2))
      let s := s.onGroup d gid fun g => { g.setKey k { g.key k with state := .applied, staged := [] } with applying := none }
      s.completeIf d gid
    | none => s
  | none => s

/-! ## MADD (R247) -/

/-- The lines of a plain FP32 source, 64 elements each. -/
def sourceLines (s : Device) (t : TDesc) : List (List W32) :=
  chunksOf 64 ((TDescOps.positions t).map fun rc => BitVec.ofNat 32 (s.elemCode t .fp32 rc.1 rc.2))

/-- Lines of a key from a source in any space, then its END where the instruction has it. -/
def madd (s : Device) (d : Die) (gid key : Nat) (epoch : Byte) (src : TDesc) (line0 : Nat) (endMark : Bool) : Device :=
  let s := (s.sourceLines src).zipIdx.foldl (fun s l =>
    s.arrive d { gid, key, epoch, item := some (.line (line0 + l.2) l.1) }) s
  if endMark then s.arrive d { gid, key, epoch } else s

end Device

/-- LINE_ARRIVAL (R248). -/
def execLineArrival (d : Die) (gid : BitVec 12) (key : W16) (epoch : Byte) (item : Item) (s : State) :
    Host.Outcome State Fault Refusal :=
  onDev s fun v => v.arrive d { gid := gid.toNat, key := key.toNat, epoch, item := some item }
/-- END_MARKER (R248). -/
def execEndMarker (d : Die) (gid : BitVec 12) (key : W16) (epoch : Byte) (s : State) : Host.Outcome State Fault Refusal :=
  onDev s fun v => v.arrive d { gid := gid.toNat, key := key.toNat, epoch }
/-- STAGING_RETRY (R248). -/
def execStagingRetry (d : Die) (s : State) : Host.Outcome State Fault Refusal := onDev s fun v => v.stagingRetry d
/-- KEY_APPLY (R248). -/
def execKeyApply (d : Die) (gid : BitVec 12) (s : State) : Host.Outcome State Fault Refusal :=
  onDev s fun v => v.keyApply d gid.toNat
/-- KEY_APPLIED (R249). -/
def execKeyApplied (d : Die) (gid : BitVec 12) (s : State) : Host.Outcome State Fault Refusal :=
  onDev s fun v => v.keyApplied d gid.toNat
/-- MEMORY_SIDE_ADD (R244). -/
def execMemorySideAdd (op : AddOp) (addr : Nat) (words : List W64) (flagAddr : Nat) (mask : W32) (s : State) :
    Host.Outcome State Fault Refusal :=
  onDev s fun v => v.integerAdd op addr words flagAddr mask

end Sys2Proof.Machine
end

