-- ==== Sys2Proof/Machine/Falcon.lean ====
section
/-! DEFINITION. Verification of a Falcon-1024 signature in its padded form, as the Falcon specification has it: polynomials modulo
x^1024 + 1 and 12289 (spec/00 R4; spec/15 R405; log entry 7). -/

namespace Sys2Proof.Machine

namespace Falcon

def n : Nat := 1024
def q : Nat := 12289
/-- The bound on the squared norm of a signature. -/
def bound : Nat := 70265242

/-- The bits of a byte string, the most significant of each byte first. -/
def bits (b : List Byte) : List Bool := b.flatMap fun x => (List.range 8).map fun i => x.getLsbD (7 - i)
/-- A number from its bits, the most significant first. -/
def number (b : List Bool) : Nat := b.foldl (fun z x => 2 * z + x.toNat) 0

/-- `k` fields of 14 bits. -/
def fields : Nat → List Bool → List Nat
  | 0, _ => []
  | k + 1, b => number (b.take 14) :: fields k (b.drop 14)

/-- The polynomial of a public key of 1,793 bytes: its header byte, then a coefficient below 12289 in each 14 bits. -/
def publicPoly (key : List Byte) : Option (List Nat) :=
  let h := fields n (bits (key.drop 1))
  if key.length = 1793 ∧ key.headD 0 = 0x0A ∧ h.all (fun c => decide (c < q)) then some h else none

/-- `k` compressed coefficients: a sign, seven low bits, and the high part in unary; minus zero and values above 2,047 are refused, and
so are bits behind the last that are not zero. -/
def decompress : Nat → List Bool → Option (List Int)
  | 0, b => if b.any id then none else some []
  | k + 1, b =>
    let rest := b.drop 8
    let high := (rest.takeWhile fun x => !x).length
    let v := number ((b.drop 1).take 7) + 128 * high
    if high ≥ rest.length ∨ v > 2047 ∨ (b.headD false ∧ v = 0) then none
    else (decompress k (rest.drop (high + 1))).map fun l => (if b.headD false then -(v : Int) else v) :: l

/-- The coefficients below 12289 that a stream of 16-bit words gives, those from 61445 on being left out. -/
def draws : List Byte → List Nat
  | a :: b :: rest =>
    let t := 256 * a.toNat + b.toNat
    if t < 5 * q then t % q :: draws rest else draws rest
  | _ => []

/-- The point that a nonce and a message hash to: 64 blocks of output give enough coefficients. -/
def point (m : List Byte) : List Nat := (draws (Shake.blocks 64 m)).take n

/-- A product modulo x^1024 + 1: coefficient i. -/
def coefficient (s : List Int) (h : List Nat) (i : Nat) : Int :=
  ((List.range n).map fun j =>
    if j ≤ i then s.getD j 0 * (h.getD (i - j) 0 : Int) else -(s.getD j 0 * (h.getD (n + i - j) 0 : Int))).sum

/-- A residue of 12289 of least size. -/
def centred (x : Int) : Int := let r := x % q; if r > q / 2 then r - q else r

/-- A signature of a message verifies under a public key. -/
def verify (key message sig : List Byte) : Bool :=
  let c := point ((sig.drop 1).take 40 ++ message)
  match publicPoly key, decompress n (bits (sig.drop 41)) with
  | some h, some s =>
    let s0 := (List.range n).map fun i => centred (c.getD i 0 - coefficient s h i)
    let norm := ((s0 ++ s).map fun x => x.natAbs * x.natAbs).sum
    decide (sig.length = 1280 ∧ sig.headD 0 = 0x3A ∧ c.length = n ∧ norm ≤ bound)
  | _, _ => false

end Falcon

end Sys2Proof.Machine
end

