-- ==== Sys2Proof/Machine/Hatbox.lean ====
section
/-! DEFINITION. The Hatbox: regions, segments, records, the spill to the far tier, and the vector-engine
instructions of the residual stream and of element-wise functions (spec/04 R113, R116, R124 to R137). -/

namespace Sys2Proof.Machine

/-- The unit code of a die's Hatbox (R377). -/
def hbxUnit (d : Die) : W16 := unitCode 0x06 d.val

/-- Bytes a record takes: its header and its data padded to 64 bytes (R128). -/
def recordBytes (len : Nat) : Nat := 64 + (len + 63) / 64 * 64
/-- Whole 4 KiB units. -/
def units4k (n : Nat) : Nat := (n + 4095) / 4096

namespace HbxRec

def bytes (r : HbxRec) : Nat := recordBytes r.len

end HbxRec

namespace HbxRegion

/-- Open segments. -/
def openSegs (r : HbxRegion) : List HbxSeg := r.segs.filter fun g => g.recs != []
/-- Every record of a region. -/
def records (r : HbxRegion) : List HbxRec := (r.segs.flatMap fun g => g.recs) ++ r.park
/-- Bytes of a region in use. -/
def occupied (r : HbxRegion) : Nat :=
  (r.segs.map fun g => g.ext - g.lo).sum + ((r.park.filter fun x => x.place == .park).map HbxRec.bytes).sum
/-- The oldest segments are reclaimed once they have closed (R127). -/
def reclaim (r : HbxRegion) : HbxRegion := { r with segs := r.segs.dropWhile fun g => g.recs == [] }

/-- The ring has wrapped: a segment lies below the oldest one (R127). -/
def wrapped (r : HbxRegion) : Bool := r.segs.head?.any fun o => r.segs.any fun g => decide (g.lo < o.lo)

/-- Whether `n` bytes fit above offset `a` of the ring, `limit` being its length: below the limit, or below
the oldest segment once the ring has wrapped. -/
def roomAt (r : HbxRegion) (limit a n : Nat) : Bool :=
  decide (a + n ≤ if r.wrapped then (r.segs.head?.map HbxSeg.lo).getD limit else limit)

/-- Where a new segment's first record goes: above the newest segment, or wrapped to the base (R127). -/
def newPlace (r : HbxRegion) (limit n : Nat) : Option Nat :=
  match r.segs.head?, r.segs.getLast? with
  | some o, some g =>
    if r.roomAt limit g.ext n then some g.ext
    else if ¬ r.wrapped ∧ n ≤ o.lo then some 0 else none
  | _, _ => if n ≤ limit then some 0 else none

end HbxRegion

/-- The lowest place for `n` units among ranges in use, inside `size` units. -/
def firstFit (used : List (Nat × Nat)) (size n : Nat) : Option Nat :=
  let starts := sortBy (· ≤ ·) (0 :: used.map fun (x : Nat × Nat) => x.1 + x.2)
  starts.find? fun c => decide (c + n ≤ size) &&
    used.all fun (x : Nat × Nat) => decide (c + n ≤ x.1) || decide (x.1 + x.2 ≤ c)

namespace Device

def region (s : Device) (d : Die) (k : Nat) : HbxRegion := Sparse.get {} k (s.die d).hbx
def setRegion (s : Device) (d : Die) (k : Nat) (r : HbxRegion) : Device :=
  s.onDie d fun x => { x with hbx := Sparse.put {} k r x.hbx }

/-- A refused push or pop (R126, R127, R129). -/
def refuseHbx (s : Device) (d : Die) (iaddr : W64) : Device :=
  (s.event (R.HBX_STAT_ORDER_ERR.die d)).postIllegal (hbxUnit d) iaddr

/-- The field of region `k`. -/
def regionFld (f : Fld) (d : Die) (k : Nat) : Fld := (f.die d).nth k
def regionBase (s : Device) (d : Die) (k : Nat) : Nat := s.fld (regionFld R.HBX_BASE_UNITS d k) * 4096
def parkBytes (s : Device) (d : Die) (k : Nat) : Nat := s.fld (regionFld R.HBX_PARK_UNITS d k) * 4096
/-- Bytes of the ring of segments: the region below its park (R126). -/
def ringBytes (s : Device) (d : Die) (k : Nat) : Nat :=
  s.fld (regionFld R.HBX_SIZE_UNITS d k) * 4096 - s.parkBytes d k

/-- Open segments over all regions of a die (HBX_STAT.OPEN_SEG). -/
def openSegments (s : Device) (d : Die) : Nat := ((s.die d).hbx.map fun x => x.2.openSegs.length).sum

/-! ## The data of a record -/

/-- The elements a push writes, row by row: tokens innermost where it transposes (R111). -/
def pushRows (s : Device) (x : HPush) (f : Fmt) : List (List Val) :=
  if x.tokenMajor then (List.range x.src.cols).map fun c => (List.range x.src.rows).map fun r => s.elem x.src f r c
  else (List.range x.src.rows).map fun r => (List.range x.src.cols).map fun c => s.elem x.src f r c

/-- Codes packed without gaps (R41). -/
def packCodes (bits : Nat) (codes : List Nat) : List Byte :=
  leBytes ((codes.length * bits + 7) / 8) (codes.foldr (fun c v => c % 2 ^ bits + 2 ^ bits * v) 0)

/-- One row in a block-scaled format: conversions, +0 behind them to the end of the last block, and scale bytes (R42 to R45). -/
def packBlocks (g : FloatFmt) (bs : BitVec 2) (row : List Val) : List Conv × List Byte :=
  let bl := (chunksOf (blockSize bs) row).map fun (b : List Val) => convBlock g false (b.map fun v => (v, Rnd.rne))
  (bl.flatMap fun (b : Byte × List Conv) => b.2 ++ List.replicate (blockSize bs - b.2.length) { code := 0 },
    bl.map fun (b : Byte × List Conv) => b.1)

/-- The data of a record, with its conversions: the converted elements, packed row behind row, and behind them the scale bytes of a
block-scaled format. A push in the source's own plain format copies codes; one into a block-scaled format converts in one step whatever
the source, since R55 binds VCVT only; all of this the manual leaves open (log entry 24). -/
def pushData (s : Device) (x : HPush) (sf df : Fmt) : List Byte × List Conv :=
  let rows := s.pushRows x sf
  match df.blocked, df.float? with
  | true, some g =>
    let bl := rows.map (packBlocks g x.bs)
    let cs := bl.flatMap (·.1)
    (packCodes df.bits (cs.map (·.code)) ++ bl.flatMap (·.2), cs)
  | _, _ =>
    if sf = df then
      (packCodes df.bits (if x.tokenMajor
        then (List.range x.src.cols).flatMap fun c => (List.range x.src.rows).map fun r => s.elemCode x.src sf r c
        else (List.range x.src.rows).flatMap fun r => (List.range x.src.cols).map fun c => s.elemCode x.src sf r c), [])
    else
      let cs := rows.flatMap fun row => row.map (df.convert .rne false)
      (packCodes df.bits (cs.map (·.code)), cs)

/-- The 64-byte header of a record (R128). -/
def recordHeader (s : Device) (x : HPush) (spilled : Bool) (len : Nat) (prev : W64) : List Byte :=
  leBytes 2 x.layer.toNat ++ leBytes 1 x.kind.toNat ++ leBytes 1 (b2n spilled + 2 * b2n x.tokenMajor)
    ++ leBytes 4 x.mb.toNat ++ leBytes 8 len ++ leBytes 16 x.desc.toNat ++ leBytes 8 prev.toNat
    ++ leBytes 4 s.frm.step.toNat ++ leBytes 20 0

/-! ## Pushes -/

/-- Units of the spill area in use by the records of every region of a die. -/
def spillUsed (s : Device) (d : Die) : List (Nat × Nat) :=
  (s.die d).hbx.flatMap fun (x : Nat × HbxRegion) =>
    (x.2.records.filter fun r => r.place == .spill).map fun r => (r.off / 4096, units4k r.bytes)

/-- Where a record's bytes lie. -/
def recordAddr (s : Device) (d : Die) (k : Nat) (r : HbxRec) : Space × Nat :=
  match r.place with
  | .spill => (.far, s.fld (R.HBX_SPILL_BASE_UNITS.die d) * 4096 + r.off)
  | _ => (.near, s.regionBase d k + r.off)

/-- Units in use of the tie park. -/
def parkUsed (s : Device) (d : Die) (k : Nat) : List (Nat × Nat) :=
  ((s.region d k).park.filter fun r => r.place == .park).map fun r => (r.off - s.ringBytes d k, r.bytes)

/-- The place of a record of `n` bytes in the spill area, if it has one (R134, R135). -/
def spillPlace (s : Device) (d : Die) (n : Nat) : Option Nat :=
  (firstFit (s.spillUsed d) (s.fld (R.HBX_SPILL_SIZE_UNITS.die d)) (units4k n)).map (4096 * ·)

/-- A record that cannot be placed (R135): the job ends. The detail is the region's number (DESIGN CHOICE, log entry 25). -/
def exhausted (s : Device) (d : Die) (k : Nat) : Device :=
  (s.event (R.HBX_STAT_SPILL_FULL.die d)).post 0x020C 2 (hbxUnit d) (BitVec.ofNat 64 k)

/-- A placed record written, a spill counted (R128, R134), and what follows a push that is performed. The bytes that fill the record's last
64 keep what they held (DESIGN CHOICE, log entry 175). -/
def writeRecord (s : Device) (d : Die) (k : Nat) (x : HPush) (r : HbxRec) (prev : W64) (data : List Byte) (done : Device → Device) :
    Device :=
  let (sp, a) := s.recordAddr d k r
  s.accessing (hbxUnit d) [(sp, a, r.bytes)] fun s =>
  let s := s.writeBytes sp a (s.recordHeader x (r.place == .spill) r.len prev ++ data)
  done (if r.place = .spill then
    (s.event (R.HBX_STAT_SPILL.die d)).count (R.HBX_SPILL_UNITS_COUNT.die d) (units4k r.bytes)
  else s)

/-- The high-water mark of a region (HBX_HWMk). -/
def raiseHwm (s : Device) (d : Die) (k : Nat) : Device :=
  let f := regionFld R.HBX_HWM_UNITS d k
  s.setFld f (max (s.fld f) (units4k (s.region d k).occupied))

/-- The offset of the record under a new one, or all-ones (R128). It counts from the base of the region, or of the spill area for a record
that lies there (DESIGN CHOICE, log entry 176). -/
def prevOff (g : Option HbxSeg) : W64 := match g.bind (·.recs.head?) with
  | some r => BitVec.ofNat 64 r.off
  | none => BitVec.allOnes 64

/-- A push onto the newest segment of a region, or onto a new one (R127, R134); `flags` is what a performed push sets besides. -/
def pushSegment (s : Device) (d : Die) (k : Nat) (x : HPush) (data : List Byte) (flags : Device → Device) : Device :=
  let r := s.region d k
  let limit := s.ringBytes d k
  let n := recordBytes data.length
  let newest := r.segs.getLast?.filter fun g => g.mb == x.mb && g.recs != []
  let at_ := match newest with
    | some g => if r.roomAt limit g.top n then some g.top else none
    | none => r.newPlace limit n
  let mk (p : HbxPlace) (o : Nat) : HbxRec := { layer := x.layer, kind := x.kind, mb := x.mb, place := p, off := o, len := data.length }
  let add (z : HbxRec) (top : Option Nat) : HbxRegion := match newest with
    | some g =>
      { r with segs := r.segs.dropLast ++ [{ g with top := top.getD g.top, ext := top.getD g.ext, recs := z :: g.recs }] }
    | none =>
      let lo := match top with
        | some t => t - n
        | none => (r.segs.getLast?.map fun g => g.ext).getD 0
      { r with opened := r.opened.filter (· != x.mb) ++ [x.mb], segs := r.segs ++ [{ mb := x.mb, lo := lo, top := top.getD lo, ext := top.getD lo, recs := [z] }] }
  match at_, s.spillPlace d n with
  | some a, _ => s.writeRecord d k x (mk .region a) (prevOff newest) data fun s =>
    flags ((s.setRegion d k (add (mk .region a) (some (a + n)))).raiseHwm d k)
  | none, some a => s.writeRecord d k x (mk .spill a) (prevOff newest) data fun s => flags (s.setRegion d k (add (mk .spill a) none))
  | none, none => s.exhausted d k

/-- A write into the tie park (R124; log entry 24), with no record under it (log entry 176). -/
def pushPark (s : Device) (d : Die) (k : Nat) (x : HPush) (data : List Byte) (flags : Device → Device) : Device :=
  let r := s.region d k
  let n := recordBytes data.length
  let mk (p : HbxPlace) (o : Nat) : HbxRec := { layer := x.layer, kind := x.kind, mb := x.mb, place := p, off := o, len := data.length }
  let put (z : HbxRec) : Device := s.writeRecord d k x z (BitVec.allOnes 64) data fun s =>
    flags ((s.setRegion d k { r with park := r.park ++ [z] }).raiseHwm d k)
  match firstFit (s.parkUsed d k) (s.parkBytes d k) n, s.spillPlace d n with
  | some a, _ => put (mk .park (s.ringBytes d k + a))
  | none, some a => put (mk .spill a)
  | none, none => s.exhausted d k

/-- HPUSH (R126 to R128): a micro-batch older than the one pushed last takes no more records (R127). -/
def hpush (s : Device) (d : Die) (x : HPush) : Device :=
  let k := x.stage.val
  let r := s.region d k
  if s.fld (regionFld R.HBX_SIZE_UNITS d k) = 0 then s.refuseHbx d x.iaddr
  else match Fmt.ofCode x.src.fmt, Fmt.ofCode x.dstf with
    | some sf, some df =>
      let df := df.beside sf
      let z := s.pushData x sf df
      let read (f : Device → Device) : Device := s.accessing (hbxUnit d) (TDescOps.ranges x.src sf) f
      if x.kind.toNat > 4 ∨ ¬ TDescOps.rankOk x.src then s.postIllegal (hbxUnit d) x.iaddr
      else if x.park then read fun s => s.pushPark d k x z.1 fun s => s.cvtFlags d df z.2
      else if r.opened.dropLast.contains x.mb then s.refuseHbx d x.iaddr
      else read fun s => s.pushSegment d k x z.1 fun s => s.cvtFlags d df z.2
    | _, _ => s.postIllegal (hbxUnit d) x.iaddr

/-! ## Pops -/

/-- Whether a record is the one an HPOP names (R129). -/
def popMatches (x : HPop) (r : HbxRec) : Bool := r.layer == x.layer && r.kind == x.kind && r.mb == x.mb

/-- `n` bytes of a side tensor have been written at `a`: the drains and the waiting instructions whose side tensor begins in them find it
resident (R116). -/
def nowResident (s : Device) (sp : Space) (a n : Nat) : Device := match sp with
  | .tile e =>
    let mark (o : TDesc) : TDesc := if a ≤ o.side ∧ o.side < a + n then { o with sideResident := true } else o
    let held (h : HeldIssue) : HeldIssue := match h.op with
      | .mma x => { h with op := .mma { x with o := mark x.o } }
      | _ => h
    let job (j : MittJob) : MittJob := match j with
      | .mma x => .mma { x with o := mark x.o }
      | .mdrain i t => .mdrain i t
    s.onDie e fun x => { x with palm := { x.palm with held := x.palm.held.map held }, mitts := x.mitts.map fun m =>
      (m.1, { m.2 with tiles := m.2.tiles.map fun t => { t with o := mark t.o }, jobs := m.2.jobs.map job }) }
  | _ => s

/-- A record's data handed to the destination of its pop; a side tensor is then resident (R116). -/
def deliver (s : Device) (d : Die) (k : Nat) (x : HPop) (r : HbxRec) : Device :=
  let (sp, a) := s.recordAddr d k r
  s.accessing (hbxUnit d) [(sp, a, r.bytes), (x.dst, x.addr, r.len)] fun s =>
  let s := s.writeBytes x.dst x.addr (s.readBytes sp (a + 64) r.len)
  if x.kind = 1 then s.nowResident x.dst x.addr r.len else s

/-- A segment without its top record: the newest gives its space back at once, an emptied one keeps its own
until it is reclaimed (R127). -/
def popTop (newest : Bool) (g : HbxSeg) : HbxSeg :=
  match g.recs with
  | [] => g
  | r :: rest =>
    let top := if r.place = .region then r.off else g.top
    { g with recs := rest, top := top, ext := if newest && rest != [] then top else g.ext }

/-- HPOP (R129), or a read of the tie park (R124). -/
def hpop (s : Device) (d : Die) (x : HPop) : Device :=
  let k := x.stage.val
  let r := s.region d k
  if s.fld (regionFld R.HBX_SIZE_UNITS d k) = 0 then s.refuseHbx d x.iaddr
  else if x.park then match r.park.find? (popMatches x) with
    | some z => (s.deliver d k x z).setRegion d k { r with park := r.park.erase z }
    | none => s.refuseHbx d x.iaddr
  else
    let seg := r.segs.zipIdx.find? fun (g : HbxSeg × Nat) => g.1.mb == x.mb && g.1.recs != []
    match seg.bind fun g => (g.1.recs.head?.filter (popMatches x)).map fun z => (z, g.2) with
    | some (z, i) =>
      let segs := r.segs.zipIdx.map fun (g : HbxSeg × Nat) =>
        if g.2 = i then popTop (i + 1 == r.segs.length) g.1 else g.1
      (s.deliver d k x z).setRegion d k ({ r with segs := segs } : HbxRegion).reclaim
    | none => s.refuseHbx d x.iaddr

/-! ## Step start (R130) -/

/-- Records left over on a die are discarded, counted and reported (R130), the detail being their number (DESIGN CHOICE, log entry 25). -/
def discardLeftover (s : Device) (d : Die) : Device :=
  let n := ((s.die d).hbx.map fun (x : Nat × HbxRegion) => x.2.records.length).sum
  let s := s.onDie d fun x => { x with hbx := [] }
  if n = 0 then s
  else (s.count (R.HBX_LEFTOVER_COUNT.die d) n).post 0x020B 1 (hbxUnit d) (BitVec.ofNat 64 n)

/-! ## The residual stream and element-wise functions (R113, R116, R136) -/

/-- The FP32 add of a layer's output into the residual stream (R136, R137); a stream that crosses to a peer goes out (R19, R269). A sum beyond
FP32 saturates to the largest finite value, as a conversion without an INF bit does: R136 names no overflow (DESIGN CHOICE, log entry
177). -/
def streamAdd (s : Device) (d : Die) (iaddr : W64) (out stream : TDesc) : Device :=
  if Fmt.ofCode out.fmt ≠ some .fp32 ∨ Fmt.ofCode stream.fmt ≠ some .fp32 ∨ s.badDest stream .fp32 ∨ ¬ TDescOps.rankOk out then s.refuseVec d iaddr
  else s.accessing (vecUnit d) (TDescOps.ranges out .fp32 ++ TDescOps.ranges stream .fp32) fun s =>
    let rows := (List.range stream.rows).map fun r => (List.range stream.cols).map fun c =>
      (s.elem stream .fp32 r c).add (s.elem out .fp32 r c)
    let (s, cs) := s.writeTensor d stream .fp32 0 false 0 rows fun _ _ => false
    match stream.toPeer with
    | some p => s.sendTensor { peer := p } (cs.map (·.code))
    | none => s

/-- The value of an element-wise function, in FP32 (R113; log entries 5 and 23). -/
def forwardValue (fder : Nat) (fparam : W16) (z : Val) : Val :=
  let p := FloatFmt.bf16.decode fparam.toNat
  let r (v : Val) : Val := FloatFmt.fp32.decode (FloatFmt.fp32.ieee .rne v)
  match fder with
  | 0 => z
  | 1 => z.max2 .zero
  | 2 => if z.isNan then .nan else if Val.zero.lt z then z else r (p.mul z)
  | 3 => r ((z.max2 .zero).mul (z.max2 .zero))
  | 8 => r (p.mul z)
  | n => if z.isNan then .nan
    else FloatFmt.fp32.decode (Config.forwardFn n (BitVec.ofNat 32 (FloatFmt.fp32.ieee .rne z))).toNat

/-- The side tensor of a function: mask bits, z, or f(z), converted to BF16 under the INF bit of its descriptor (R52, R113, R116). -/
def writeSide (s : Device) (fder : Nat) (side : TDesc) (zs ys : List (List Val)) : Device :=
  let each (s : Device) (xs : List (List Val)) (f : Device → Nat → Nat → Val → Device) : Device :=
    xs.zipIdx.foldl (fun s (row : List Val × Nat) =>
      row.1.zipIdx.foldl (fun s (v : Val × Nat) => f s row.2 v.2 v.1) s) s
  match fder with
  | 0 | 8 => s
  | 1 | 2 => each s zs fun s r c v =>
    s.setMemory side.space (setPacked (s.memory side.space) side.addr 1 (r * side.pitch + c) (b2n (Val.zero.lt v)))
  | 6 | 7 => each s ys fun s r c v => s.putCode side .bf16 r c (convFloat .bf16 .rne side.inf v).code
  | _ => each s zs fun s r c v => s.putCode side .bf16 r c (convFloat .bf16 .rne side.inf v).code

/-- The bytes of the side tensor of a function: a mask bit or a BF16 value for each element of its destination (R116). -/
def sideRanges (fder : Nat) (dst side : TDesc) : List (Space × Nat × Nat) :=
  let side := { side with rows := dst.rows, cols := dst.cols }
  if fder = 0 ∨ fder = 8 ∨ dst.rows = 0 ∨ dst.cols = 0 then []
  else if fder ≤ 2 then [(side.space, side.addr, ((side.rows - 1) * side.pitch + side.cols + 7) / 8)]
  else TDescOps.ranges side .bf16

/-- APPLY_F (R113, R116): a reserved function is refused. -/
def applyF (s : Device) (d : Die) (iaddr : W64) (fder : Nat) (fparam : W16) (src dst side : TDesc) : Device :=
  match Fmt.ofCode src.fmt, Fmt.ofCode dst.fmt with
  | some sf, some df =>
    if fder > 8 ∨ dst.rnd = 3 ∨ s.badDest dst df ∨ ¬ TDescOps.rankOk src ∨ ¬ TDescOps.rankOk side then s.refuseVec d iaddr
    else s.accessing (vecUnit d) (TDescOps.ranges src sf ++ TDescOps.ranges dst df ++ sideRanges fder dst side) fun s =>
      let df := df.beside sf
      let zs := s.srcRows src dst sf
      let ys := zs.map fun row => row.map (forwardValue fder fparam)
      let (s, cs) := s.writeTensor d dst df dst.rnd dst.inf (vecDraw dst) ys fun _ _ => false
      ((s.cvtFlags d df cs).writeSide fder side zs ys).nowResident side.space side.addr ((sideRanges fder dst side).map fun (z : Space × Nat × Nat) => z.2.2).sum
  | _, _ => s.refuseVec d iaddr

end Device

end Sys2Proof.Machine
end

