-- ==== Sys2Proof/Machine/MemUnit.lean ====
section
/-! DEFINITION. Near stacks and the far tier: reads and their errors, the patrol scrub, stack training and lane sparing, and the CXL
ports (spec/09 R234, R239 to R243, R253 to R264). -/

namespace Sys2Proof.Machine

namespace Device

/-! ## Lanes (R240, R243) -/

/-- An entry of the lane-spare record in the Lining: lane + 1 in bits 6:0, channel in 11:7, stack in 14:12, and bit 15
while it is only pending (log entry 34); an entry of zero is free. -/
def laneWord (pending : Bool) (stack chan lane : Nat) : Nat := lane + 1 + chan * 2 ^ 7 + stack * 2 ^ 12 + b2n pending * 2 ^ 15
/-- The record's entries: the number of each and its word. -/
def laneEntries (s : Device) : List (Nat × Nat) :=
  ((List.range 512).map fun i => (i, s.lining.readLE (0x400 + 2 * i) 2)).filter fun e => e.2 ≠ 0
/-- A lane marked bad or pending. -/
def laneMarked (s : Device) (stack chan lane : Nat) : Bool :=
  s.laneEntries.any fun e => e.2 % 2 ^ 15 == laneWord false stack chan lane
/-- Marked lanes of a channel, and of a stack. -/
def marksOf (s : Device) (stack chan : Nat) : Nat := (s.laneEntries.filter fun e => e.2 / 2 ^ 7 % 2 ^ 8 == chan + 32 * stack).length
def stackMarks (s : Device) (stack : Nat) (pending : Bool) : Nat :=
  (s.laneEntries.filter fun e => e.2 / 2 ^ 12 % 8 == stack && e.2.testBit 15 == pending).length
/-- The lanes of a channel that need a spare: those in the record and those that a training has found, in the record or not. -/
def badLanes (s : Device) (found : List (Fin 32 × List (Fin 74))) (stack chan : Nat) : List Nat :=
  (((s.laneEntries.filter fun (e : Nat × Nat) => e.2 / 2 ^ 7 % 2 ^ 8 == chan + 32 * stack).map fun (e : Nat × Nat) => e.2 % 2 ^ 7 - 1) ++
    ((found.filter fun (c : Fin 32 × List (Fin 74)) => c.1.val == chan).flatMap fun (c : Fin 32 × List (Fin 74)) => c.2.map Fin.val)).eraseDups
/-- Spare lanes of a stack that replace a data or check lane (lanes below 72; 72 and 73 are the spares themselves). -/
def sparesUsed (s : Device) (found : List (Fin 32 × List (Fin 74))) (stack : Nat) : Nat :=
  ((List.range 32).map fun c => ((s.badLanes found stack c).filter (· < 72)).length).sum
/-- A lane put into the record; a full record takes no more. -/
def markLane (s : Device) (pending : Bool) (stack chan lane : Nat) : Device :=
  if s.laneMarked stack chan lane then s
  else match (List.range 512).find? fun i => s.lining.readLE (0x400 + 2 * i) 2 == 0 with
    | some i => s.setLining (0x400 + 2 * i) (leBytes 2 (laneWord pending stack chan lane))
    | none => s

/-- Bonnet decides on a lane: at LANE_TH errors within the period it becomes pending (R243). -/
def laneDecide (s : Device) (stack chan lane : Nat) : Device :=
  let key := (stack * 32 + chan) * 72 + lane
  if Sparse.get 0 key s.mem.laneErrs < s.fld R.MEM_SCRUB_CTL_LANE_TH ∨ s.laneMarked stack chan lane ∨ ¬ s.procs.q3.up then s
  else
    let third := decide (s.marksOf stack chan ≥ 2)
    let s := s.markLane true stack chan lane
    let s := s.count (R.MEM_STACK_PENDING.nth stack) 1
    -- the warning carries stack, channel and lane, and whether the lane would be a third spare (log entry 25)
    (s.memLog { kind := 6, place := stack, channel := chan, lane := lane, unit := bonnetUnit }).post 0x0304 1
      (unitCode 0x08 (stack / 2)) (BitVec.ofNat 64 (stack + chan * 2 ^ 8 + lane * 2 ^ 16 + b2n third * 2 ^ 32))

/-- A corrected read of a near address (R259). -/
def correctedRead (s : Device) (a : Nat) (lane : Option (Fin 72)) (scrub : Bool) (unit : W16) : Device :=
  let k := stackOf a
  let s := s.count (R.MEM_CE_CNT_COUNT.nth k) 1
  let s := s.memLog { s.logItem false a 1 scrub unit with lane := (lane.map Fin.val).getD 0xFFFF }
  let first := !s.flag R.MEM_STAT_CE
  let s := s.event R.MEM_STAT_CE
  let s := if first ∧ s.flag R.MEM_CTL_EVENT then s.post 0x0301 1 (unitCode 0x08 (k / 2)) (BitVec.ofNat 64 a) else s
  match lane with
  | none => s
  | some l =>
    let key := (k * 32 + channelOf a) * 72 + l.val
    let s := { s with mem := { s.mem with laneErrs := Sparse.put 0 key (Sparse.get 0 key s.mem.laneErrs + 1) s.mem.laneErrs } }
    s.laneDecide k (channelOf a) l.val

/-! ## Reads (R234, R258, R259) -/

def severityOf : Requester → Nat
  | .jobUnit _ => 2
  | .host => 1
def unitOf : Requester → W16
  | .jobUnit u => u
  | .host => 0x0B4

/-- A memory read completes with what its check code found. -/
def burstRead (s : Device) (far : Bool) (a : Nat) (o : ReadOutcome) (r : Requester) : Device :=
  if s.unmapped far a then s.refuseAccess far a false (unitOf r) (severityOf r)
  else if s.downFar far a then s.uncorrectable (s.logItem far a 2 false (unitOf r)) (severityOf r)
  else match o with
    | .good => s
    | .corrected lane => if far then s else s.correctedRead a lane false (unitOf r)
    | .uncorrectable => s.uncorrectable (s.logItem far a 2 false (unitOf r)) (severityOf r)
    | .poison => if far then s.uncorrectable (s.logItem far a 3 false (unitOf r)) (severityOf r) else s

/-! ## The patrol scrub (R260) -/

/-- The scrub moves to the next line; a lane's count belongs to one pass over the memory (R243). -/
def nextLine (s : Device) : Device :=
  let n := (s.mem.scrubLine + 1) % 2 ^ 32
  { s with mem := { s.mem with scrubLine := n, laneErrs := if n = 0 then [] else s.mem.laneErrs } }

/-- The next near line is read, in ascending address order, while Bonnet runs. -/
def scrub (s : Device) (o : ReadOutcome) : Device :=
  if ¬ s.flag R.MEM_SCRUB_CTL_EN ∨ ¬ s.procs.q3.up ∨ ¬ s.flag R.MEM_STAT_TRAINED then s
  else
    let a := 256 * s.mem.scrubLine
    let sev := if s.jobRuns then 2 else 1
    let s := if s.unmapped false a then s.refuseAccess false a true bonnetUnit sev
      else match o with
        | .corrected lane => s.correctedRead a lane true bonnetUnit
        | .uncorrectable => s.uncorrectable (s.logItem false a 2 true bonnetUnit) sev
        | _ => s
    s.nextLine

/-! ## Training (R239 to R242) -/

/-- The lanes a stack's training found are recorded as bad, with those that were pending. -/
def recordLanes (s : Device) (k : Nat) (failed : List (Fin 32 × List (Fin 74))) : Device :=
  let s := failed.foldl (fun s c => c.2.foldl (fun s l => s.markLane false k c.1.val l.val) s) s
  s.laneEntries.foldl (fun s e =>
    if e.2 / 2 ^ 12 % 8 = k then s.setLining (0x400 + 2 * e.1) (leBytes 2 (e.2 % 2 ^ 15)) else s) s

/-- The end of a stack's training: trained with its lanes spared, or failed where a channel needs more than two (a
spare lane that failed counts among the two, log entry 114). -/
def stackTrained (s : Device) (k : Nat) (found : List (Fin 32 × List (Fin 74))) : Device :=
  let s := s.setFld (R.MEM_STACK_PENDING.nth k) 0
  if (List.range 32).any fun c => (s.badLanes found k c).length > 2 then
    ((s.setFld (R.MEM_STACK_STATE.nth k) 2).setFld R.MEM_STAT_STACK_FAIL 1).post 0x0303 3 (unitCode 0x08 (k / 2)) (BitVec.ofNat 64 k)
  else (s.setFld (R.MEM_STACK_STATE.nth k) 1).setFld (R.MEM_STACK_SPARES.nth k) (s.sparesUsed found k)

/-- STACK_TRAINING_DONE: after all eight, TRAINED sets, the device becomes READY and its timer starts (R239, R364). -/
def trainingDone (s : Device) (k : Nat) (failed : List (Fin 32 × List (Fin 74))) : Device :=
  if s.stackState k ≠ 0 ∨ ¬ s.procs.q3.up then s
  else
    let s := (s.recordLanes k failed).stackTrained k failed
    if (List.range 8).all fun j => s.stackState j ≠ 0 then
      let s := s.setFld R.MEM_STAT_TRAINED 1
      if s.cmd.dstate = .notReady then
        ({ s with frm := { s.frm with started := true, since := 0 } }).setDState .ready
      else s
    else s

/-- A stack with a pending lane is to be retrained before the next job start (R242). -/
def retrainDue (s : Device) (k : Nat) : Bool :=
  s.flag R.MEM_CTL_RETRAIN_IDLE && s.stackState k == 1 && decide (s.stackMarks k true > 0)

/-- STACK_RETRAIN: between jobs, which is until the next one has loaded, one stack with a pending lane at a time; the training is Bonnet's
(R242, R380). -/
def retrain (s : Device) (k : Nat) (done : Bool) : Device :=
  if ¬ s.procs.q3.up then s
  else if done then
    if s.stackState k = 3 then (s.recordLanes k []).stackTrained k [] else s
  else if s.retrainDue k ∧ (s.cmd.dstate = .ready ∨ s.cmd.dstate = .starting) ∧ (List.range 8).all (fun j => s.stackState j ≠ 3) then
    s.setFld (R.MEM_STACK_STATE.nth k) 3
  else s

/-! ## CXL ports (R253, R254, R257) -/

def farFld (f : Fld) (p : Fin 2) : Fld := f.nth p.val

/-- A place of far memory lies in one of some areas of far addresses. -/
def inAreas (ilv : Bool) (areas : List (Nat × Nat)) (k : Nat) : Bool :=
  areas.any fun a => decide (a.1 ≤ farAddr ilv k) && decide (farAddr ilv k < a.1 + a.2)
/-- What a wipe that a port missed covers of far memory. -/
def covers (u : Unwiped) (k : Nat) : Bool := u.port == k / 2 ^ 42 && u.areas.all fun z => inAreas u.ilv z k

/-- A port with capacity that was down at a wipe is wiped now, as far as that wipe goes (R262, R263). -/
def wipePort (s : Device) (p : Nat) : Device :=
  let due := s.mem.unwiped.filter fun u => u.port == p
  if due = [] ∨ s.fld (R.MEM_FAR_CAP_CAP.nth p) = 0 then s
  else
    let s := { s with mem := { s.mem with
      far := s.mem.far.keep (fun k => !due.any fun u => covers u k), unwiped := s.mem.unwiped.filter fun u => u.port != p } }
    s.setFld R.MEM_STAT_WIPING 1

/-- A trained port is enumerated: capacity in whole 256 MiB units, at most 4 TiB; a width of 0 is a port with no
device or one that failed to train. -/
def enumerate (s : Device) (p : Fin 2) (cap : Nat) (width : BitVec 5) (rate : BitVec 2) : Device :=
  if ¬ s.portDown p.val ∨ s.jobRuns ∨ ¬ s.procs.q3.up then s
  else
    let ok := (width = 4 ∨ width = 8 ∨ width = 16) ∧ rate ≠ 0
    let units := if ok then cap / 2 ^ 28 else 0
    let s := s.setFld (farFld R.MEM_FAR_CAP_CAP p) (min units 16384)
    let s := s.setFld (farFld R.MEM_FAR_STAT_WIDTH p) (if ok then width.toNat else 0)
    let s := s.setFld (farFld R.MEM_FAR_STAT_RATE p) (if ok then rate.toNat else 0)
    (s.setFld (farFld R.MEM_FAR_STAT_TRUNC p) (b2n (decide (units > 16384)))).wipePort p.val

/-- MEM_FAR_DOWN (R257). -/
def farDown (s : Device) (p : Fin 2) : Device :=
  if s.portDown p.val then s
  else
    let s := (s.setFld (farFld R.MEM_FAR_STAT_WIDTH p) 0).setFld (farFld R.MEM_FAR_STAT_RATE p) 0
    (s.event (farFld R.MEM_FAR_STAT_DOWN p)).post 0x0305 2 (unitCode 0x0A (4 + p.val)) (BitVec.ofNat 64 p.val)

/-- A far memory event is logged and posted as a warning (R257). -/
def logFarEvent (s : Device) (p : Fin 2) (a : Nat) : Device :=
  (s.memLog { addr := a, kind := 5, place := 0x80 + p.val, unit := unitCode 0x0A (4 + p.val) }).post 0x0307 1
    (unitCode 0x0A (4 + p.val)) (BitVec.ofNat 64 a)

/-- MEM_FAR_EVENT (R257), which waits while Bonnet restarts (R384). -/
def farEvent (s : Device) (p : Fin 2) (a : Nat) : Device :=
  if s.portDown p.val then s
  else if s.procs.q3.up then s.logFarEvent p a
  else { s with mem := { s.mem with bonnetHeld := s.mem.bonnetHeld ++ [(p, a)] } }

end Device

/-- BURST_READ (R258). -/
def execBurstRead (far : Bool) (addr : Nat) (outcome : ReadOutcome) (by_ : Requester) (s : State) :
    Host.Outcome State Fault Refusal :=
  onDev s fun v => v.burstRead far addr outcome by_
/-- PATROL_SCRUB (R260). -/
def execPatrolScrub (outcome : ReadOutcome) (s : State) : Host.Outcome State Fault Refusal := onDev s fun v => v.scrub outcome
/-- STACK_TRAINING_DONE (R241). -/
def execStackTrainingDone (k : Fin 8) (failedLanes : List (Fin 32 × List (Fin 74))) (s : State) :
    Host.Outcome State Fault Refusal :=
  onDev s fun v => v.trainingDone k.val failedLanes
/-- STACK_RETRAIN (R242). -/
def execStackRetrain (k : Fin 8) (done : Bool) (s : State) : Host.Outcome State Fault Refusal :=
  onDev s fun v => v.retrain k.val done
/-- CXL_ENUMERATE (R254). -/
def execCxlEnumerate (p : Fin 2) (capacity : Nat) (width : BitVec 5) (rate : BitVec 2) (s : State) :
    Host.Outcome State Fault Refusal :=
  onDev s fun v => v.enumerate p capacity width rate
/-- MEM_FAR_DOWN (R257). -/
def execMemFarDown (p : Fin 2) (s : State) : Host.Outcome State Fault Refusal := onDev s fun v => v.farDown p
/-- MEM_FAR_EVENT (R257). -/
def execMemFarEvent (p : Fin 2) (addr : Nat) (s : State) : Host.Outcome State Fault Refusal := onDev s fun v => v.farEvent p addr

end Sys2Proof.Machine
end

