-- ==== Sys2Proof/Machine/Fabric.lean ====
section
/-! DEFINITION. The Washa fabric: flits as they arrive, links that go down and come up, peers and their loss, heartbeats, publishing,
fetching and replicas (spec/10 R265 to R285). -/

namespace Sys2Proof.Machine

namespace Device

/-! ## Flits received (R266 to R268) -/

/-- A flit received in sequence with a good CRC is taken, with the credits it returns; any other is refused or already here. What can
go on then does. -/
def receive (s : Device) (p : Nat) (x : Flit) : Device :=
  let q := s.port p
  if ¬ q.up ∨ ¬ x.crcGood then s
  else
    let left := q.buf.filter fun f => decide ((x.ack - f.seq).toNat ≥ 2 ^ 15)
    let q : PortSt := { q with buf := left, replayRun := if left.length < q.buf.length then 0 else q.replayRun }
    let cv := x.creditVc.val
    if x.seq ≠ q.rxSeq ∨ (q.inbuf.filter fun f => f.vc == x.vc).length ≥ 64 then (s.setPort p q).pump
    else (s.setPort p { q with
      rxSeq := q.rxSeq + 1, inbuf := q.inbuf ++ [x],
      credits := q.credits.set cv (min 64 (q.credits.getD cv 0 + 4 * x.credits.toNat)) }).pump

/-! ## Warnings and counts -/

/-- The job uses the fabric (R320). -/
def fabricJob (s : Device) : Bool := match s.cmd.job with
  | some j => j.desc.self != 0xFFFF
  | none => false

/-- A warning of the fabric, where FAB_CTL.EVENT lets it be posted (R298). -/
def fabWarn (s : Device) (code : W16) (detail : Nat) : Device :=
  if s.flag R.FAB_CTL_EVENT then s.post code 1 fabUnit (BitVec.ofNat 64 detail) else s

/-- A contribution dropped (R288, R298). -/
def dropped (s : Device) (detail : Nat) : Device :=
  ((s.event R.FAB_STAT_DROP).count R.FAB_DROP_CNT_COUNT 1).fabWarn 0x0403 detail

/-- A micro-batch that cannot go on is abandoned, and ABANDON goes to every peer that waits for a tensor of it (R285). -/
def abandonMb (s : Device) (x : Stuck) : Device :=
  if s.fab.abandoned.any (· == x.mb) then s
  else
    let s := s.onFab fun f => { f with abandoned := f.abandoned ++ [x.mb] }
    x.peers.foldl (fun s p => s.send (.abandon p.val x.mb)) (s.count R.FAB_ABANDON_CNT_COUNT 1)

/-! ## Peers that are gone (R274, R285, R287, R288) -/

/-- The open groups that Band opened for shards: die, group and directory entry. -/
def shardGroups (s : Device) : List (Die × Group × Nat) :=
  ([0, 1, 2, 3] : List Die).flatMap fun d => (s.adders d).groups.filterMap fun g => g.shard.map fun e => (d, g, e)

/-- The keys of a contributor that is LOST or DEPARTED are skipped at once (R287). -/
def skipKeysOf (s : Device) (peer : Nat) : Device :=
  s.shardGroups.foldl (fun s x =>
    let n := x.2.1.n / 2
    ((List.range n).filter fun k => s.contributor x.2.2 k == peer).foldl (fun s k =>
      let one (s : Device) (key : Nat) : Device :=
        if ((s.group? x.1 x.2.1.gid).map fun g => (g.key key).state == .unresolved).getD false then
          s.skip x.1 x.2.1.gid key x.2.1.epoch else s
      one (one s k) (n + k)) s) s

/-- Contributions to an owner that is gone are dropped at once: those of the step in progress and those that were to fold; one that the
program has not ended yet counts at its END (R288). -/
def dropSums (s : Device) (owner : Nat) : Device :=
  let his (x : Sum) : Bool := s.entryOwner x.entry == owner
  let lost := s.fab.sums.filter fun x => his x && (x.ended || x.endDue) &&
    (x.step == s.frm.step || x.skipped || decide (x.key ≥ s.entryN x.entry))
  let s := s.onFab fun f => { f with sums := f.sums.filter fun x => !his x }
  lost.foldl (fun s _ => s.dropped owner) s

/-- A peer that becomes LOST (2) or DEPARTED (3): PEER_LOST, its keys skipped, contributions to it dropped, the micro-batches that wait
for a tensor of it abandoned (R274, R285, R288). A peer once lost stays so. A tick master that is lost stays the master until its
missing tick (R276). A fetch that it was to answer may be made again (R283). -/
def peerGone (s : Device) (peer st : Nat) (waits : Waits) : Device :=
  if s.peerDead peer ∨ s.peerState peer = 0 then s
  else
    let s := if s.master = some peer then s.onFab fun f => { f with oldMaster := some peer } else s
    let s := s.onFab fun f => { f with asked := f.asked.filter fun x => s.fetchFrom x.1 != peer }
    let s := s.setPeer peer 8 1 st
    let s := if st = 3 then s.onFab fun f => { f with whole := f.whole.filter (· != peer) } else s
    let s := (s.event R.FAB_STAT_PEER_LOST).fabWarn 0x0401 peer
    waits.foldl abandonMb ((s.skipKeysOf peer).dropSums peer)

/-- A message waits in hardware for Band (R380, R384). -/
def forBand (s : Device) (x : BandWork) : Device := s.onFab fun f => { f with bandHeld := f.bandHeld ++ [x] }

/-! ## Links and partition (R273 to R275) -/

/-- The job's ACTIVE members. -/
def activeMembers (s : Device) : List Nat := s.listedPeers.filter fun p => s.peerMember p && s.peerState p == 1

/-- The members that are ACTIVE: what a later split is measured against (R275; log entry 153). -/
def noteWhole (s : Device) : Device := let ms := s.activeMembers; s.onFab fun f => { f with whole := ms }

/-- Each part of a split fabric keeps the job only with more than half of the members that were ACTIVE before, or
with exactly half and the tick master (R275). -/
def partition (s : Device) : Device :=
  let mine := s.activeMembers.filter fun p => s.fab.whole.contains p && s.reaches p
  let n := s.fab.whole.length
  if ¬ s.fabricJob ∨ ¬ s.peerMember s.selfIdx ∨ mine.length = n then s
  else if 2 * mine.length > n then s
  else if 2 * mine.length = n ∧ mine.any (fun p => s.master == some p) then s
  else s.post 0x0406 2 fabUnit (BitVec.ofNat 64 s.selfIdx)

/-- Of some peers, those whose links have all been reported down are LOST, as Band declares, and says in a LOST notice (R274, R380; log
entry 164). -/
def declareLost (s : Device) (peers : List Nat) (waits : Waits) : Device :=
  if ¬ s.bandUp then s
  else
    (peers.foldl (fun s p =>
      if p ≠ s.selfIdx ∧ (s.peerState p = 1 ∨ s.peerState p = 4) ∧ s.peerLinks p = 0 then (s.peerGone p 2 waits).send (.lost p) else s)
      s).partition

/-- A notice that a link is down (R273, R274). -/
def linkLost (s : Device) (x : LinkEnds) (waits : Waits) : Device :=
  (s.mapLink x false).declareLost [x.from_.val, x.partner.val] waits

/-- A port's link, from this end. -/
def portLink (s : Device) (p : Nat) : LinkEnds :=
  { from_ := Fin.ofNat 4096 s.selfIdx, port := Fin.ofNat 16 p, partner := Fin.ofNat 4096 (s.port p).partner,
    partnerPort := Fin.ofNat 16 (s.port p).partnerPort }

/-- A message that had not gone out goes to the port of its peer's route; one for every peer stands on the other ports too (R273). -/
def reroute (s : Device) (m : Msg) : Device := match m.peer?.bind s.routePort with
  | some o => s.setPort o { (s.port o) with out := (s.port o).out ++ [m] }
  | none => s

/-- A port goes down: routes move to their alternates, with the messages that had not gone out, LINK_DOWN is broadcast, and a device
with no port up is isolated (R273, R275). -/
def portDown' (s : Device) (p : Nat) (waits : Waits) : Device :=
  let q := s.port p
  if ¬ q.up then s
  else
    let x := s.portLink p
    let s := s.setPort p { partner := q.partner, partnerPort := q.partnerPort, inbuf := q.inbuf }
    let s := s.mapLink x false
    let s := (q.out.foldl reroute s).pump.send (.linkDown x)
    let s := if s.portsUp = [] then s.post 0x0405 2 fabUnit (BitVec.ofNat 64 p) else s
    s.declareLost [x.partner.val] waits

/-- The port sends its replay buffer again (R267); the eighth time in a row takes it down. -/
def replay (s : Device) (p : Nat) (waits : Waits) : Device :=
  let q := s.port p
  if ¬ q.up ∨ q.buf = [] then s
  else
    let s := s.eventCount (R.FAB_PORT_STAT_REPLAYS.nth p)
    let s := s.setPort p { q with replayRun := q.replayRun + 1 }
    if q.replayRun + 1 ≥ 8 then s.portDown' p waits else s

/-- A port trains to 4, 2 or 1 lanes; without one it stays down (R265). After a release no lane trains before the images are verified
(R363, R364). -/
def portTrained (s : Device) (p lanes partner partnerPort : Nat) : Device :=
  if (s.port p).up ∨ s.cmd.dstate = .hold ∨ s.booting ∨ ¬ (lanes = 1 ∨ lanes = 2 ∨ lanes = 4) then s
  else
    let s := s.setPort p { up := true, width := lanes, partner := partner, partnerPort := partnerPort, inbuf := (s.port p).inbuf }
    let x := s.portLink p
    (s.mapLink x true).send (.linkUp x)

/-! ## Heartbeats (R272) -/

def heartbeatOf (s : Device) (p : Nat) : Msg :=
  .heartbeat p Config.deviceId s.selfIdx (BitVec.ofNat 8 (s.peerState s.selfIdx)) s.frm.count s.frm.step s.fab.epoch
    (BitVec.ofNat 16 (s.peerLinks s.selfIdx)) (1000 * s.clockUs) (s.port p).lastTx (s.port p).lastRx

def sendBeats (s : Device) : Device := s.portsUp.foldl (fun s p => s.send (s.heartbeatOf p)) s

/-- ((t4 - t1) - (t3 - t2)) / 2 in ns, at least 0 (log entry 22). -/
def linkDelay (x : Beat) : Nat := ((((x.t4 : Int) - x.t1) - ((x.t3 : Int) - x.t2)) / 2).toNat

/-- FRM_COUNT when a peer was last heard, directly or through a notice (R271). -/
def heard (s : Device) (peer : Nat) : Device := if s.peerDead peer then s else s.setPeer peer 0x10 8 s.frm.count.toNat

/-- A heartbeat (R272): the sender's links, the delay of the link it came over, and the routes and path delays that follow. -/
def beat (s : Device) (p : Nat) (x : Beat) : Device :=
  let peer := x.peer.val
  if ¬ (s.port p).up ∨ s.peerDead peer then s
  else
    let s := (s.heard peer).setPeer peer 0x1C 2 x.links.toNat
    let s := s.onFab fun f => { f with links := f.links.filter fun l =>
      !((l.from_.val == peer && !x.links.getLsbD l.port.val) || (l.partner.val == peer && !x.links.getLsbD l.partnerPort.val)) }
    let s := if (s.port p).partner = peer then
      s.setPort p { (s.port p) with delay := linkDelay x, lastTx := x.t3, lastRx := x.t4 } else s
    s.setRoutes

/-! ## Publishing and copy runs (R279, R280) -/

/-- NCOLS of a layer: the layer table's, or the shard's columns where it holds none (R277). -/
def ncolsOf (s : Device) (e : Nat) : Nat :=
  let n := s.near (s.dirBase + 16 * s.entryLayer e + 8) 8
  if n = 0 then s.entryCols e else n

/-- The shard digest of the weights in bytes (R280). -/
def shardDigest (s : Device) (e : Nat) (bytes : List Byte) : W64 :=
  let cols := s.entryCols e
  (List.range (s.entryRows e * cols)).foldl (fun (z : W64) i =>
    let idx := (s.entryRow0 e + i / cols) * s.ncolsOf e + s.entryCol0 e + i % cols
    z + elemDigest 6 (s.entryLayer e) idx (leVal ((bytes.drop (2 * i)).take 2))) 0

/-- The weights of version v of a shard this device owns. -/
def versionData (s : Device) (e v : Nat) : List Byte := s.readBytes .near (s.bankAddr e v) (2 * s.entryRows e * s.entryCols e)

/-- COPY_RUN (R279): bank (s − 1) mod 3 copied to bank s mod 3, published with the previous digest. The shard has no update run in this step; the
step of a job that has ended has no copy run either (R323). -/
def copyRun (s : Device) (e : Nat) : Device :=
  if ¬ s.fab.copyDue.any (· == e) ∨ s.fab.exportDue.any (· == e) ∨ s.cmd.dstate ≠ .running then s
  else
    let st := s.frm.step
    let n := s.bankBytes (s.entryDie e) (s.entryLayer e) (s.entryRows e) (s.entryCols e)
    let s := s.onFab fun f => { f with copyDue := f.copyDue.filter (· != e), copied := f.copied ++ [e] }
    let s := s.breakPins e st
    let s := s.writeBytes .near (s.bankAddr e st.toNat) (s.readBytes .near (s.bankAddr e (st.toNat + 2)) n)
    let g := s.entryDigest e
    s.onFab fun f => { f with digests := Sparse.put 0 e g f.digests, ran := f.ran ++ [{ entry := e, step := st, digest := g }],
                              exportDue := if s.sinks = [] then f.exportDue else f.exportDue ++ [e] }

/-! ## Late sums for shards of other owners (R288, R289) -/

/-- The shard whose contribution a layer's tap rows go with: the first of the layer that their owner owns (R289). -/
def tapShard (s : Device) (layer owner : Nat) : Option Nat := (s.shardsOf layer).find? fun e => s.entryOwner e == owner

/-- The tap rows that went out with a contribution. -/
def tapsOf (s : Device) (x : Sum) : List Msg := s.fab.tapsSent.filter fun m => match m with
  | .tapRow peer layer _ step .. => step == x.step && s.tapShard layer peer == some x.entry
  | _ => false

/-- A sum that was skipped goes out again, unchanged, as key N + k, its tap rows first (R288, R289). -/
def sendLate (s : Device) (x : Sum) : Device :=
  let n := s.entryN x.entry
  let s := (s.tapsOf x).foldl (fun s m => s.send m) s
  let s := s.onFab fun f => { f with sums := f.sums.map fun y => if y = x then { x with key := n + x.key, skipped := false } else y }
  s.send (.contribution (s.entryOwner x.entry) x.entry (n + x.key) s.fab.epoch x.lines true)

/-- A skipped sum that has ended is due as a late key: its owner has published the version of the sum's step, and so opened the next group, and
not yet the one after (R288; DEDUCED, log entry 202). -/
def lateDue (s : Device) (x : Sum) : Bool := x.skipped && x.ended && s.entryVersion x.entry == x.step

/-- The sums that are due as late keys go out (R288). -/
def sendLateSums (s : Device) : Device := (s.fab.sums.filter s.lateDue).foldl (fun s x => s.sendLate x) s

/-! ## Fetches (R282, R283) -/

/-- The answer to a fetch that can be answered: the shard of version v from its bank, with its digest. -/
def answer (s : Device) (f : Fetch) : Device :=
  let data := s.versionData f.entry f.version.toNat
  let s := s.send (.fetchData f.peer f.entry f.version data (s.shardDigest f.entry data))
  if f.pin then s.onFab fun x => { x with pins := x.pins ++ [f] } else s

/-- A fetch answered for an owner that is LOST or DEPARTED, by a contributor that holds the verified replica; one that holds none says that
the version is gone, on which the reader asks the next (R283; log entry 165). -/
def answerFor (s : Device) (f : Fetch) : Device :=
  match s.replicaFor f.entry f.version with
  | some r =>
    let data := s.shardAt f.entry r.addr
    s.send (.fetchData f.peer f.entry f.version data (s.shardDigest f.entry data))
  | none => s.send (.versionGone f.peer f.entry f.version)

/-- SHARD_FETCH (R282, R283); a shard that waits for its migration answers once it is here (R291). -/
def fetch (s : Device) (f : Fetch) (epoch : Byte) : Device :=
  if epoch ≠ s.fab.epoch then s.send (.wrongEpoch f.peer f.entry)
  else if s.entryOwner f.entry ≠ s.selfIdx then
    if s.peerDead (s.entryOwner f.entry) then s.answerFor f else s
  else if after f.version (s.entryVersion f.entry) ∨ s.fab.migrating.contains f.entry then
    s.onFab fun x => { x with fetchHeld := x.fetchHeld ++ [f] }
  else if s.goneVersion f.entry f.version then s.send (.versionGone f.peer f.entry f.version)
  else s.answer f

/-- Fetches that waited are tried again. -/
def retryFetches (s : Device) : Device :=
  let held := s.fab.fetchHeld
  held.foldl (fun s f => s.fetch f s.fab.epoch) (s.onFab fun f => { f with fetchHeld := [] })

/-- Of the shards whose run has ended, those that are due are published with their digests, and held fetches are answered; without Band
they wait (R279, R380). -/
def publish (s : Device) (due : ShardRun → Bool) : Device :=
  if ¬ s.bandUp then s
  else
    let s := (s.fab.ran.filter due).foldl
      (fun s r => (s.setVersion r.entry r.step r.digest).send (.publish r.entry r.step r.digest)) s
    (s.onFab fun f => { f with ran := f.ran.filter fun r => !due r }).retryFetches

/-- Order 3 of a tick (R279): every updated shard is published. -/
def publishAll (s : Device) : Device := s.publish fun _ => true
/-- What a tick had to leave unpublished is published once Band has returned: the shards of steps that are over (R380). -/
def publishLate (s : Device) : Device := s.publish fun r => r.step != s.frm.step || !s.frm.stepRun

/-- A publish notice of another owner (R279), whose next group takes late sums from now on (R288). The first of a taken-over index ends its takeover (log entry 39). -/
def notice (s : Device) (e : Nat) (v : W32) (g : W64) : Device :=
  if s.entryOwner e = s.selfIdx then s
  else
    let s := ((s.setVersion e v g).heard (s.entryOwner e)).sendLateSums
    match s.fab.takeover with
    | some (lost, _) =>
      if s.entryOwner e = lost then (s.setPeer lost 8 1 1).onFab fun f => { f with takeover := none } else s
    | none => s

/-! ## Replicas (R284) -/

/-- The digest published for a version of a shard. -/
def publishedDigest (s : Device) (e : Nat) (v : W32) : Option W64 :=
  let v := s.standsFor e v
  if s.entryVersion e = v then some (s.entryDigest e)
  else (s.fab.older.find? fun x => x.1 == e && x.2.1 == v).map fun x => x.2.2

/-- A fetch is answered: it may be made again. -/
def answered (s : Device) (e : Nat) (v : W32) : Device := s.onFab fun f =>
  { f with asked := f.asked.filter (· != (e, v)), passed := f.passed.filter fun x => x.1 != e }

/-- A contributor that was asked in place of the owner holds no replica: the next one is asked, or the reader serves itself when the program
issues its read again, or the version is gone (R283, R285). -/
def askNext (s : Device) (e : Nat) (v : W32) (mb : Stuck) : Device :=
  let t := s.onFab fun f => { f with passed := f.passed ++ [(e, s.fetchFrom e)] }
  if (t.ownStandIn e).isSome then t.onFab fun f => { f with asked := f.asked.filter (· != (e, v)) }
  else if s.peerDead (s.entryOwner e) ∧ (t.standIn e).isSome then t.send (.fetch (t.fetchFrom e) e v s.fab.epoch (v == s.forwardVersion))
  else (((s.answered e v).event R.FAB_STAT_GONE).count R.FAB_GONE_CNT_COUNT 1).abandonMb mb

/-- The pins of the step are released once the step's last backward use is over, which its end is at the latest (R282; log entry 171). -/
def releasePins (s : Device) : Device :=
  let out := s.fab.replicas.filter (·.pinned)
  out.foldl (fun s r => s.send (.pinRelease (s.entryOwner r.entry) r.entry r.version))
    (s.onFab fun f => { f with replicas := f.replicas.map fun r => { r with pinned := false } })

/-- A fetched replica (R284): checked against the published digest, refetched up to three times, then divergent. One that a forward fetch
of the step asked for is pinned (R282). -/
def fetched (s : Device) (e : Nat) (v : W32) (mb : Stuck) (a : Nat) (data : List Byte) : Device :=
  if s.publishedDigest e v = some (s.shardDigest e data) then s.recording fabUnit [(.near, a, data.length)] fun s =>
    let s := (s.keepReplica e v a data).answered e v
    s.onFab fun f => { f with tries := Sparse.put 0 e 0 f.tries, divergent := f.divergent.filter (· != e) }
  else
    let n := Sparse.get 0 e s.fab.tries
    if n < 3 then
      let s := s.onFab fun f => { f with tries := Sparse.put 0 e (n + 1) f.tries }
      (s.count R.FAB_REFETCH_CNT_COUNT 1).send (.fetch (s.fetchFrom e) e v s.fab.epoch (v == s.forwardVersion))
    else
      let s := (s.answered e v).onFab fun f =>
        { f with tries := Sparse.put 0 e 0 f.tries,
                 divergent := if f.divergent.any (· == e) then f.divergent else f.divergent ++ [e] }
      let s := (s.count R.FAB_DIV_CNT_COUNT 1).fabWarn 0x0402
        (s.entryLayer e + s.entryShard e * 2 ^ 16 + v.toNat * 2 ^ 32)
      s.abandonMb mb

/-- FETCH_RESPONSE: the data, VERSION_GONE, for which a contributor that stands in for the owner may be followed by another, or WRONG_EPOCH, on which the fetch goes out again under the directory in force (R282,
R285). -/
def fetchAnswer (s : Device) (e : Nat) (v : W32) (mb : Stuck) (a : Nat) (bytes : List Byte) (x : FetchOutcome) : Device := match x with
  | .data => s.fetched e v mb a bytes
  | .gone => s.askNext e v mb
  | .wrongEpoch => s.send (.fetch (s.fetchFrom e) e v s.fab.epoch (v == s.forwardVersion))

end Device

/-- COPY_RUN (R279). -/
def execCopyRun (entry : Nat) (s : State) : Host.Outcome State Fault Refusal := onDev s fun v => v.copyRun entry
/-- FLIT (R266). -/
def execFlit (p : Port) (x : Flit) (s : State) : Host.Outcome State Fault Refusal := onDev s fun v => v.receive p.val x
/-- FLIT_REPLAY (R267). -/
def execFlitReplay (x : Losing Port) (s : State) : Host.Outcome State Fault Refusal := onDev s fun v => v.replay x.subject.val x.waits
/-- PORT_LANE_FAIL (R265). -/
def execPortLaneFail (x : Losing Port) (s : State) : Host.Outcome State Fault Refusal :=
  onDev s fun v => v.portDown' x.subject.val x.waits
/-- PORT_UP (R265). -/
def execPortUp (p : Port) (lanes : BitVec 3) (partner : LinkEnd) (s : State) : Host.Outcome State Fault Refusal :=
  onDev s fun v => v.portTrained p.val lanes.toNat partner.peer.val partner.port.val
/-- HEARTBEAT_SEND (R272). -/
def execHeartbeatSend (s : State) : Host.Outcome State Fault Refusal := onDev s fun v => v.sendBeats
/-- HEARTBEAT (R272). -/
def execHeartbeat (p : Port) (x : Beat) (s : State) : Host.Outcome State Fault Refusal := onDev s fun v => v.beat p.val x
/-- LINK_SILENT (R273). -/
def execLinkSilent (x : Losing Port) (s : State) : Host.Outcome State Fault Refusal :=
  onDev s fun v => v.portDown' x.subject.val x.waits
/-- LINK_DOWN (R273). -/
def execLinkDown (x : LinkEnds) (waits : Waits) (s : State) : Host.Outcome State Fault Refusal :=
  onDev s fun v => (v.heard x.from_.val).linkLost x waits
/-- LINK_UP (R273): no link readmits a peer that is gone (R274). -/
def execLinkUp (a b : LinkEnd) (s : State) : Host.Outcome State Fault Refusal :=
  onDev s fun v => if v.peerDead a.peer.val ∨ v.peerDead b.peer.val then v else (v.mapLink (a.link b) true).heard a.peer.val
/-- DEPARTED (R274): what it leaves may be a part of the members (R275). -/
def execDeparted (x : Losing Peer) (s : State) : Host.Outcome State Fault Refusal :=
  onDev s fun v => (v.peerGone x.subject.val 3 x.waits).partition
/-- LOST (R274, R275). -/
def execLost (x : Losing Peer) (s : State) : Host.Outcome State Fault Refusal :=
  onDev s fun v =>
    let peer := x.subject.val
    if peer = v.selfIdx then v.post 0x0404 2 fabUnit (BitVec.ofNat 64 peer) else (v.peerGone peer 2 x.waits).partition
/-- PUBLISH_NOTICE (R279). -/
def execPublishNotice (entry : Nat) (version : W32) (digest : W64) (s : State) : Host.Outcome State Fault Refusal :=
  onDev s fun v => if v.bandUp then v.notice entry version digest else v.forBand (.notice entry version digest)
/-- SHARD_FETCH (R282). -/
def execShardFetch (from_ : Peer) (entry : Nat) (version : W32) (epoch : Byte) (pin : Bool) (s : State) :
    Host.Outcome State Fault Refusal :=
  onDev s fun v => v.fetch { peer := from_.val, entry, version, pin } epoch
/-- FETCH_RESPONSE (R284). -/
def execFetchResponse (entry : Nat) (version : W32) (mb : Stuck) (addr : Nat) (data : List Byte) (x : FetchOutcome) (s : State) :
    Host.Outcome State Fault Refusal :=
  onDev s fun v => v.fetchAnswer entry version mb addr data x
/-- PIN_RELEASE (R282). -/
def execPinRelease (from_ : Peer) (entry : Nat) (version : W32) (s : State) : Host.Outcome State Fault Refusal :=
  onDev s fun v => v.onFab fun f =>
    { f with pins := f.pins.filter fun p => !(p.peer == from_.val && p.entry == entry && p.version == version) }
/-- ABANDON (R285). -/
def execAbandon (_ : Peer) (mb : Stuck) (s : State) : Host.Outcome State Fault Refusal := onDev s fun v => v.abandonMb mb

end Sys2Proof.Machine
end

