-- ==== Sys2Proof/Machine/Stream.lean ====
section
/-! DEFINITION. The difference stream to the checkpoint sinks, and the takeover of a lost peer by a spare (spec/10 R292 to R296). -/

namespace Sys2Proof.Machine

namespace Device

/-! ## The difference stream (R292 to R294) -/

/-- A segment's 32-byte header and its payload; `region` is the bytes of the region. -/
def segment (kind stream index enc region : Nat) (payload : List Byte) : List Byte :=
  leBytes 1 kind ++ leBytes 1 stream ++ leBytes 2 index ++ leBytes 1 enc ++ leBytes 3 0 ++ leBytes 8 region
    ++ leBytes 8 payload.length ++ leBytes 8 0 ++ payload

/-- Encoding 1: a bitmap of the 64-byte lines that differ, padded to whole words, and their exclusive-ors. -/
def xorEncode (now before : List Byte) : List Byte :=
  let a := chunksOf 64 now
  let b := chunksOf 64 before
  let x := List.zipWith (fun u v => List.zipWith (fun (p q : Byte) => p ^^^ q) u v) a b
  let bits := x.map fun l => l.any (· != 0)
  let map := (chunksOf 64 bits).flatMap fun w => leBytes 8 (w.zipIdx.foldl (fun z p => z + b2n p.1 * 2 ^ p.2) 0)
  map ++ (x.filter fun l => l.any (· != 0)).flatten

/-- Zeros behind a payload up to a whole 64-bit word. -/
def pad8 (l : List Byte) : List Byte := l ++ List.replicate ((8 - l.length % 8) % 8) 0

/-- The streams the body of a layer's program stores to (R293). -/
def storedStreams (s : Device) (u : UDesc) : List Nat :=
  let ws := (List.range u.body).map fun i => s.near (u.prog + 8 * (u.pro + i)) 8
  (ws.filterMap fun w => (decodePalm (BitVec.ofNat 64 w)).bind fun i => if i.1 = .st then some i.2.imm.toNat else none).eraseDups

/-- A result in force of a die as step v used it: what a commit at the tick that ended the step has replaced since is what it was
(R293). -/
def rootOf (s : Device) (v : W32) (d : Die) (i : Nat) : Option Nat :=
  let now := s.inForce (s.solveDesc d i)
  if s.cmd.job.any fun j => j.lastEnded == some v then
    ((s.fab.rootsWere.find? fun x => x.1 == d.val * 2 ^ 16 + i).map (·.2)).getD now
  else now

/-- What a commit is about to replace, for the exports still due (R293). -/
def noteRoots (s : Device) : Device :=
  let all := ([0, 1, 2, 3] : List Die).flatMap fun d =>
    (s.gnt d).passed.map fun p => (d.val * 2 ^ 16 + p.index, s.inForce (s.solveDesc d p.index))
  s.onFab fun f => { f with rootsWere := all }

/-- The results in force during the step of version v that U1 of a shard used: those of the solve descriptors of its layer on its home die
(R293; DEDUCED, log entry 201). -/
def rootsUsed (s : Device) (e : Nat) (v : W32) : List (Nat × Nat) :=
  let d := s.entryDie e
  ((List.range 65535).filter fun i => (s.solveDesc d i).layer == s.entryLayer e).filterMap fun i => (s.rootOf v d i).map fun c => (i, c)

/-- The segments of a record of version v. -/
def segments (s : Device) (e v : Nat) (base : Bool) : List (List Byte) :=
  let d := s.entryDie e
  let u := s.updateDesc d (s.entryLayer e)
  let n := s.entryRows e * s.entryCols e
  let raw (kind stream index : Nat) (b : List Byte) : List Byte := segment kind stream index 0 b.length (pad8 b)
  let w := s.versionData e v
  let weights := if base then raw 0 0 0 w else segment 0 0 0 1 w.length (pad8 (xorEncode w (s.versionData e (v + 2))))
  let rem := if u.rem = 0 then [] else [raw 1 0 0 (s.readBytes .near u.rem n)]
  let opt := (s.storedStreams u).map fun k =>
    let x := u.stream k
    raw 2 k 0 (s.readBytes (streamSpace d x) x.addr ((u.rows * x.pitch * ((UDesc.streamFmt x).map Fmt.bits |>.getD 0) + 7) / 8))
  let root := (s.rootsUsed e (BitVec.ofNat 32 v)).map fun x => raw 3 0 x.1 (s.readBytes .near x.2 (s.resultCopySize (s.solveDesc d x.1)))
  weights :: rem ++ opt ++ root

def entryExtent (s : Device) (e : Nat) : Extent :=
  { row0 := s.entryRow0 e, col0 := s.entryCol0 e, rows := s.entryRows e, cols := s.entryCols e }

/-- What a shard's new owner pulls of it: weights, remainders, optimiser state, roots in force (R291). -/
def shardPart (s : Device) (e : Nat) : Moved :=
  { extent := s.entryExtent e, segments := s.segments e (s.entryVersion e).toNat true }

/-- The digest of a record's payload (R293). -/
def recordDigest (layer : Nat) (payload : List Byte) : W64 :=
  (chunksOf 8 payload).zipIdx.foldl (fun (z : W64) w => z + elemDigest 7 layer w.2 (leVal w.1)) 0

/-- A record of version v: its header and its segments. -/
def record (s : Device) (e : Nat) (v : W32) (base : Bool) (g : W64) : List Byte :=
  let segs := s.segments e v.toNat base
  let payload := segs.flatten
  leBytes 1 (if base then 2 else 1) ++ leBytes 1 segs.length ++ leBytes 2 (s.entryLayer e) ++ leBytes 2 (s.entryShard e)
    ++ leBytes 1 s.fab.epoch.toNat ++ leBytes 1 0 ++ leBytes 4 v.toNat ++ leBytes 4 (if base then 0xFFFFFFFF else (v - 1).toNat)
    ++ leBytes 8 payload.length ++ leBytes 8 g.toNat ++ leBytes 8 (recordDigest (s.entryLayer e) payload).toNat
    ++ leBytes 2 s.selfIdx ++ leBytes 22 0 ++ payload

/-- Room for a record in the host's ring (R329): at the next place, or at offset 0 where it would wrap, and behind no
record that is not yet acknowledged. -/
def ringPlace (h : HostRing) (len : Nat) : Option Nat :=
  let at_ := if h.next + len ≤ h.size then h.next else 0
  let oldest := h.recs.head?.map fun (x : Nat × Nat × RecordOut) => x.1
  if len > h.size then none
  else match oldest with
    | none => some at_
    | some o =>
      -- the live records lie from `o` up to `next`, perhaps around the end of the ring
      if o < h.next then (if h.next + len ≤ h.size ∨ len ≤ o then some at_ else none)
      else (if h.next + len ≤ o then some h.next else none)

/-- A record written into the host's ring, or held until there is room. -/
def hostRecord (s : Device) (r : RecordOut) (bytes : List Byte) : Device := match s.cmd.hostRing with
  | none => s
  | some h =>
    if h.waiting ≠ [] then { s with cmd := { s.cmd with hostRing := some { h with waiting := h.waiting ++ [(r, bytes)] } } }
    else match ringPlace h bytes.length with
      | none => { s with cmd := { s.cmd with hostRing := some { h with waiting := h.waiting ++ [(r, bytes)] } } }
      | some a =>
        let gap := if a = 0 ∧ h.next ≠ 0 then List.replicate (h.size - h.next) (0 : Byte) else []
        let s := (s.setHost (h.base + h.next) gap).setHost (h.base + a) bytes
        { s with cmd := { s.cmd with hostRing := some { h with next := a + bytes.length, recs := h.recs ++ [(a, bytes.length, r)] } } }

/-- DS_EXPORT (R292): a shard whose run has ended is read and its record sent to every enabled sink. -/
def export_ (s : Device) (e : Nat) : Device :=
  if ¬ s.fab.exportDue.any (· == e) then s
  else
    let v := ((s.fab.ran.find? fun r => r.entry == e).map ShardRun.step).getD (s.entryVersion e)
    let g := ((s.fab.ran.find? fun r => r.entry == e).map ShardRun.digest).getD (s.entryDigest e)
    let every := s.fld R.FAB_DS_CTL_BASE_EVERY
    let base := decide (every ≠ 0 ∧ v.toNat % every = 0) || s.fab.baseDue.any (· == e)
    let bytes := s.record e v base g
    let out : RecordOut := { entry := e, version := v, sinks := s.sinks }
    let s := s.onFab fun f => { f with exportDue := f.exportDue.filter (· != e), baseDue := f.baseDue.filter (· != e),
                                       records := f.records ++ [out] }
    s.sinks.foldl (fun s k => if k = hostSink then s.hostRecord out bytes else s.send (.record k e v bytes)) s

/-- The export that is due of a shard, named by its layer and number as its record names it (R292, R293). -/
def exportShard (s : Device) (layer shard : Nat) : Device :=
  match s.fab.exportDue.find? fun e => s.entryLayer e == layer && s.entryShard e == shard with
  | some e => s.export_ e
  | none => s

/-- A sink holds a record durably: the oldest of that version it has not acknowledged (R292). -/
def ackRecord (s : Device) (sink : Nat) (v : W32) : Device :=
  let hit (r : RecordOut) : Bool := r.version == v && r.sinks.any (· == sink) && !r.acks.any (· == sink)
  match s.fab.records.find? hit with
  | none => s
  | some r => s.onFab fun f =>
      { f with records := (f.records.map fun x => if x = r then { x with acks := x.acks ++ [sink] } else x).filter
                 fun x => !(x.sinks.all fun k => x.acks.any (· == k)) }

/-- The gate (R294): every record of the step is acknowledged by the lesser of ACK_MIN and the sinks in force, and none
is still to be exported. -/
def gateOpen (s : Device) : Bool :=
  !s.flag R.FAB_CTL_GATE || s.sinks == [] ||
    (s.fab.exportDue == [] && s.fab.records.all fun r =>
      decide (r.acks.length ≥ min (s.fld R.FAB_CTL_ACK_MIN) r.sinks.length))

/-! ## Takeover (R295, R296) -/

/-- The spare of lowest index. -/
def firstSpare (s : Device) : Option Nat := (s.listedPeers.filter fun p => s.peerState p == 4).min?

/-- An end of a link by the index it has after a takeover. -/
def newName (lost spare : Nat) (p : Peer) : Peer := if p.val = spare then Fin.ofNat 4096 lost else p

/-- The spare takes the lost index: its device ID, its routes and its links move there, and its old entry becomes EMPTY; the spare itself
answers to the lost index and restores. -/
def takeOver (s : Device) (lost spare : Nat) : Device :=
  if ¬ s.peerDead lost ∨ s.peerState spare ≠ 4 then s
  else
    let at_ (o n : Nat) : Nat := s.fab.peers.readLE (32 * spare + o) n
    let s := ((((s.event R.FAB_STAT_TAKEOVER).setPeer lost 0 8 (at_ 0 8)).setPeer lost 0x0A 6 (at_ 0x0A 6)).setPeer lost 0x10 8
      (at_ 0x10 8)).setPeer lost 0x18 6 (at_ 0x18 6)
    let name := newName lost spare
    let s := s.onFab fun f => { f with
      peers := f.peers.clear (32 * spare) 32, takeover := some (lost, spare),
      links := f.links.map fun l => { l with from_ := name l.from_, partner := name l.partner },
      ports := f.ports.map fun x => (x.1, { x.2 with partner := if x.2.partner = spare then lost else x.2.partner }) }
    let s := if s.selfIdx = spare then (s.setFld R.FAB_SELF_INDEX lost).onFab fun f => { f with restoring := true } else s
    s.setRoutes

/-- SPARE_FRAMES_EXPIRY at the tick master (R295, R296). -/
def spareExpiry (s : Device) (lost : Nat) : Device :=
  let n := s.fld R.FAB_CTL_SPARE_FRAMES
  if n = 0 ∨ s.master ≠ some s.selfIdx ∨ ¬ s.peerMember lost ∨ ¬ s.peerDead lost ∨ s.fab.takeover.isSome ∨ ¬ s.bandUp
      ∨ Sparse.get 0 lost s.fab.lostTicks < n then s
  else match s.firstSpare with
    | none => s.post 0x0408 2 fabUnit (BitVec.ofNat 64 lost)
    | some spare =>
      if s.sinks = [] then s.post 0x0407 2 fabUnit (BitVec.ofNat 64 lost)
      else (s.takeOver lost spare).send (.takeover lost spare)

/-- Encoding 1 undone: lines whose bit is set are exclusive-ored. -/
def xorApply (region : Nat) (old payload : List Byte) : List Byte :=
  let lines := (region + 63) / 64
  let map := (lines + 63) / 64 * 8
  ((List.range lines).foldl (fun (z : List Byte × List Byte) i =>
    let l := (old.drop (64 * i)).take (min 64 (region - 64 * i))
    if (leVal (payload.take map)).testBit i then
      (z.1 ++ List.zipWith (fun (p q : Byte) => p ^^^ q) l z.2, z.2.drop l.length)
    else (z.1 ++ l, z.2)) ([], payload.drop map)).1

/-- The segments of a record's payload: kind, stream, index, encoding, region bytes and payload. -/
def splitSegments : Nat → List Byte → List (Nat × Nat × Nat × Nat × Nat × List Byte)
  | 0, _ => []
  | n + 1, b =>
    let f (o k : Nat) : Nat := leVal ((b.drop o).take k)
    let len := f 16 8
    (f 0 1, f 1 1, f 2 2, f 4 1, f 8 8, (b.drop 32).take len) :: splitSegments n (b.drop (32 + len))

/-- A record is whole: its digest holds, and it applies to the version already restored (R295). -/
def recordFits (s : Device) (e : Nat) (have_ : Option W32) (b : List Byte) : Bool :=
  let f (o k : Nat) : Nat := leVal ((b.drop o).take k)
  f 0x20 8 == (recordDigest (s.entryLayer e) (b.drop 64)).toNat && f 2 2 == s.entryLayer e && f 4 2 == s.entryShard e &&
    match have_ with
    | none => f 0 1 == 2
    | some v => f 0x0C 4 == v.toNat

/-- One segment of a restored shard of version v written to its place. -/
def restoreSegment (s : Device) (e : Nat) (w : List Byte) (x : Nat × Nat × Nat × Nat × Nat × List Byte) : Device × List Byte :=
  let (kind, stream, index, enc, region, payload) := x
  let d := s.entryDie e
  let u := s.updateDesc d (s.entryLayer e)
  let raw := payload.take region
  match kind with
  | 0 => (s, if enc = 1 then xorApply region w payload else raw)
  | 1 => (s.writeBytes .near u.rem raw, w)
  | 2 => (s.writeBytes (streamSpace d (u.stream stream)) (u.stream stream).addr raw, w)
  | _ =>
    let y := s.solveDesc d index
    (((s.writeBytes .near (y.result + 4096) raw)).setNear y.result 1 0, w)

/-- The remainders that a restore starts from are 0 (R192). -/
def clearRemainders (s : Device) (e : Nat) : Device :=
  let u := s.updateDesc (s.entryDie e) (s.entryLayer e)
  if u.rem = 0 then s else s.setMemory .near (s.mem.near.clear u.rem (s.entryRows e * s.entryCols e))

/-- A shard restored from its records, oldest first, up to the version that the lost owner published last; the weights go into bank t
mod 3, t being the step that ends at the next tick. Where it fails, the code that the tick master posts: TAKEOVER_BEHIND for a restore
point that the records do not reach, TAKEOVER_FAILED where a record does not fit or a digest fails (R295, R296). -/
def restoreShard (s : Device) (r : Restored) : Except W16 Device :=
  let e := r.entry
  let step := r.records.foldl (fun (z : Option (Device × Option W32 × List Byte × W64)) b => match z with
    | none => none
    | some (s, have_, w, _) =>
      if ¬ s.recordFits e have_ b then none
      else
        let segs := splitSegments (leVal ((b.drop 1).take 1)) (b.drop 64)
        let y := segs.foldl (fun (q : Device × List Byte) x => q.1.restoreSegment e q.2 x) (s, w)
        some (y.1, some (BitVec.ofNat 32 (leVal ((b.drop 8).take 4))), y.2, BitVec.ofNat 64 (leVal ((b.drop 0x18).take 8))))
    (some (s.clearRemainders e, none, [], 0))
  match step with
  | some (t, some v, w, g) =>
    if v ≠ s.entryVersion e then .error 0x0407
    else if t.shardDigest e w = g then
      let t := t.writeBytes .near (t.bankAddr e t.frm.step.toNat) w
      .ok (t.onFab fun f => { f with digests := Sparse.put 0 e g f.digests, restored := f.restored ++ [e] })
    else .error 0x0409
  | some (_, none, _) => .error 0x0407
  | none => .error 0x0409

/-- A takeover that fails: the tick master posts it; a spare that is not the master tells the master (R296; log entry 154). -/
def takeoverFailed (s : Device) (code : W16) : Device :=
  match s.master with
  | some m => if m = s.selfIdx then s.post code 2 fabUnit (BitVec.ofNat 64 s.selfIdx) else s.send (.restoreFailed m code)
  | none => s

/-- RESTORE_COMPLETE (R295, R296): at the spare, and at the tick master, which hears of a failure. -/
def restore (s : Device) (x : RestoreOutcome) : Device :=
  if ¬ s.fab.restoring ∧ ¬ (s.fab.takeover.isSome ∧ s.master = some s.selfIdx) then s
  else match x with
    | .behind => s.takeoverFailed 0x0407
    | .digestFailed | .unreachable => s.takeoverFailed 0x0409
    | .restored rs =>
      if ¬ s.fab.restoring then s
      else match rs.foldl (fun (z : Except W16 Device) r => match z with
          | .ok s => s.restoreShard r
          | .error c => .error c) (.ok s) with
        | .ok t => t
        | .error c => s.takeoverFailed c

/-- The factor sides of a restored shard's layer start invalid (R159, R295). -/
def invalidSides (s : Device) (e : Nat) : Device :=
  let d := s.entryDie e
  let sides := [false, true].filterMap fun sd => (s.readTap d (s.entryLayer e) sd).join
  (sides.filter fun t => !t.route).foldl (fun s t => s.setNear (t.base + 3) 1 (insertBits (s.headerByte t 3) 1 1 0)) s

/-- At the tick at which a spare rejoins, which is the first after every shard of its index has been restored, it publishes them as the version
of the step that ends, and its factor sides start invalid (R295). A frozen shard publishes nothing, so that no record restores it (R279). -/
def rejoin (s : Device) : Device :=
  if ¬ s.fab.restoring ∨ ¬ s.bandUp ∨ ¬ (s.owned.all fun e => s.entryFrozen e || s.fab.restored.contains e) then s
  else
    let s := s.fab.restored.foldl invalidSides s
    let runs := s.fab.restored.map fun e => ({ entry := e, step := s.frm.step, digest := Sparse.get 0 e s.fab.digests } : ShardRun)
    (s.setPeer s.selfIdx 8 1 1).onFab fun f => { f with ran := f.ran ++ runs, restoring := false, restored := [], takeover := none }

/-- Ticks in a row at which a member was LOST or DEPARTED (R295). -/
def countLost (s : Device) : Device :=
  let gone := s.listedPeers.filter fun p => s.peerMember p && s.peerDead p
  (s.onFab fun f => { f with lostTicks := gone.map fun p => (p, Sparse.get 0 p f.lostTicks + 1) }).noteWhole

/-- A member's acknowledgement of a staged directory (R290). -/
def reshardAcked (s : Device) (peer : Nat) (epoch : Byte) : Device := s.onFab fun f =>
  { f with acks := f.acks.filter (· != (peer, epoch)) ++ [(peer, epoch)] }

/-- Band stages the directory of the pending re-shard and acknowledges it to the tick master (R290). -/
def stageDirectory (s : Device) (epoch : Byte) : Device :=
  if s.fab.reshard.all fun r => r.epoch != epoch then s
  else
    let s := s.reshardAcked s.selfIdx epoch
    match s.master with
    | some m => s.send (.reshardAck m epoch)
    | none => s

/-- What waited in hardware for Band is taken by it, once, in order (R380, R384). -/
def bandReturns (s : Device) : Device :=
  s.fab.bandHeld.foldl (fun s x => match x with
    | .notice e v g => s.notice e v g
    | .directory epoch => s.stageDirectory epoch
    | .takeover lost spare => s.takeOver lost spare
    | .restore o => s.restore o) (s.onFab fun f => { f with bandHeld := [] })

/-- A departure notice on every port that is up (R274, R324). -/
def departAll (s : Device) : Device := if s.portsUp = [] then s else s.send .departure

end Device

/-- DS_EXPORT (R292). -/
def execDsExport (layer shard : Nat) (s : State) : Host.Outcome State Fault Refusal := onDev s fun v => v.exportShard layer shard
/-- RECORD_ACK (R292). -/
def execRecordAck (peer : Peer) (host : Bool) (version : W32) (s : State) : Host.Outcome State Fault Refusal :=
  onDev s fun v => v.ackRecord (if host then Device.hostSink else peer.val) version
/-- SPARE_FRAMES_EXPIRY (R295). -/
def execSpareFramesExpiry (lostPeer : Peer) (s : State) : Host.Outcome State Fault Refusal :=
  onDev s fun v => v.spareExpiry lostPeer.val
/-- TAKEOVER (R295). -/
def execTakeover (lostPeer spare : Peer) (s : State) : Host.Outcome State Fault Refusal :=
  onDev s fun v => if v.bandUp then v.takeOver lostPeer.val spare.val else v.forBand (.takeover lostPeer.val spare.val)
/-- RESTORE_COMPLETE (R295). -/
def execRestoreComplete (x : RestoreOutcome) (s : State) : Host.Outcome State Fault Refusal :=
  onDev s fun v => if v.bandUp then v.restore x else v.forBand (.restore x)

end Sys2Proof.Machine
end

