-- ==== Sys2Proof/Machine/Shards.lean ====
section
/-! DEFINITION. Contributions to the shards' groups, on time and late, and the change of the layout epoch (spec/10 R286 to R291;
spec/09 R247). -/

namespace Sys2Proof.Machine

namespace Device

/-! ## The groups of a step (R286) -/

/-- The group of a shard: its place among the shards this device owns on the die (log entry 40). -/
def groupNo (s : Device) (e : Nat) : Nat :=
  (s.owned.filter fun x => s.entryDie x == s.entryDie e && !s.entryFrozen x && decide (x < e)).length

/-- Order 7 (R286): a group of 2N keys for a shard; a late key is skipped unless its on-time key was skipped in the
step before, and the keys of lost contributors are skipped. -/
def openShard (s : Device) (e : Nat) (late : Bool) : Device :=
  let d := s.entryDie e
  let gid := s.groupNo e
  let n := s.entryN e
  let a := s.groupDesc d gid
  let s := s.setNear (a + 4) 2 (2 * n)
  let s := s.setNear (a + 6) 1 (insertBits (s.near (a + 6) 1) 0 1 0)
  let s := s.setNear (a + 7) 1 s.fab.epoch.toNat
  let z := s.openGroup d gid (some e) s.frm.step
  if ¬ z.2 then z.1
  else (List.range n).foldl (fun s k =>
    let dead := s.peerDead (s.contributor e k)
    let s := if late ∧ ¬ dead ∧ s.fab.skippedPrev.any (· == (e, k)) then s else s.skip d gid (n + k) s.fab.epoch
    if dead then s.skip d gid k s.fab.epoch else s) z.1

/-! ## Sums for shards of other owners (R247, R288, R289) -/

/-- Sums and tap rows older than the step before are of no more use. -/
def pruneSums (s : Device) : Device :=
  let recent (st : W32) : Bool := st == s.frm.step || st + 1 == s.frm.step
  s.onFab fun f => { f with
    sums := f.sums.filter fun x => recent x.step,
    tapsSent := f.tapsSent.filter fun m => match m with | .tapRow _ _ _ step .. => recent step | _ => false }

/-- The groups of a step (R286); a spare opens none before it has rejoined (R295). -/
def openShards (s : Device) (late : Bool) : Device :=
  let due := if s.fab.restoring then [] else s.owned.filter fun e => !s.entryFrozen e
  due.foldl (fun s e => s.openShard e late) s.pruneSums

/-- Tap rows of a step for factors of a shard's owner are still on their way out: rows that wait, fill a half or are in tiles (R289). -/
def tapsPending (s : Device) (e : Nat) : Bool :=
  let his (t : TapDesc) : Bool := t.route && t.layer == s.entryLayer e && t.peer == s.entryOwner e
  let busy (h : Half) : Bool := his h.desc && (h.state == .filling || (h.state == .issuing && h.left != 0))
  ([0, 1, 2, 3] : List Die).any fun d =>
    let c := s.cuff d
    c.held.any (fun r => his r.desc) || busy c.h0 || busy c.h1

/-- The END of a contribution whose tap rows have gone out; of one that was skipped meanwhile, its late key (R288, R289). -/
def endSum (s : Device) (x : Sum) : Device :=
  let y := { x with ended := true, endDue := false }
  let s := s.onFab fun f => { f with sums := f.sums.map fun z => if z = x then y else z }
  if ¬ y.skipped then s.send (.contribution (s.entryOwner y.entry) y.entry y.key y.epoch [] true) else s.sendLateSums

/-- Every END that waited for tap rows and can go out does (R289). -/
def sendEnds (s : Device) : Device :=
  (s.fab.sums.filter fun x => x.endDue && !s.tapsPending x.entry).foldl endSum s

/-- Lines of a key for a shard that a peer owns go out over the fabric, and are kept until the next step is over; their END follows the
tap rows of the step (R289). To an owner that is gone, or under an epoch that is over, none goes: the contribution is dropped or
discarded, and counted at its END (R288, R291). -/
def maddFar (s : Device) (e key : Nat) (epoch : Byte) (src : TDesc) (line0 : Nat) (endMark : Bool) : Device :=
  let owner := s.entryOwner e
  let lines := (s.sourceLines src).zipIdx.map fun l => (line0 + l.2, l.1)
  if s.peerDead owner then (if endMark then s.dropped owner else s)
  else if epoch ≠ s.fab.epoch then s.count R.FAB_OLD_EPOCH_CNT_COUNT (b2n endMark)
  else
    let mine (x : Sum) : Bool := x.entry == e && x.key == key && x.step == s.frm.step
    let x := (s.fab.sums.find? mine).getD { entry := e, key := key, step := s.frm.step, epoch := epoch }
    let waits := endMark && s.tapsPending e
    let y := { x with lines := x.lines ++ lines, ended := x.ended || (endMark && !waits), endDue := x.endDue || waits }
    let s := s.onFab fun f => { f with sums := f.sums.filter (fun z => !mine z) ++ [y] }
    if y.skipped then s.sendLateSums else s.send (.contribution owner e key epoch lines (endMark && !waits))

/-- MADD (R247): into a group of this device, or, where it names a shard that a peer owns, towards that owner. -/
def maddAny (s : Device) (d : Die) (iaddr : W64) (gid key : Nat) (epoch : Byte) (src : TDesc) (line0 : Nat) (endMark : Bool)
    (shard : Option Nat) : Device :=
  if ¬ TDescOps.rankOk src then s.refuseVec d iaddr
  else s.accessing (vecUnit d) (TDescOps.ranges src .fp32) fun s => match shard with
    | some e => if s.entryOwner e = s.selfIdx then s.madd d gid key epoch src line0 endMark
      else s.maddFar e key epoch src line0 endMark
    | none => s.madd d gid key epoch src line0 endMark

/-! ## The cutoff (R287, R288) -/

/-- The cutoff's time has come in the step that runs. -/
def cutoffTime (s : Device) : Bool :=
  let pct := s.fld R.FAB_CTL_CUTOFF_PCT
  pct != 0 && s.frm.stepRun && !s.fab.cutoffDone && s.bandUp && decide (s.frm.since * 100 ≥ pct * s.fld R.FRM_CTL_PERIOD_US)

/-- Every unresolved on-time key of a group but the owner's own, and every late key, is skipped. -/
def cutoffSkip (s : Device) (x : Die × Group × Nat) : Device :=
  let (d, g, e) := x
  let n := g.n / 2
  (List.range g.n).foldl (fun s key =>
    let free := ((s.group? d g.gid).map fun h => (h.key key).state == .unresolved).getD false
    if ¬ free ∨ (key < n ∧ s.contributor e key = s.selfIdx) then s
    else
      let s := s.skip d g.gid key g.epoch
      let s := s.send (.skip (s.contributor e (if key < n then key else key - n)) e key g.step)
      if key < n then s else s.dropped e) s

/-- CUTOFF (R287). -/
def cutoff (s : Device) : Device :=
  if ¬ s.cutoffTime then s
  else s.shardGroups.foldl cutoffSkip (s.onFab fun f => { f with cutoffDone := true })

/-- SKIP_NOTICE (R288): contributor k's on-time sum of a step goes out again as a late key, at once where it is due; its late key, N + k, has
been dropped, and the sum with it. A sum of an epoch that is over is discarded (R291). -/
def skipNotice (s : Device) (owner e k n : Nat) (late : Bool) (step : W32) (epoch : Byte) : Device :=
  if s.peerDead owner ∨ s.entryOwner e ≠ owner then s
  else if late then s.onFab fun f => { f with sums := f.sums.filter fun x =>
    !(x.entry == e && (x.key == n + k || (x.key == k && x.skipped && x.step + 1 == step))) }
  else
    let mine (x : Sum) : Bool := x.entry == e && x.key == k && x.step == step
    let x := (s.fab.sums.find? mine).getD { entry := e, key := k, step := step, epoch := epoch }
    let others := s.fab.sums.filter fun z => !mine z
    if epoch ≠ s.fab.epoch then (s.onFab fun f => { f with sums := others }).count R.FAB_OLD_EPOCH_CNT_COUNT 1
    else
      (s.onFab fun f => { f with sums := others ++ [{ x with skipped := true }] }).sendLateSums

/-! ## Re-shards (R290, R291) -/

/-- The conditions of R290 at a tick. -/
def reshardReady (s : Device) (r : Reshard) : Bool :=
  (s.listedPeers.filter s.peerMember).all (fun p => s.fab.acks.any (· == (p, r.epoch))) && s.fab.takeover.isNone &&
    ([0, 1, 2, 3] : List Die).all fun d => (s.adders d).groups.all fun g => g.epoch != s.fab.epoch

/-- What names a shard's place in its matrix: layer, number, home die and extent. -/
def shardExtent (s : Device) (e : Nat) : List Nat :=
  [s.entryLayer e, s.entryShard e, (s.entryDie e).val, s.entryRow0 e, s.entryCol0 e, s.entryRows e, s.entryCols e]

/-- Two extents of one layer have an element in common. -/
def overlaps : List Nat → List Nat → Bool
  | [l, _, _, r, c, m, n], [l', _, _, r', c', m', n'] =>
    l == l' && decide (r < r' + m' ∧ r' < r + m ∧ c < c' + n' ∧ c' < c + n)
  | _, _ => false

/-- A shard of a directory: its extent, owner, version and digest. -/
abbrev ShardRow := List Nat × Nat × W32 × W64
def shardRow (s : Device) (e : Nat) : ShardRow := (s.shardExtent e, s.entryOwner e, s.entryVersion e, s.entryDigest e)

/-- A shard keeps its version number under a new directory, and its digest where its extent has not changed (R291). -/
def keepVersion (old : List ShardRow) (s : Device) (e : Nat) : Device :=
  let x := s.shardExtent e
  match old.find? fun o => o.1 == x, old.find? fun o => overlaps o.1 x with
  | some o, _ => (s.setNear (s.entryAddr e + 0x20) 4 o.2.2.1.toNat).setNear (s.entryAddr e + 0x28) 8 o.2.2.2.toNat
  | none, some o => s.setNear (s.entryAddr e + 0x20) 4 o.2.2.1.toNat
  | none, none => s

/-- The factor sides of a layer that this device holds, with their dies. -/
def layerSides (s : Device) (layer : Nat) : List (Die × TapDesc) :=
  ([0, 1, 2, 3] : List Die).flatMap fun d => ((s.cuff d).sides.filter fun t => t.layer == layer && !t.route).map fun t => (d, t)

/-- The layout epoch changes (R291): the staged directory comes into force with the versions of the old one; shards that are new to this
device, to a die or in their extent wait for their migration: what peers held of them is pulled, what this device held moves within it; those
that leave this device go out; contributions of the old epoch that are unsent are discarded. -/
def switchEpoch (s : Device) (r : Reshard) : Device :=
  let old := s.shards.map s.shardRow
  let mine := s.owned.map fun e => (s.shardExtent e, s.entryVersion e, s.shardPart e)
  let unsent := (s.fab.sums.filter fun x => x.skipped || !x.ended).length
  let me := s.selfIdx
  let s := s.writeBytes .near s.dirBase r.image
  let s := s.shards.foldl (keepVersion old) s
  let moved := s.owned.filter fun e => !mine.any fun m => m.1 == s.shardExtent e
  let leaving := (s.shards.filter fun e => s.entryOwner e != me).flatMap fun e =>
    (mine.filter fun m => overlaps m.1 (s.shardExtent e)).map fun m =>
      ({ peer := s.entryOwner e, entry := e, layer := s.entryLayer e, version := m.2.1, part := m.2.2,
         sides := s.layerSides (s.entryLayer e) } : Leaving)
  let moving := moved.flatMap fun e =>
    (mine.filter fun m => overlaps m.1 (s.shardExtent e)).map fun m =>
      ({ peer := me, entry := e, layer := s.entryLayer e, version := m.2.1, part := m.2.2,
         sides := (s.layerSides (s.entryLayer e)).filter fun z => z.1.val == m.1.getD 2 0 && z.1 != s.entryDie e } : Leaving)
  let pulls := moved.flatMap fun e =>
    ((old.filter fun o => overlaps o.1 (s.shardExtent e) && o.2.1 != me).map fun o => (o.2.1, e)).eraseDups
  let s := (s.count R.FAB_OLD_EPOCH_CNT_COUNT unsent).onFab fun f =>
    { f with epoch := r.epoch, reshard := none, acks := [], sums := [], tapsSent := [], skippedPrev := [], skippedNow := [],
             migrating := moved, switchStep := s.frm.step, leaving := leaving ++ moving }
  let s := pulls.foldl (fun s p => s.send (.migratePull p.1 p.2)) s
  s.reply r.ref OK s.frm.step.toNat

/-- A pending re-shard at a tick that ends a step: it takes effect, or is deferred by one step, as it is without Band (R290, R380). -/
def reshardTick (s : Device) : Device × Bool := match s.fab.reshard with
  | none => (s, false)
  | some r =>
    if (s.frm.step - r.effStep).toNat ≥ 2 ^ 31 then (s, false)
    else if s.reshardReady r ∧ s.bandUp then (s.switchEpoch r, true)
    else (s.event R.FAB_STAT_EPOCH_DEFER, false)

/-- The pieces of rows that two extents of a matrix have in common: row and column in the old one, in the new one, and elements. -/
def commonRows (o n : Extent) : List ((Nat × Nat) × (Nat × Nat) × Nat) :=
  let c0 := max o.col0 n.col0
  let c1 := min (o.col0 + o.cols) (n.col0 + n.cols)
  ((List.range o.rows).filter fun r => decide (n.row0 ≤ o.row0 + r ∧ o.row0 + r < n.row0 + n.rows ∧ c0 < c1)).map fun r =>
    ((r, c0 - o.col0), (o.row0 + r - n.row0, c0 - n.col0), c1 - c0)

/-- Rows of `w`-byte elements, `from_` elements apart, put where the new extent has them, `to_` elements apart. -/
def putRows (s : Device) (sp : Space) (base w from_ to_ : Nat) (o n : Extent) (bs : List Byte) : Device :=
  (commonRows o n).foldl (fun s z => s.writeBytes sp (base + w * (z.2.1.1 * to_ + z.2.1.2))
    ((bs.drop (w * (z.1.1 * from_ + z.1.2))).take (w * z.2.2))) s

/-- One segment of a shard that moves, put where this device's tables have it: weights in the bank of the shard's version, remainders and
optimiser streams element by element, roots as a restore puts them (R291). -/
def putSegment (o : Extent) (e : Nat) (s : Device) (x : Nat × Nat × Nat × Nat × Nat × List Byte) : Device :=
  let d := s.entryDie e
  let u := s.updateDesc d (s.entryLayer e)
  let n := s.entryExtent e
  let raw := x.2.2.2.2.2.take x.2.2.2.2.1
  match x.1 with
  | 0 => s.putRows .near (s.bankAddr e (s.entryVersion e).toNat) 2 o.cols n.cols o n raw
  | 1 => if u.rem = 0 then s else s.putRows .near u.rem 1 o.cols n.cols o n raw
  | 2 =>
    let y := u.stream x.2.1
    match UDesc.streamFmt y with
    | some f => s.putRows (streamSpace d y) y.addr (f.bits / 8) (raw.length / (o.rows * (f.bits / 8))) y.pitch o n raw
    | none => s
  | _ => (s.restoreSegment e [] x).1

/-- What one old owner had of a shard put where this device's tables have it, the factor blocks at the bases that the tap descriptors of the
new home die give (R291; DEDUCED, log entry 186). -/
def putPart (e : Nat) (s : Device) (x : Moved) : Device :=
  let s := (splitSegments x.segments.length x.segments.flatten).foldl (putSegment x.extent e) s
  x.blocks.foldl (fun s z => match (s.readTap (s.entryDie e) (s.entryLayer e) z.1).join with
    | some t => if t.route then s else s.writeBytes .near t.base z.2
    | none => s) s

/-- A migrated shard is here: its digest computed, its products and fetches free to go on (R291, R280). -/
def arrived (s : Device) (e : Nat) : Device :=
  let g := s.shardDigest e (s.versionData e (s.entryVersion e).toNat)
  let s := s.setNear (s.entryAddr e + 0x28) 8 g.toNat
  (s.onFab fun f => { f with migrating := f.migrating.filter (· != e), digests := Sparse.put 0 e g f.digests }).retryFetches

/-- What of a shard moves within this device. -/
def movingHere (s : Device) (e : Nat) : List Leaving := s.fab.leaving.filter fun l => l.peer == s.selfIdx && l.entry == e

/-- SHARD_MIGRATION: what peers held of a shard and what moves within this device are put in place, once the factor blocks that move here are
folded, and this device's own sides of the layer where blocks come from a peer (R158, R291). -/
def migrate (s : Device) (x : Migrated) : Device :=
  let here := s.movingHere x.entry
  if ¬ s.fab.migrating.any (· == x.entry) ∨ ¬ here.all Leaving.folded then s
  else if x.parts ≠ [] ∧ ¬ (s.layerSides (s.entryLayer x.entry)).all fun z => s.foldDone z.1 z.2 then s
  else
    let s := s.onFab fun f => { f with leaving := f.leaving.filter fun l => !here.contains l }
    ((here.map Leaving.part ++ x.parts).foldl (putPart x.entry) s).arrived x.entry

end Device

/-- CUTOFF (R287). -/
def execCutoff (s : State) : Host.Outcome State Fault Refusal := onDev s fun v => v.cutoff
/-- SKIP_NOTICE (R288). -/
def execSkipNotice (owner : Peer) (entry : Nat) (k n : W16) (late : Bool) (step : W32) (epoch : Byte) (s : State) :
    Host.Outcome State Fault Refusal := onDev s fun v => v.skipNotice owner.val entry k.toNat n.toNat late step epoch
/-- RESHARD_ACK (R290). -/
def execReshardAck (peer : Peer) (epoch : Byte) (s : State) : Host.Outcome State Fault Refusal :=
  onDev s fun v => v.reshardAcked peer.val epoch
/-- SHARD_MIGRATION (R291). -/
def execShardMigration (x : Migrated) (s : State) : Host.Outcome State Fault Refusal := onDev s fun v => v.migrate x

end Sys2Proof.Machine
end

