-- ==== Sys2Proof/Machine/Registers.lean ====
section
/-! DEFINITION. Reading registers: the service mode, the fields a read computes from the state they report, the
in-force mirror, latched counters, status registers and their clearing, and the parity sweep (spec/12 R336 to
R338, R346 to R350). -/

namespace Sys2Proof.Machine

/-! ## Lifecycle and service mode (R348, R413, R414) -/

namespace Nv

/-- A lifecycle word counts as programmed with at least 24 of its bits blown; the latest one is the state (R413). -/
def lifecycle (n : Nv) : Lifecycle :=
  if n.words.q3 ≥ 24 then .end_ else if n.words.q2 ≥ 24 then .ret
  else if n.words.q1 ≥ 24 then .field else if n.words.q0 ≥ 24 then .provision else .test

/-- JTAG test instructions are permitted (R414). -/
def debug (n : Nv) : Bool := n.lifecycle == .test || n.lifecycle == .ret

end Nv

def Lifecycle.code : Lifecycle → Nat
  | .test => 0 | .provision => 1 | .field => 2 | .ret => 3 | .end_ => 4

def DState.code : DState → Nat
  | .notReady => 0 | .ready => 1 | .starting => 2 | .running => 3 | .ending => 4 | .hold => 5

def gradeCode : Grade → Nat
  | .a => 0x41 | .b => 0x42

/-- GLB_MODE.SVC: the first row of the table that applies (R348). -/
def State.svc (t : State) : Nat :=
  if t.dev.procs.toList.any (·.restarting) || t.dev.cmd.dstate == .hold then 3
  else if t.nv.lifecycle == .test || (t.nv.debug && decide (0x80 ≤ t.tap.ir.toNat) && t.tap.ir != 0xFF) then 2
  else if !t.dev.cmd.shook then 1 else 0

/-! ## Fields computed from what they report -/

namespace Device

/-- E_max in mJ (R388). -/
def bucketMax (s : Device) : Nat := (s.fld R.PWR_PL_PEAK_VALUE - s.fld R.PWR_PL_SUST_VALUE) * s.fld R.PWR_PL_TIME_VALUE

/-- The highest of some temperatures, with its place. -/
def hottest (l : List Int) : Int × Nat :=
  l.zipIdx.foldl (fun b x => if x.1 > b.1 then x else b) (l.headD 0, 0)

/-- The events whose OR CDn VIS_WATCH_SUM mirrors, by bit (R228). -/
def watchSources : List Fld :=
  [R.VEC_STAT_CVT_OVF, R.VEC_STAT_CVT_INV, R.MITT_STAT_INT_OVF, R.MITT_STAT_FLT_INV, R.CUFF_STAT_SAT, R.CUFF_STAT_FACT_OVF,
   R.GNT_STAT_OVF, R.PALM_STAT_OVF, R.PALM_STAT_REM_SAT, R.VIS_STAT_FAULT, R.VIS_STAT_DRIFT, R.VIS_STAT_STARVED]

def watchSum (s : Device) (d : Die) : Nat :=
  (watchSources.zipIdx.map fun x => s.fld (x.1.die d) * 2 ^ x.2).sum

/-- Bits of a list of flags, the first in bit 0. -/
def packBits (l : List Bool) : Nat := (l.zipIdx.map fun x => b2n x.1 * 2 ^ x.2).sum

/-- The fields of a die's registers that report state: lowest bit, width, value. -/
def dieFields (s : Device) (o : Nat) (d : Die) : List (Nat × Nat × Nat) :=
  let x := s.die d
  if o = R.MITT_STAT then [(11, 1, b2n (x.mitts.any fun m => m.2.switching))]
  else if o = R.GNT_STAT then [(16, 4, gntState x.gnt)]
  else if o = R.GNT_RUN then [(0, 16, (gntRun x.gnt).1), (16, 16, (gntRun x.gnt).2)]
  else if o = R.PALM_STAT then [(16, 1, b2n x.palm.run.isSome), (17, 7, x.palm.queue.length)]
  else if o = R.PALM_CUR then [(0, 14, x.palm.cur)]
  else if o = R.HBX_STAT then [(12, 8, satCount 8 (s.openSegments d))]
  else if o = R.VIS_STAT then [(12, 1, b2n (x.checks != []))]
  else if o = R.VIS_WATCH_SUM then [(0, 12, s.watchSum d)]
  else []

/-- The fields of the CMD and FRM blocks that report state. -/
def cmdFields (s : Device) (o : Nat) : List (Nat × Nat × Nat) :=
  let r : Fin 4 := Fin.ofNat 4 ((o - 0x100000) / 0x40)
  let q := s.cmd.rings.get r
  if o = R.CMD_RHEAD + 0x40 * r.val then [(0, 24, q.head)]
  else if o = R.CMD_SHEAD + 0x40 * r.val then [(16, 16, q.widx)]
  else if o = R.CMD_RSTAT + 0x40 * r.val then [(11, 1, b2n (s.ringStopped r))]
  else if o = R.CMD_RSEQ + 0x40 * r.val then [(0, 32, q.expect.toNat)]
  else if o = R.CMD_STAT then
    [(8, 1, b2n s.cmd.handshake), (9, 1, b2n s.cmd.mismatch), (10, 3, s.cmd.dstate.code), (13, 1, b2n s.cmd.yieldSeen),
     (14, 5, s.cmd.queue.length)]
  else if o = R.CMD_JOB_LO then [(0, 32, match s.cmd.job with | none => 0 | some j => j.desc.id.toNat)]
  else if o = R.CMD_JOB_HI then [(0, 32, match s.cmd.job with | none => 0 | some j => j.desc.id.toNat / 2 ^ 32)]
  else if o = R.CMD_RSID then [(0, 16, s.cmd.retained.toNat)]
  else if o = R.FRM_STAT then [(11, 1, b2n s.frm.onTimer)]
  else if o = R.FRM_COUNT_LO then [(0, 32, s.frm.count.toNat)]
  else if o = R.FRM_COUNT_HI then [(0, 32, s.frm.count.toNat / 2 ^ 32)]
  else if o = R.FRM_SINCE_TICK then [(0, 26, satCount 26 s.frm.since)]
  else []

/-- The fields of the FAB block that report state. -/
def fabFields (s : Device) (o : Nat) : List (Nat × Nat × Nat) :=
  if o = R.FAB_SELF then [(16, 12, s.master.getD 0), (28, 1, b2n s.master.isNone)]
  else if o = R.FAB_STAT then [(13, 1, b2n (s.sinks == [])), (16, 12, satCount 12 s.fab.divergent.length)]
  else if R.FAB_PORT_STAT ≤ o ∧ o < R.FAB_PORT_STAT + 64 then
    let q := s.port ((o - R.FAB_PORT_STAT) / 4)
    [(0, 3, q.width), (3, 1, b2n q.up), (4, 12, q.partner)]
  else []

/-- The fields of the PWR block that report state. -/
def pwrFields (s : Device) (nv : Nv) (o : Nat) : List (Nat × Nat × Nat) :=
  if o = R.PWR_STAT then [(12, 1, b2n s.pwr.clamp), (13, 1, b2n s.pwr.emergency)]
  else if o = R.PWR_IN then [(0, 16, satCount 16 (s.pwr.power / 10000)), (16, 16, s.pwr.vinLow)]
  else if o = R.PWR_BUCKET then [(0, 16, s.pwr.bucket / 10 ^ 7), (16, 16, s.bucketMax)]
  else if o = R.PWR_TJ_MAX then [(0, 16, codeOf 16 (hottest s.pwr.diodes).1), (16, 16, (hottest s.pwr.diodes).2)]
  else if R.PWR_DUTY ≤ o ∧ o < R.PWR_DUTY + 16 then [(0, 32, s.duty (Fin.ofNat 4 ((o - R.PWR_DUTY) / 4)))]
  else if o = R.PWR_FW_STAT then
    [(0, 1, nv.boot), (1, 1, b2n s.cmd.activation.isSome), (2, 1, b2n (s.cmd.activation.any fun a => !a.passed)),
     (3, 1, b2n nv.good1), (4, 1, b2n nv.good0), (5, 1, b2n nv.noBoot)]
  else if o = R.PWR_CAL_STAT then
    [(0, 1, b2n s.calUse.factory), (1, 1, b2n s.calUse.recal), (2, 1, b2n s.calUse.user), (3, 1, b2n s.calUse.invalid)]
  else if o = R.PWR_CLAMP_CAUSE then [(0, 7, packBits s.pwr.causes)]
  else []

/-- The fields of the SEC block that report state. -/
def secFields (s : Device) (nv : Nv) (o : Nat) : List (Nat × Nat × Nat) :=
  if o = R.SEC_DEVID_LO then [(0, 32, Config.deviceId.toNat)]
  else if o = R.SEC_DEVID_HI then [(0, 32, Config.deviceId.toNat / 2 ^ 32)]
  else if o = R.SEC_LC then [(0, 3, nv.lifecycle.code), (3, 1, b2n (nv.idCert != [])), (4, 1, b2n nv.debug)]
  else if o = R.SEC_STAT then [(11, 1, b2n s.keys)]
  else if o = R.SEC_FUSE then
    [(0, 1, b2n nv.root0.isSome), (1, 1, b2n nv.root1.isSome), (2, 1, b2n nv.root0Revoked), (3, 1, b2n nv.uds.isSome),
     (4, 7, nv.minSv)]
  else if R.SEC_LC_NONCE ≤ o ∧ o < R.SEC_LC_NONCE + 32 then [(0, 32, s.nonce.toNat / 2 ^ (8 * (o - R.SEC_LC_NONCE)))]
  else []

end Device

/-- The fields of the GLB block that report state. -/
def State.glbFields (t : State) (o : Nat) : List (Nat × Nat × Nat) :=
  let s := t.dev
  if o = R.GLB_ID then [(8, 8, Config.stepping.toNat), (16, 8, gradeCode Config.grade)]
  else if o = R.GLB_MODE then [(0, 2, t.svc)]
  else if o = R.GLB_COMMIT_STAT then [(0, 11, Device.packBits ((List.range 11).map fun g => (s.commit? g).isSome))]
  else if o = R.GLB_ERR_STAT then [(12, 1, b2n (s.cmd.dstate == .hold)), (13, 7, s.err.depth)]
  else if o = R.GLB_RSEQ_STAT then
    [(0, 4, Device.packBits (s.procs.toList.map (·.restarting))), (4, 4, (s.procs.get s.lastProc).fails), (8, 1, b2n s.pwr.clamp)]
  else []

/-- The fields of a register that a read computes: lowest bit, width, value. -/
def State.liveFields (t : State) (off : Nat) : List (Nat × Nat × Nat) :=
  match blockOf off with
  | some (.glb, _) => t.glbFields off
  | some (.cmd, _) | some (.frm, _) => t.dev.cmdFields off
  | some (.fab, _) => t.dev.fabFields off
  | some (.pwr, _) => t.dev.pwrFields t.nv off
  | some (.sec, _) => t.dev.secFields t.nv off
  | some _ => t.dev.dieFields (dieOffset off) (dieAt off)
  | none => []

/-- What a register shows: in the mirror every field's value in force; at its own address the shadow of its RW
fields; a WO field reads as zero (R336, R338). -/
def State.regValue (t : State) (off : Nat) (mirror : Bool) : W32 :=
  let fs := fieldsAt off
  let live := (t.dev.regs.liveAt off).val.toNat
  let rw := maskOf (fun a => a == .rw) fs
  let base := if mirror then live else live - (live &&& rw) + ((t.dev.regs.shadowAt off).val.toNat &&& rw)
  let v := (t.liveFields off).foldl (fun v x => insertBits v x.1 x.2.1 x.2.2) base
  BitVec.ofNat 32 (v - (v &&& maskOf (fun a => a == .wo) fs))

namespace Device

/-! ## 64-bit counters (R337) -/

/-- The _LO words of 64-bit counters. -/
def counterLo (off : Nat) : Bool :=
  off == R.GLB_NDET_CNT_LO || off == R.FRM_COUNT_LO ||
    (decide (R.FAB_IDLE_PACT_LO ≤ off) && decide (off < R.FAB_IDLE_PACT_LO + 0x100) && decide ((off - R.FAB_IDLE_PACT_LO) % 0x40 < 0x30)
      && (off - R.FAB_IDLE_PACT_LO) % 8 == 0)

def latch (s : Device) (lo : Nat) (v : Option W32) : Device :=
  { s with regs := { s.regs with hiLatch := Sparse.put none lo v s.regs.hiLatch } }

/-! ## Status registers (R346, R347, R349) -/

/-- The status registers: those with a SEQ field. -/
def isStatus (off : Nat) : Bool :=
  let o := dieOffset off
  [R.GLB_STAT, R.GLB_ERR_STAT, R.GLB_RST_STAT, R.CMD_RSTAT, R.CMD_RSTAT + 0x40, R.CMD_RSTAT + 0x80, R.CMD_RSTAT + 0xC0, R.CMD_STAT,
   R.FRM_STAT, R.MITT_STAT, R.CUFF_STAT, R.GNT_STAT, R.PALM_STAT, R.VEC_STAT, R.HBX_STAT, R.VIS_STAT, R.MEM_STAT, R.FAB_STAT,
   R.PWR_STAT, R.SEC_STAT].contains o

/-- The counts a status register owns: its SQ fields of more than one bit, and the count registers that their
chapters say are cleared with it (R346, R347). -/
def ownedCounts (off : Nat) : List Fld :=
  let o := dieOffset off
  let d := dieAt off
  let on (l : List Fld) : List Fld := l.map fun f => f.die d
  if o = R.MITT_STAT then on [R.MITT_STAT_DUP_DRAIN_CNT, R.MITT_DRAIN_STALL_CYCLES]
  else if o = R.CUFF_STAT then on [R.CUFF_ROWS_COUNT, R.CUFF_TAP_CYCLES_COUNT, R.CUFF_STALL_COUNT]
  else if o = R.GNT_STAT then on [R.GNT_COMMITS_COUNT, R.GNT_FAILS_COUNT, R.GNT_BUSY_CNT_COUNT]
  else if o = R.PALM_STAT then
    on [R.PALM_RUNS_COUNT, R.PALM_CYCLES_COUNT, R.PALM_NAN_CNT_COUNT, R.PALM_OVF_CNT_COUNT, R.PALM_SAT_CNT_COUNT]
  else if o = R.HBX_STAT then
    on (((List.range 8).map fun k => R.HBX_HWM_UNITS.nth k) ++ [R.HBX_SPILL_UNITS_COUNT, R.HBX_DEFER_CNT_COUNT, R.HBX_LEFTOVER_COUNT])
  else if o = R.VIS_STAT then on [R.VIS_CHECKS_COUNT, R.VIS_SKIPS_COUNT]
  else if o = R.MEM_STAT then
    ((List.range 8).map fun k => R.MEM_CE_CNT_COUNT.nth k) ++ [R.MEM_UE_CNT_COUNT, R.MEM_LATE_CNT_COUNT]
  else if o = R.FAB_STAT then
    ((List.range 16).map fun p => R.FAB_PORT_STAT_REPLAYS.nth p) ++
      [R.FAB_FOLD_CNT_COUNT, R.FAB_DROP_CNT_COUNT, R.FAB_GONE_CNT_COUNT, R.FAB_PIN_BROKEN_COUNT, R.FAB_REFETCH_CNT_COUNT,
       R.FAB_DIV_CNT_COUNT, R.FAB_ABANDON_CNT_COUNT, R.FAB_OLD_EPOCH_CNT_COUNT]
  else if o = R.FRM_STAT then [R.FRM_STAT_OVERRUN_CNT, R.FRM_STAT_SKIPPED_CNT]
  else if o = R.PWR_STAT then (List.range 4).map fun d => R.PWR_THR_US_VALUE.nth d
  else []

/-- The one-bit SQ fields a status register clears (R346). -/
def ownedBits (off : Nat) : List Fld :=
  (((fieldsAt off).filter fun f => f.acc == .sq && f.hi == f.lo).map fun f => (⟨off, f.lo, 1, 0⟩ : Fld)) ++
    (if off = R.MEM_STAT then [R.MEM_FAR_STAT_DOWN, R.MEM_FAR_STAT_DOWN.nth 1] else [])

/-- The key of a field in the snapshot. -/
def snapKey (f : Fld) : Nat := f.off * 32 + f.lo

/-- Clears some one-bit fields; CDn MITT_OVF_MAP clears with INT_OVF (R106). -/
def clearBits (s : Device) (off : Nat) (fs : List Fld) : Device :=
  let s := fs.foldl (fun s f => s.setFld f 0) s
  if dieOffset off = R.MITT_STAT ∧ fs.any (fun f => f.lo == R.MITT_STAT_INT_OVF.lo) then
    (s.setFld (R.MITT_OVF_MAP_LO_OVF.die (dieAt off)) 0).setFld (R.MITT_OVF_MAP_HI_OVF.die (dieAt off)) 0
  else s

/-- The effect of reading a status register: in normal service its counts are snapshotted (R347), in every other
mode everything it owns is cleared, and a snapshot of an earlier read is spent, since that read is no longer the last (R347, R349). -/
def statusEffect (s : Device) (svc off : Nat) : Device :=
  if svc = 0 then
    let snap := (ownedCounts off).foldl (fun m f => Sparse.put 0 (snapKey f) (s.fld f) m) s.regs.snap
    let seq : Option Byte := some (BitVec.ofNat 8 (s.fld (RegFile.seqFld off)))
    { s with regs := { s.regs with snap, readSeq := Sparse.put none off seq s.regs.readSeq } }
  else
    let s := (ownedCounts off).foldl (fun s f => s.setFld f 0) (s.clearBits off (ownedBits off))
    { s with regs := { s.regs with readSeq := Sparse.put none off none s.regs.readSeq } }

/-- A write-back to a status register (R347, R349): the bits whose last event is at or before its SEQ clear, and
each count loses its snapshot if no other read came between. The snapshot is then spent. -/
def statusWrite (s : Device) (svc off : Nat) (v : W32) : Device :=
  if svc ≠ 0 then s
  else
    let s := s.writeReserved svc off v
    let now := s.fld (RegFile.seqFld off)
    let q := v.toNat % 256
    let behind := (now + 256 - q) % 256
    if behind > 127 then s
    else
      let old := (ownedBits off).filter fun f =>
        decide ((now + 256 - (Sparse.get 0 (snapKey f) s.regs.sqSeq).toNat) % 256 ≥ behind) && s.flag f
      let s := s.clearBits off old
      if Sparse.get none off s.regs.readSeq = some (BitVec.ofNat 8 q) then
        let s := (ownedCounts off).foldl (fun s f =>
          let snap := Sparse.get 0 (snapKey f) s.regs.snap
          s.setFld f (if snap = 2 ^ f.w - 1 then 0 else s.fld f - snap)) s
        { s with regs := { s.regs with readSeq := Sparse.put none off none s.regs.readSeq } }
      else s

/-! ## The parity sweep (R350) -/

/-- The bits of the bytes of a copy whose parity is wrong. -/
def badBytes (c : RegCopy) (off : Nat) : Nat :=
  let bad := c.par ^^^ parityOf (fieldsAt off) c.val
  ((List.range 4).map fun i => if bad.getLsbD i then 255 * 2 ^ (8 * i) else 0).sum

/-- A register whose copy in force fails its parity is reloaded with its reset value: job-fatal for an RW field
while a job runs, else a warning. A mitt takes the reset profile and SR_EN with it. -/
def sweepReg (s : Device) (off : Nat) : Device :=
  let c := s.regs.liveAt off
  if c.ok off then s
  else
    let rw := badBytes c off &&& maskOf (fun a => a == .rw) (fieldsAt off)
    let sev := if rw ≠ 0 ∧ s.jobRuns then 2 else 1
    let s := (s.event R.GLB_STAT_PARITY).configFault off 4
    let s := s.post 0x0104 sev (unitCode 0x0D 4) (BitVec.ofNat 64 off)
    let keep := maskOf (fun a => a != .rw && a != .rwi) (fieldsAt off)
    let v := BitVec.ofNat 32 (((s.regs.liveAt off).val.toNat &&& keep) + (resetOf (fieldsAt off) &&& maskOf (fun a => a == .rw || a == .rwi) (fieldsAt off)))
    let s := { s with regs := s.regs.setLive off (goodCopy (fieldsAt off) v) }
    let o := dieOffset off
    let d := dieAt off
    if o = R.MITT_PROFILE_LO then (List.range 32).foldl (fun s m => s.onMitt d m fun x => { x with profN := false }) s
    else if o = R.MITT_PROFILE_HI then (List.range 32).foldl (fun s m => s.onMitt d (m + 32) fun x => { x with profN := false }) s
    else if o = R.MITT_CTL then (List.range 64).foldl (fun s m => s.onMitt d m fun x => { x with srEn := false }) s
    else s

/-- Every copy in force and every RWI copy that is not at its reset value is visited. -/
def paritySweep (s : Device) : Device := (s.regs.live.map (·.1)).foldl sweepReg s

end Device

/-- COMMIT_POST (R339): a write of GLB_COMMIT. -/
def execCommitPost (value : W32) (s : State) : Host.Outcome State Fault Refusal :=
  onDev s fun v => (v.writeReserved s.svc R.GLB_COMMIT value).commitWrite value
/-- COMMIT_APPLY (R341): a unit reaches its safe point. -/
def execCommitApply (group : Fin 11) (d : Die) (unit : Lm) (s : State) : Host.Outcome State Fault Refusal :=
  onDev s fun v => if v.applyDue group.val d unit.val then v.applyUnit group.val d unit.val else v
/-- PROFILE_SWITCH (R79): the mitt accepts tiles in its new profile, and is done with its commit. -/
def execProfileSwitch (d : Die) (lm : Lm) (s : State) : Host.Outcome State Fault Refusal :=
  onDev s fun v =>
    if (v.mitt d lm.val).switching ∧ (v.mitt d lm.val).tiles = [] then (v.profileSwitch d lm.val).mittApplied d lm.val else v
/-- PARITY_SWEEP (R350). -/
def execParitySweep (s : State) : Host.Outcome State Fault Refusal := onDev s fun v => v.paritySweep

end Sys2Proof.Machine
end

