-- ==== Sys2Proof/Machine/Rings.lean ====
section
/-! DEFINITION. The command rings: enabling and stopping, doorbells, fetching a packet, what every command is
checked for, and replies (spec/11 R301 to R313, R319, R333; spec/15 R414). -/

namespace Sys2Proof.Machine

/-! ## The PCIe function's fixed identity (R299) -/

/-- Class code: processing accelerator. -/
def Pcie.classCode : Nat := 0x12
/-- The Device Serial Number is the device ID. -/
def Pcie.serial : W64 := Config.deviceId
/-- Vectors of MSI-X. -/
def Pcie.vectors : Nat := 8

/-- A little-endian integer of `n` bytes at an offset of a payload. -/
def field (l : List Byte) (off n : Nat) : Nat := leVal ((l.drop off).take n)
/-- Whether `n` bytes at an offset are zero. -/
def zeros (l : List Byte) (off n : Nat) : Bool := ((l.drop off).take n).all fun b => b == 0

namespace Device

/-! ## Ring registers (R303 to R305) -/

/-- A status ring with no free entry is recorded (R304). -/
def noteFull (s : Device) (r : Fin 4) : Device := if s.statusFull r then s.event (R.CMD_RSTAT_SFULL.nth r.val) else s

/-- A ring stops: EN reads 0 and nothing more is fetched. -/
def stopRing (s : Device) (r : Fin 4) : Device := (s.setFld (R.CMD_RCTL_EN.nth r.val) 0).onRing r fun q => { q with fetching := false }

/-- A write of CMD_RCTLr (R305). -/
def rctlWrite (s : Device) (svc : Nat) (r : Fin 4) (v : W32) : Device :=
  let off := R.CMD_RCTL + 0x40 * r.val
  let en := s.ringEn r
  let stopped := s.ringStopped r
  let s := s.writeReserved svc off v
  let s := (fieldsAt off).foldl (fun s f => if f.acc = .rwi ∧ f.lo ≠ 0 then s.takeField off f (bitsOf v.toNat f.hi f.lo) 2 else s) s
  match en, v.getLsbD 0 with
  | false, true =>
    if stopped then
      ((s.setFld (R.CMD_RCTL_EN.nth r.val) 1).onRing r fun q =>
        { q with head := 0, tail := 0, widx := 0, phase := true, expect := 0, fetching := false, outstanding := [], early := [],
                 fenced := false }).noteFull r
    else s.configFault off 2
  | true, false => s.stopRing r
  | _, _ => s

/-- A doorbell (R303): refused off a 32-byte boundary, at or above the ring size, between HEAD and the previous
tail, or with EN = 0. A refused one stops the ring; packets before the old tail are still fetched. -/
def doorbell (s : Device) (r : Fin 4) (v : W32) : Device :=
  let tail := v.toNat % 2 ^ 24
  let q := s.ring r
  let size := s.ringSize r
  if ¬ s.ringEn r then s.event (R.CMD_RSTAT_DB_ERR.nth r.val)
  else if tail % 32 ≠ 0 ∨ tail ≥ size ∨ (tail + size - q.head) % size < (q.tail + size - q.head) % size then
    let s := (s.event (R.CMD_RSTAT_DB_ERR.nth r.val)).setFld (R.CMD_RCTL_EN.nth r.val) 0
    s.onRing r fun q => { q with fetching := q.head != q.tail }
  else s.onRing r fun q => { q with tail }

/-- A write of CMD_SHEADr, after which waiting replies are written; one that leaves no entry free is recorded (R304). -/
def sheadWrite (s : Device) (svc : Nat) (r : Fin 4) (v : W32) : Device :=
  let t := s.writeFields svc (R.CMD_SHEAD + 0x40 * r.val) v
  if t.statusFull r ∧ ¬ s.statusFull r then t.noteFull r else t.flush r

/-! ## Fetching a packet (R302, R305 to R309) -/

/-- Peak may fetch from a ring: packets are posted, and an entry of its status ring is free. -/
def fetchable (s : Device) (r : Fin 4) : Bool :=
  let q := s.ring r
  (s.ringEn r || q.fetching) && q.head != q.tail && q.replies == [] && !s.statusFull r

/-- Every earlier packet of the ring has posted its final reply, or the first of a JOB_SUBMIT (R309). -/
def fenceClear' (s : Device) (r : Fin 4) : Bool :=
  let q := s.ring r
  q.replies == [] && q.outstanding.all fun x => q.early.contains x.seq

/-- Bytes a packet takes in its ring (R302). -/
def packetBytes (p : Pkt) : Nat := 32 + (p.len.toNat + 31) / 32 * 32
/-- A length that R307 does not allow, or a packet that would run past the end of the ring (R302). -/
def badPacket (s : Device) (p : Pkt) : Bool := decide (p.len.toNat > 4096) || decide ((s.ring p.ring).head + packetBytes p > s.ringSize p.ring)

/-- Peak has found the ring's next packet to be a FENCE that still waits (R309). -/
def fenceWaits (s : Device) (r : Fin 4) : Bool := (s.ring r).fenced && !s.fenceClear' r

/-- It is the ring's turn: every ring before it in the round has no packet, or one that waits (R306). -/
def ringTurn (s : Device) (r : Fin 4) : Bool :=
  let before := (List.range 4).map (fun i => (Fin.ofNat 4 (s.cmd.lastRing + 1 + i))) |>.takeWhile fun q => q != r
  before.all fun q => !(s.fetchable q && !s.fenceWaits q)

/-- The packet is the next that Peak reads (R303 to R307). -/
def packetNext (s : Device) (p : Pkt) : Bool :=
  let q := s.ring p.ring
  let posted := (q.tail + s.ringSize p.ring - q.head) % s.ringSize p.ring
  let need := if !p.readOk || s.badPacket p then 32 else packetBytes p
  s.serves && s.cmd.dstate != .notReady && s.fetchable p.ring && decide (need ≤ posted) && s.ringTurn p.ring

/-- It may start: a FENCE only behind every earlier packet of its ring (R309). -/
def packetDue (s : Device) (p : Pkt) : Bool := s.packetNext p && (!p.flags.getLsbD 0 || s.fenceClear' p.ring)

def refOf (p : Pkt) (op : Nat) : PktRef :=
  { ring := p.ring, seq := p.seq, op := BitVec.ofNat 16 op, job := p.job, cookie := p.cookie,
    noreply := p.flags.getLsbD 1, intr := p.flags.getLsbD 2 }

/-- The payload: as many bytes as the length says. -/
def payloadOf (p : Pkt) : List Byte := (p.payload ++ List.replicate p.len.toNat 0).take p.len.toNat

/-- The payload lengths of R313. -/
def lengthOk (op : Nat) (pl : List Byte) : Bool :=
  let n := pl.length
  match op with
  | 0x01 | 0x40 | 0x41 => n == 32
  | 0x02 | 0x11 | 0x13 | 0x31 | 0x62 => n == 0
  | 0x03 | 0x12 | 0x14 | 0x15 | 0x21 | 0x33 | 0x51 | 0x60 | 0x61 => n == 8
  | 0x10 => decide (72 ≤ n) && n == 72 + 24 * field pl 0x40 2
  | 0x20 => decide (16 ≤ n) && n == 16 + 16 * field pl 8 1
  | 0x30 | 0x50 => n == 24
  | 0x32 => n == 16
  | 0x70 => n == 40
  | _ => true

/-- The commands that run in every state: NOP, VERSION, STATUS, RESET (R315, R319, R414). -/
def always (op : Nat) : Bool := decide (op ≤ 3)
/-- Commands refused while a job runs, and commands refused while none does (R313). -/
def notRunning (op : Nat) : Bool := op == 0x32 || op == 0x51 || op == 0x61 || op == 0x62 || op == 0x71
def notReady (op : Nat) : Bool := op == 0x12 || op == 0x13 || op == 0x20 || op == 0x21 || op == 0x30 || op == 0x31 || op == 0x33

/-- The status that turns a command away before it starts, if any (R307, R313, R315, R319, R410, R414). -/
def refusal? (s : Device) (nv : Nv) (p : Pkt) (op : Nat) : Option Nat :=
  if nv.lifecycle = .end_ ∧ ¬ always op then some LIFECYCLE_DENIED
  else if s.cmd.dstate = .hold ∧ ¬ always op ∧ ¬ (op = 0x50 ∧ nv.noBoot) then some HOLD_STATUS
  else if ¬ s.cmd.handshake ∧ ¬ always op then some NO_HANDSHAKE
  else if p.strange.isSome then some BAD_OPCODE
  else if ¬ lengthOk op (payloadOf p) then some BAD_LENGTH
  else if p.flags.toNat ≥ 8 ∨ p.zero ≠ 0 then some BAD_FIELD
  else if notRunning op ∧ s.jobRuns then some WRONG_STATE
  else if notReady op ∧ ¬ s.jobRuns then some BAD_JOB
  else none

/-- A reply to a packet that never became a command, and so ends none; BAD_LENGTH stops the ring (R305). -/
def turnAway (s : Device) (ref : PktRef) (status : Nat) : Device :=
  let x := s.freeWord
  let s := x.2.queueReply ref status x.1.toNat
  if status = BAD_LENGTH then (s.event (R.CMD_RSTAT_DB_ERR.nth ref.ring.val)).stopRing ref.ring else s

/-- HEAD passes a packet, and the next turn is the next ring's. -/
def passPacket (s : Device) (p : Pkt) : Device :=
  let size := s.ringSize p.ring
  let s := s.onCmd fun c => { c with lastRing := p.ring.val }
  s.onRing p.ring fun q =>
    let h := (q.head + packetBytes p) % size
    { q with head := h, fetching := q.fetching && h != q.tail, fenced := false }

end Device

/-- The device's part of a state changed. -/
def State.onDevice (t : State) (f : Device → Device) : State := { t with dev := f t.dev }

/-- A packet with opcode `op` as Peak takes it: read, numbered, checked, and given to `body` as an accepted
command with its payload. One whose opcode is none of R313 has that opcode (R312). -/
def State.packet (t : State) (p : Pkt) (op : Nat) (body : PktRef → List Byte → State → State) : State :=
  let s := t.dev
  let op := (p.strange.map BitVec.toNat).getD op
  let ref := Device.refOf p op
  if ¬ s.packetDue p then
    -- a FENCE that waits lets the turn pass
    if s.packetNext p then t.onDevice fun s => s.onRing p.ring fun q => { q with fenced := true } else t
  else if ¬ p.readOk then t.onDevice fun s => (s.event (R.CMD_RSTAT_READ_ERR.nth p.ring.val)).stopRing p.ring
  else if s.badPacket p then t.onDevice fun s => s.turnAway ref BAD_LENGTH
  else
    let t := t.onDevice fun s => s.passPacket p
    if p.seq ≠ (s.ring p.ring).expect then t.onDevice fun s => s.turnAway ref BAD_SEQUENCE
    else
      let t := t.onDevice fun s => s.onRing p.ring fun q => { q with expect := q.expect + 1 }
      if op = 0 then t
      else match s.refusal? t.nv p op with
        | some st => t.onDevice fun s => s.turnAway ref st
        | none => body ref (Device.payloadOf p) (t.onDevice fun s => s.onRing p.ring fun q => { q with outstanding := q.outstanding ++ [ref] })

/-- A packet command, while the core logic runs. -/
def onPacket (p : Pkt) (op : Nat) (s : State) (body : PktRef → List Byte → State → State) : Host.Outcome State Fault Refusal :=
  if s.dev.halted then .next s else .next (s.packet p op body)

/-- A packet command that acts on the device alone. -/
def devPacket (p : Pkt) (op : Nat) (s : State) (body : PktRef → List Byte → Device → Device) : Host.Outcome State Fault Refusal :=
  onPacket p op s fun ref pl t => t.onDevice (body ref pl)

/-- DOORBELL (R303). -/
def execDoorbell (r : Fin 4) (tail : W32) (s : State) : Host.Outcome State Fault Refusal :=
  onDev s fun v => (v.writeReserved s.svc (R.CMD_DB + 0x1000 * r.val) tail).doorbell r tail
/-- RING_ENABLE (R305). -/
def execRingEnable (r : Fin 4) (value : W32) (s : State) : Host.Outcome State Fault Refusal := onDev s fun v => v.rctlWrite s.svc r value
/-- RING_DISABLE (R305). -/
def execRingDisable (r : Fin 4) (value : W32) (s : State) : Host.Outcome State Fault Refusal := onDev s fun v => v.rctlWrite s.svc r value
/-- STATUS_RING_HEAD (R304). -/
def execStatusRingHead (r : Fin 4) (value : W32) (s : State) : Host.Outcome State Fault Refusal := onDev s fun v => v.sheadWrite s.svc r value
/-- NOP (R313): posts no reply. -/
def execNop (p : Pkt) (s : State) : Host.Outcome State Fault Refusal := devPacket p 0x00 s fun _ _ v => v

end Sys2Proof.Machine
end

