-- ==== Sys2Proof/Machine/Power.lean ====
section
/-! DEFINITION. Power and temperature: sensors, the energy bucket, the hardware clamp and Crown's loop
(spec/14 R385 to R394), and Bonnet's temperature reports (spec/09 R235). -/

namespace Sys2Proof.Machine

namespace Device

def onPwr (s : Device) (f : Power → Power) : Device := { s with pwr := f s.pwr }
def setProc (s : Device) (p : Fin 4) (x : ProcState) : Device := { s with procs := s.procs.set p x }

/-! ## Clamp causes (R391 to R394) -/

/-- The power chiplets' unit code on XD1 (R377). -/
def clampUnit : W16 := unitCode 0x16 5
/-- The status bit of a cause and the code it posts (R403, R404); CROWN has neither. -/
def causeReport : Nat → Option (Fld × W16)
  | 1 | 2 => some (R.PWR_STAT_POWER, 0x0601)
  | 3 | 4 => some (R.PWR_STAT_THERMAL, 0x0602)
  | 5 => some (R.PWR_STAT_VIN, 0x0604)
  | 6 => some (R.PWR_STAT_TRIP, 0x0603)
  | _ => none

def hasCause (s : Device) (i : Nat) : Bool := s.pwr.causes.getD i false
/-- A cause that makes an emergency (R391): every one but CROWN. -/
def emergencyCause (s : Device) : Bool := (List.range 7).any fun i => decide (0 < i) && s.hasCause i

/-- The clamp takes control; its duties start from those in force (log entry 43). -/
def takeClamp (s : Device) : Device :=
  if s.pwr.clamp then s
  else
    let now : Quad Nat := ⟨s.duty 0, s.duty 1, s.duty 2, s.duty 3⟩
    s.onPwr fun p => { p with clamp := true, clampDuty := now, lowUs := Quad.all 0 }

/-- A cause is present or not. One that arises gives the clamp control, is reported and, but for CROWN, is an
emergency; THERM asserts THERM_N (R391 to R394). While Crown restarts an emergency lasts as long as its breach (R393). -/
def setCause (s : Device) (i : Nat) (on : Bool) : Device :=
  let arises := on && !s.hasCause i
  let s := s.onPwr fun p => { p with causes := p.causes.set i on }
  let s := if s.hasCause 0 ∧ ¬ s.emergencyCause then s.onPwr fun p => { p with emergency := false } else s
  if ¬ arises then s
  else
    let s := (s.takeClamp).onPwr fun p => { p with calmUs := 0 }
    let s := if i = 0 ∨ s.pwr.emergency then s else s.onPwr fun p => { p with emergency := true, emergUs := 0, quietUs := 0 }
    let s := if i = 6 then s.onPwr fun p => { p with thermN := true } else s
    match causeReport i with
    | none => s
    | some (f, code) =>
      let s := s.event f
      if s.flag R.PWR_CTL_EVENT then s.post code 1 clampUnit 0 else s

/-! ## Sensors (R385) -/

/-- The hottest junction of a compute die, in 1/16 °C. -/
def dieHot (s : Device) (d : Die) : Int := (hottest ((s.pwr.diodes.drop (16 * d.val)).take 16)).1
def deviceHot (s : Device) : Int := (hottest s.pwr.diodes).1
def stackTemp (s : Device) (k : Nat) : Nat := s.fld (R.MEM_STACK_TEMP.nth k)

/-- A sensor's reading with the offset of the calibration set in use: `i` counts diodes, then VIN senses, then current senses (R385,
R395; log entry 36). -/
def corrected (s : Device) (i : Nat) (x : Int) : Int := x + s.calUse.offsets.getD i 0

/-- SENSOR_SAMPLE: the junctions of the moment, and the causes TJ and THERM. -/
def sensorSample (s : Device) (diodes : List Int) : Device :=
  let s := s.onPwr fun p => { p with diodes := diodes.mapIdx s.corrected }
  let hot := s.deviceHot
  let s := (s.setCause 3 (decide (hot > 105 * 16))).setCause 6 (decide (hot ≥ 115 * 16))
  if hot < 110 * 16 then s.onPwr fun p => { p with thermN := false } else s

/-- BONNET_LOOP: the stack temperatures, in hardware registers that the clamp and Crown read (R235, R384). -/
def bonnetLoop (s : Device) (temps : List Byte) : Device :=
  if s.procs.q3.up then
    let s := (List.range 8).foldl (fun s k => s.setFld (R.MEM_STACK_TEMP.nth k) (temps.getD k 0).toNat) s
    s.setCause 4 ((List.range 8).any fun k => decide (s.stackTemp k > 95))
  else s

/-! ## One microsecond (R386 to R388, R391) -/

/-- Microseconds a die was throttled. -/
def countThrottled (s : Device) : Device :=
  ([0, 1, 2, 3] : List Die).foldl (fun s d => if s.duty d < 256 then s.count (R.PWR_THR_US_VALUE.nth d.val) 1 else s) s

/-- One of the 64-bit idle counters of a die, by cause, goes up (R278). -/
def addIdle (s : Device) (d : Die) (c n : Nat) : Device :=
  let lo : Fld := ⟨R.FAB_IDLE_PACT_LO + 0x40 * d.val + 8 * c, 0, 32, 0⟩
  let hi : Fld := ⟨R.FAB_IDLE_PACT_HI + 0x40 * d.val + 8 * c, 0, 32, 0⟩
  let v := s.fld lo + s.fld hi * 2 ^ 32 + n
  (s.setFld lo (v % 2 ^ 32)).setFld hi (v / 2 ^ 32 % 2 ^ 32)

/-- The idle cycles of the microsecond that has passed while a job runs, at most 1,000 on a die: free amounts, since the model does not
count cycles (R278; log entry 48). -/
def countIdle (s : Device) : Device :=
  if ¬ s.jobRuns then s
  else ([0, 1, 2, 3] : List Die).foldl (fun s d =>
    ((List.range 6).foldl (fun (z : Device × Nat) c =>
      let x := z.1.freeWord
      let n := min z.2 x.1.toNat
      (x.2.addIdle d c n, z.2 - n)) (s, 1000)).1) s

/-- The largest reading of a current sense, 20 A (R385); a corrected one beyond it stands there (DESIGN CHOICE, log entry 184). -/
def CURRENT_MAX : Nat := 2000

/-- BUCKET_UPDATE: what the senses read, `vin` in 10 mV and `current` in 10 mA, one of each for each chiplet. The bucket counts in 0.1 nJ.
It is also the model's microsecond. -/
def bucketUpdate (s : Device) (vin current : List Nat) : Device :=
  let vin := vin.mapIdx fun i x => (s.corrected (80 + i) x).toNat
  let current := current.mapIdx fun i x => min CURRENT_MAX (s.corrected (84 + i) x).toNat
  let p : Nat := ((vin.zip current).map fun x => x.1 * x.2).sum
  let sust := s.fld R.PWR_PL_SUST_VALUE * 10000
  let b := min (s.pwr.bucket + sust - p) (s.bucketMax * 10 ^ 7)
  let bad := (vin.zip s.pwr.vinBad).map fun x => if x.1 < 3800 ∨ x.1 > 4600 then x.2 + 1 else 0
  let s := { s with clockUs := s.clockUs + 1, holdover := s.holdover.map (fun n => min HOLDOVER_US (n + 1)),
                    frm := { s.frm with since := min (s.frm.since + 1) (2 ^ 26 - 1) } }
  let s := s.countIdle.countThrottled
  let calm := s.pwr.causes.all fun c => !c
  let s := s.onPwr fun q => { q with
    power := p, vinLow := vin.foldl min (vin.headD 0), recent := (p :: q.recent).take 100, bucket := b,
    vinBad := bad, calmUs := if calm then q.calmUs + 1 else 0,
    emergUs := if q.emergency then q.emergUs + 1 else q.emergUs, quietUs := if q.emergency then 0 else q.quietUs + 1 }
  let s := s.setCause 1 (decide (p > s.fld R.PWR_PL_PEAK_VALUE * 10000))
  let s := s.setCause 2 (decide (p > sust) && b == 0)
  s.setCause 5 (bad.any fun n => decide (n ≥ 10))

/-- CLAMP_ENFORCE (R392): the safe limits 1,000 W, 95 °C and 85 °C, die by die. -/
def clampEnforce (s : Device) : Device :=
  if ¬ s.pwr.clamp then s
  else ([0, 1, 2, 3] : List Die).foldl (fun s d =>
    let beyond := decide (s.pwr.power > 1000 * 10000) || decide (s.dieHot d > 95 * 16) ||
      decide (s.stackTemp (2 * d.val) > 85) || decide (s.stackTemp (2 * d.val + 1) > 85)
    let duty := s.pwr.clampDuty.get d
    let low := if beyond then 0 else s.pwr.lowUs.get d + 1
    let duty := if beyond then max 16 (duty / 2) else if low ≥ 100 then min 256 (duty + 8) else duty
    s.onPwr fun p => { p with clampDuty := p.clampDuty.set d duty, lowUs := p.lowUs.set d low }) s

/-- CLAMP_HANDBACK (R393): no cause for 1 ms, Crown running, THERM_N deasserted. Crown's duties start from those in
force, and an emergency ends. -/
def clampHandback (s : Device) : Device :=
  if s.pwr.clamp ∧ s.pwr.causes.all (fun c => !c) ∧ s.pwr.calmUs ≥ 1000 ∧ s.procs.q0.up ∧ ¬ s.pwr.thermN then
    let now : Quad Nat := ⟨s.duty 0, s.duty 1, s.duty 2, s.duty 3⟩
    s.onPwr fun p => { p with clamp := false, emergency := false, th := now, pw := now.toList.foldl max 0, quietUs := 0 }
  else s

/-! ## Crown's loop (R389) -/

def clampInt (x lo hi : Int) : Int := max lo (min x hi)

/-- CROWN_LOOP: C's integer division truncates towards zero. -/
def crownLoop (s : Device) : Device :=
  if ¬ s.procs.q0.up then s
  else
    let tj : Int := (s.fld R.PWR_TJ_TARGET_VALUE : Int) * 16 - (if s.calUse.factory then 0 else 32)
    let stk : Int := s.fld R.PWR_STK_TARGET_VALUE
    let th (d : Die) : Nat :=
      let hot : Int := max (s.stackTemp (2 * d.val)) (s.stackTemp (2 * d.val + 1))
      let e := min (tj - s.dieHot d) ((stk - hot) * 16)
      (clampInt ((s.pwr.th.get d : Int) + Int.tdiv e 4) 16 256).toNat
    let avg : Int := s.pwr.recent.sum / (max 1 s.pwr.recent.length) / 10000
    let room : Int := if s.pwr.bucket / 10 ^ 7 > s.bucketMax / 2 then (s.fld R.PWR_PL_PEAK_VALUE * 98 / 100 : Nat) - avg
      else (s.fld R.PWR_PL_SUST_VALUE : Int) - avg
    let pw := (clampInt ((s.pwr.pw : Int) + Int.tdiv room 4) 16 256).toNat
    s.onPwr fun p => { p with th := ⟨th 0, th 1, th 2, th 3⟩, pw }

end Device

/-- SENSOR_SAMPLE (R385). -/
def execSensorSample (diodes : List Int) (s : State) : Host.Outcome State Fault Refusal := onManagement s fun v => v.sensorSample diodes
/-- BONNET_LOOP (R235). -/
def execBonnetLoop (temps : List Byte) (s : State) : Host.Outcome State Fault Refusal := onDev s fun v => v.bonnetLoop temps
/-- BUCKET_UPDATE (R388). -/
def execBucketUpdate (vin current : List Nat) (s : State) : Host.Outcome State Fault Refusal := onManagement s fun v => v.bucketUpdate vin current
/-- CLAMP_ENFORCE (R392). -/
def execClampEnforce (s : State) : Host.Outcome State Fault Refusal := onManagement s fun v => v.clampEnforce
/-- CLAMP_HANDBACK (R393). -/
def execClampHandback (s : State) : Host.Outcome State Fault Refusal := onDev s fun v => v.clampHandback
/-- CROWN_LOOP (R389). -/
def execCrownLoop (s : State) : Host.Outcome State Fault Refusal := onDev s fun v => v.crownLoop

end Sys2Proof.Machine
end

