-- ==== Sys2Proof/Machine/Bundle.lean ====
section
/-! DEFINITION. Firmware bundles: the manifest, what it takes to verify, and the steps of an activation that load its images
(spec/14 R398, R400; spec/15 R405, R408, R409, R411). -/

namespace Sys2Proof.Machine

/-- `n` bytes at an offset; beyond the end a slot reads zero. -/
def part (l : List Byte) (off n : Nat) : List Byte := (l.drop off ++ List.replicate n 0).take n
/-- The 32 bytes of a digest. -/
def digestBytes (x : BitVec 256) : List Byte := leBytes 32 x.toNat
/-- The digest held in 32 bytes. -/
def digestAt (l : List Byte) (off : Nat) : BitVec 256 := BitVec.ofNat 256 (leVal (part l off 32))

/-- A certificate: a signature over the digest of a purpose byte and the certified key (R405). -/
def certified (signer : List Byte) (purpose : Byte) (key cert : List Byte) : Bool :=
  Falcon.verify signer (digestBytes (Shake.digest (purpose :: key))) cert

/-- Where a bundle fails to verify (R409, R411). -/
inductive BundleFault where
  /-- The root, a certificate, the manifest signature or a measurement fails. -/
  | signature
  /-- The security version is below MIN_SV. -/
  | version
  deriving DecidableEq, Repr

/-! ## The manifest (R408) -/

def manifestLength : Nat := 0x24E8
/-- The bundle version: major, minor, patch, in six bytes. -/
def bundleVersion (m : List Byte) : Nat := field m 0x04 6
/-- The four image versions. -/
def imageVersions (m : List Byte) : List Nat := (List.range 4).map fun i => field m (0x18 + 16 * i) 4
def securityVersion (m : List Byte) : Nat := field m 0x0A 1
def rootSlot (m : List Byte) : Nat := field m 0x0B 1
def signingKey (m : List Byte) : List Byte := part m 0xD0 1793
def lifecycleKey (m : List Byte) : List Byte := part m 0xCD8 1793
def rootKey (m : List Byte) : List Byte := part m 0x18E0 1793
/-- Image `i` of a bundle, and its measurement (R405). -/
def image (m : List Byte) (i : Nat) : List Byte := part m (field m (0x10 + 16 * i) 4) (field m (0x14 + 16 * i) 4)
def measure (m : List Byte) (i : Nat) : BitVec 256 := Shake.digest (image m i)
def measurements (m : List Byte) : List (BitVec 256) := (List.range 4).map (measure m)
/-- Each image's measurement equals the manifest's entry (R400, R409). -/
def measured (m : List Byte) : Bool := decide (manifestLength ≤ m.length) && (List.range 4).all fun i => measure m i == digestAt m (0x50 + 32 * i)

namespace Nv

/-- A bundle slot. -/
def slot (n : Nv) (k : Nat) : List Byte := if k = 0 then n.slot0 else n.slot1
/-- The slot holds a bundle that verified. -/
def good (n : Nv) (k : Nat) : Bool := if k = 0 then n.good0 else k == 1 && n.good1
def setSlot (n : Nv) (k : Nat) (b : List Byte) (good : Bool) : Nv :=
  if k = 0 then { n with slot0 := b, good0 := good } else { n with slot1 := b, good1 := good }

/-- The digest in the fuses of a root slot (R406). -/
def fusedRoot (n : Nv) (k : Nat) : Option (BitVec 256) := match k with
  | 0 => n.root0
  | 1 => n.root1
  | _ => none

/-- ROOT_KD of a root slot, where it verifies anything: programmed and not revoked. In TEST the test root stands in for an
unprogrammed slot; in END no root verifies anything (R406, R409, R414). -/
def rootKd (n : Nv) (k : Nat) : Option (BitVec 256) :=
  if k > 1 ∨ (k = 0 ∧ n.root0Revoked) ∨ n.lifecycle = .end_ then none
  else if n.fusedRoot k = none ∧ n.lifecycle = .test then some Config.testRootDigest else n.fusedRoot k

/-- What keeps a bundle from verifying; none where it verifies (R409). -/
def bundleFault (n : Nv) (b : List Byte) : Option BundleFault :=
  let root := rootKey b
  let trusted := n.rootKd (rootSlot b) == some (Shake.digest root)
  let certs := certified root 0x01 (signingKey b) (part b 0x7D8 1280) && certified root 0x02 (lifecycleKey b) (part b 0x13E0 1280)
  let signed := Falcon.verify (signingKey b) (digestBytes (Shake.digest (part b 0 0x1FE8))) (part b 0x1FE8 1280)
  if ¬ (trusted && certs && signed && measured b) then some .signature
  else if securityVersion b < n.minSv then some .version
  else none

/-- The bundle verifies. -/
def verifies (n : Nv) (k : Nat) : Bool := n.bundleFault (n.slot k) == none

end Nv

/-! ## Steps 1 to 3 of an activation (R400) -/

namespace Device

/-- Step 1 is over: no emergency, and none for 100 ms. -/
def quiet (s : Device) : Bool := !s.pwr.emergency && decide (s.pwr.quietUs ≥ 100000)

/-- Step 3: all four processors stop, the images of the slot are loaded and their measurements verified, and the processors start anew;
the clamp takes control for cause CROWN, the handshake clears. Where a measurement fails, no processor can report ready (log entry 180). -/
def loadImages (s : Device) (bundle : List Byte) : Device :=
  let s := ([0, 1, 2, 3] : List (Fin 4)).foldl (fun s p => s.setProc p { (s.procs.get p) with
    up := false, activating := true, code := image bundle p.val, data := [] }) s
  let s := s.setCause 0 true
  let s := s.onCmd fun c => { c with handshake := false, activation := c.activation.map fun a => { a with loading := true } }
  { s with images := if measured bundle then measurements bundle else [], running := bundle }

end Device

/-- An activation goes on as far as it can: past step 1 once it is quiet, and through step 3 once no processor restarts. -/
def State.advanceActivation (t : State) : State :=
  match t.dev.cmd.activation with
  | none => t
  | some a =>
    let passed := a.passed || t.dev.quiet
    let s := t.dev.onCmd fun c => { c with activation := some { a with passed } }
    if passed ∧ ¬ a.loading ∧ s.procs.toList.all (fun p => !p.restarting) then
      { t with dev := s.loadImages (t.nv.slot a.slot) }
    else { t with dev := s }

end Sys2Proof.Machine
end

