-- ==== Sys2Proof/Machine/Recovery.lean ====
section
/-! DEFINITION. Retiring errors, the end record, HOLD, restarts of the firmware processors and block resets
(spec/13 R366, R368, R369, R375, R378 to R381; spec/11 R319, R324; spec/16 R431). -/

namespace Sys2Proof.Machine

def procIdx : Proc → Fin 4
  | .crown => 0 | .band => 1 | .peak => 2 | .bonnet => 3

/-- The unit code of a processor: Crown and Bonnet on XD1, Band and Peak on XD0 (R377, R383). -/
def procUnit : Proc → W16
  | .crown => unitCode 0x10 5 | .band => unitCode 0x11 4 | .peak => unitCode 0x12 4 | .bonnet => unitCode 0x13 5

namespace Device

/-! ## Retirement (R374, R375) -/

/-- An entry retired by sequence number `q`: HANDLED, and numbered at or before it modulo 2^32. -/
def retired (e : ErrEntry) (q : W32) : Bool := e.state == .handled && decide ((q - e.seq).toNat < 2 ^ 31)

/-- A write of GLB_ERR_RETIRE; with the overflow entry the lost count goes to BK10 again. -/
def errRetire (s : Device) (q : W32) : Device :=
  let over_ := (s.err.slot 63).any fun e => retired e q
  let s := s.onErr fun x => { x with slots := x.slots.filter fun z => !(z.2.any fun e => retired e q) }
  if over_ then s.setBk 10 (s.fld R.GLB_ERR_LOST_COUNT) else s

/-! ## The end record (R324) -/

/-- A figure of the end record in cycles, which the model does not count: field `n` (log entry 48). -/
def cycles (s : Device) (n : Nat) : List Byte := leBytes 8 (Config.cycleCount s.clockUs n).toNat

/-- Idle cycles of a cause, summed over dies (R278). -/
def idleCycles (s : Device) (c : Nat) : Nat := ((List.range 4).map fun d =>
  s.fld ⟨R.FAB_IDLE_PACT_LO + 0x40 * d + 8 * c, 0, 32, 0⟩ + s.fld ⟨R.FAB_IDLE_PACT_HI + 0x40 * d + 8 * c, 0, 32, 0⟩ * 2 ^ 32).sum

/-- Ownership time so far, in µs (R325). -/
def owned_us (s : Device) (j : Job) : Nat := s.clockUs - j.startUs

/-- The 256 bytes of the end record, also what JOB_QUERY writes (R313, R324). The manual states no step number for a job
that started, or ended, none, and no end status for a job that has not ended (log entry 46). -/
def endRecord (s : Device) (j : Job) (charged : Nat) (kept : Bool) : List Byte :=
  let none_ : W32 := (Config.freeWord s.freeCnt).setWidth 32
  let ended : Bool := match j.phase with | .ending _ => true | _ => false
  leBytes 8 j.desc.id.toNat ++ leBytes 2 (if ended then j.endStatus.toNat else none_.toNat) ++ leBytes 2 j.errCode.toNat ++ leBytes 4 j.desc.first.toNat
    ++ leBytes 4 (j.lastStarted.getD none_).toNat ++ leBytes 4 (j.lastEnded.getD none_).toNat
    ++ leBytes 8 j.startFrm.toNat ++ leBytes 8 (if ended then j.endFrm.toNat else none_.toNat) ++ leBytes 8 charged
    ++ s.cycles 0 ++ s.cycles 1
    ++ leBytes 8 (((List.range 4).map fun d => s.fld (R.PALM_CYCLES_COUNT.die (Fin.ofNat 4 d))).sum)
    ++ (List.range 6).flatMap (fun c => leBytes 8 (s.idleCycles c))
    ++ leBytes 8 (s.fld R.GLB_NDET_CNT_LO_VALUE + s.fld R.GLB_NDET_CNT_HI_VALUE * 2 ^ 32)
    ++ leBytes 4 (s.fld R.FRM_OVERRUN_JOB_COUNT) ++ leBytes 4 j.errPosted ++ leBytes 2 j.joinsReturned
    ++ leBytes 1 (s.fld R.GLB_DET_EFFECTIVE + 2 * s.fld R.GLB_DET_LOST + 4 * b2n j.yieldSeen + 8 * b2n kept)
    ++ List.replicate 117 0

/-- Writes the end record and posts the final reply of the JOB_SUBMIT: the steps completed (R313, R324 step 4). The time charged ends with
step 5, so that what it has beyond the time so far is a free value (log entry 166). -/
def answerJob (s : Device) (kept : Bool) : Device := match s.cmd.job with
  | none => s
  | some j =>
    let x := s.freeWord
    let s := x.2.setHost j.desc.recordAddr.toNat (x.2.endRecord j (s.owned_us j + x.1.toNat) kept)
    let s := s.freeWord.2.onJob fun j => { j with replied := true }
    s.reply j.desc.ref j.endStatus.toNat j.steps

/-! ## HOLD (R319, R381) -/

def HOLD_CODE : W16 := 0x0503

/-- Commands accepted and not answered when HOLD begins are answered HOLD (R319, R400; log entry 44). -/
def holdReplies (s : Device) : Device :=
  let refs := [0, 1, 2, 3].flatMap fun r => (s.ring r).outstanding
  let s := refs.foldl (fun s x => s.replyFree x HOLD_STATUS) s
  (s.onCmd fun c => { c with queue := [], joins := [], leaves := [], yieldPend := [], transfers := [], activation := none, calRestore := none, calDone := false }).onFab
    fun f => { f with reshard := none }

/-- The HOLD record (R368): the failed unit, restarts made, FRM_COUNT and the code of the last failure, laid out as
log entry 45 says. -/
def holdRecord (s : Device) (unit : W16) (restarts : Nat) (code : W16) : Device :=
  s.setLining 0x200 (leBytes 2 unit.toNat ++ leBytes 2 restarts ++ leBytes 4 0 ++ leBytes 8 s.frm.count.toNat ++ leBytes 2 code.toNat ++ List.replicate 46 0)

/-- Vector 4 fires at HOLD whatever the queue holds: also where the error that brings it was lost or joined an entry (R381). -/
def holdVector (was s : Device) : Device := if Sparse.get 0 4 s.cmd.msix = Sparse.get 0 4 was.cmd.msix then s.raise 4 else s

/-- The device enters HOLD: departure notices, DSTATE, the job ended and answered JOB_FATAL with its end record
naming HOLD, solves discarded, lanes silent. `post` is the error that brings it. -/
def enterHold (s : Device) (unit : W16) (restarts : Nat) (code last : W16) : Device :=
  let s := s.departAll
  let s := s.alerting fun s => s.setDState .hold
  let s := s.holdVector (s.post code 3 unit 0)
  let s := s.setFld R.GLB_ERR_STAT_LATCHED 1
  let s := s.stopUnits
  let s := s.onJob fun j => if j.replied then j else
    { j with endStatus := JOB_FATAL, errCode := HOLD_CODE, endFrm := match j.phase with | .ending _ => j.endFrm | _ => s.frm.count,
             phase := match j.phase with | .ending b => .ending b | _ => .ending false }
  let s := if s.cmd.job.all (·.replied) then s else s.answerJob false
  let s := (s.onCmd fun c => { c with job := none }).settle
  let s := s.holdReplies
  let s := s.onFab fun f => { f with ports := f.ports.map fun x => (x.1, { partner := x.2.partner, partnerPort := x.2.partnerPort }) }
  let s := [0, 1].foldl (fun s p => (s.setFld (R.MEM_FAR_STAT_WIDTH.nth p) 0).setFld (R.MEM_FAR_STAT_RATE.nth p) 0) s
  let s := ((s.holdRecord unit restarts last).setBk 9 (s.bk 9 + 1))
  { s with frm := { s.frm with stepRun := false, overran := false } }

/-! ## Restarts (R378 to R381) -/

/-- A processor is frozen, reset, its data memory wiped and its image reloaded; if it is Crown the clamp takes over (R379). -/
def beginRestart (s : Device) (p : Proc) (fails : Nat) : Device :=
  let i := (procIdx p)
  let x := s.procs.get i
  let s := { s.setProc i { x with up := false, restarting := true, fails, activating := false, data := [] } with
    restarts := s.restarts + 1, lastProc := i }
  let s := (s.setBk 11 (s.bk 11 + 1)).setBk (12 + i.val) (s.bk (12 + i.val) + 1)
  if p = .crown then s.setCause 0 true else s

/-- A processor fails: its first failure restarts it; a second one says the restart failed and restarts it again;
a third enters HOLD. -/
def failProc (s : Device) (p : Proc) : Device :=
  match (s.procs.get (procIdx p)).fails with
  | 0 => (s.post 0x0501 1 (procUnit p) 0).beginRestart p 1
  | 1 => (s.post 0x0502 1 (procUnit p) 0).beginRestart p 2
  | _ =>
    let s := s.setProc (procIdx p) { (s.procs.get (procIdx p)) with up := false, restarting := false }
    s.enterHold (procUnit p) 2 HOLD_CODE 0x0502

/-- A watchdog that is not written, or another failure of a running processor (R378). -/
def processorFailure (s : Device) (p : Proc) : Device :=
  let x := s.procs.get (procIdx p)
  if s.cmd.dstate ≠ .hold ∧ (x.up ∨ x.activating) then s.failProc p else s

/-- 50 ms without ready: the restart has failed (R379, R381). -/
def restartTimeout (s : Device) (p : Proc) : Device :=
  if s.cmd.dstate ≠ .hold ∧ (s.procs.get (procIdx p)).restarting then s.failProc p else s

/-- The far memory events that waited for Bonnet are delivered, each once (R384). -/
def bonnetReturns (s : Device) : Device :=
  let xs := s.mem.bonnetHeld
  xs.foldl (fun s x => s.logFarEvent x.1 x.2) { s with mem := { s.mem with bonnetHeld := [] } }

/-- A processor reports ready, where its image verified: its outputs are released, and what waited for it goes on (R379, R380, R400). -/
def processorReady (s : Device) (p : Proc) (waits : Waits) : Device :=
  let x := s.procs.get (procIdx p)
  if s.cmd.dstate = .hold ∨ ¬ (x.restarting ∨ x.activating) ∨ s.images = [] then s
  else
    let s := s.setProc (procIdx p) { x with up := true, restarting := false, activating := false, readyUs := s.clockUs }
    match p with
    | .crown => s.setCause 0 false
    | .band => (s.setRoutes.declareLost s.listedPeers waits).bandReturns.publishLate
    | .peak => s.flushAll
    | .bonnet => ((s.mem.laneErrs.map (·.1)).foldl (fun s k => s.laneDecide (k / 72 / 32) (k / 72 % 32) (k % 72)) s).bonnetReturns

/-- A processor has stayed up for 1 s (R379). -/
def fwStable (s : Device) (p : Proc) : Device :=
  let x := s.procs.get (procIdx p)
  if x.up then s.setProc (procIdx p) { x with fails := 0 } else s

/-- Loss of REFCLK_SYS: REFCLK_LOST, then HOLD with the actions of R381, on holdover (R431, R438). -/
def refclkLost (s : Device) : Device :=
  let s := { s with holdover := some 0 }
  if s.cmd.dstate = .hold then s.post 0x0801 3 0x00C4 0 else s.enterHold 0x00C4 0 0x0801 0x0801

/-! ## Block resets (R366) -/

/-- Every copy of some registers returns to its reset value. -/
def resetRegs (s : Device) (offs : List Nat) : Device :=
  let keep {α : Type} (m : Sparse α) : Sparse α := m.keep fun k => !offs.contains k
  let keepBit {α : Type} (m : Sparse α) : Sparse α := m.keep fun k => !offs.contains (k / 32)
  { s with regs := { s.regs with
      live := keep s.regs.live, shadow := keep s.regs.shadow, pend := keep s.regs.pend, readSeq := keep s.regs.readSeq,
      sqSeq := keepBit s.regs.sqSeq, snap := keepBit s.regs.snap } }

/-- The registers of a block on a die. -/
def blockOffsets (b : Block) (d : Die) : List Nat := (blockRegs b).flatMap fun r => regOffsets r d

/-- A far access is outstanding (R366, target 0x8). -/
def farOutstanding (s : Device) : Bool := s.cmd.transfers.any fun t => t.far

/-- The block is idle as R366 defines; false also for a target or an index that names no block. -/
def blockIdle (s : Device) (target index : Nat) : Bool :=
  let x := s.die (Fin.ofNat 4 index)
  let die := decide (index < 4)
  match target with
  | 1 => die && x.mitts.all fun m => m.2.tiles == []
  | 2 => die && x.cuff.h0.state == .free && x.cuff.h1.state == .free
  | 3 => die && gntState x.gnt == 0 && x.gnt.queue == []
  | 4 => die && x.palm.run.isNone && x.palm.queue == []
  | 5 => die
  | 6 => die && x.checks == []
  | 7 => decide (index < 16)
  | 8 => decide (index < 2) && !s.farOutstanding
  | _ => false

/-- What a block reset clears. -/
def clearBlock (s : Device) (target index : Nat) : Device :=
  let d : Die := Fin.ofNat 4 index
  match target with
  | 1 => (s.onDie d fun x => { x with mitts := [] }).resetRegs (blockOffsets .mitt d)
  | 2 => (s.onDie d fun x => { x with cuff := {} }).resetRegs (blockOffsets .cuff d)
  | 3 => (s.onDie d fun x => { x with gnt := {}, scratch := [], solveOvf := false, solveInv := false }).resetRegs (blockOffsets .gnt d)
  | 4 => (s.onDie d fun x => { x with palm := {} }).resetRegs (blockOffsets .palm d)
  | 5 => s.resetRegs (blockOffsets .vec d)
  | 6 => (s.onDie d fun x => { x with checks := [] }).resetRegs (blockOffsets .vis d)
  | 7 => (s.portDown' index []).setPort index {} |>.resetRegs [R.FAB_PORT_STAT + 4 * index]
  | _ => s.resetRegs [R.MEM_FAR_CAP + 8 * index, R.MEM_FAR_STAT + 8 * index]

/-- A write of GLB_BLK_RST (R366): refused unless the device is READY and the block idle. -/
def blockReset (s : Device) (target index : Nat) : Device :=
  if s.cmd.dstate = .ready ∧ s.blockIdle target index then
    { s.clearBlock target index with blocks := s.blocks ++ [(target, index)] }
  else s.event R.GLB_RST_STAT_BLK_REFUSED

/-- The block is running again. -/
def blockDone (s : Device) (target index : Nat) : Device :=
  if s.blocks.contains (target, index) then
    ({ s with blocks := s.blocks.erase (target, index) }).event R.GLB_RST_STAT_BLK_DONE
  else s

end Device

/-- ERR_RETIRE (R375). -/
def execErrRetire (value : W32) (s : State) : Host.Outcome State Fault Refusal := onDev s fun v => v.errRetire value
/-- MITT_BLOCK_RESET (R366). -/
def execMittBlockReset (index : BitVec 4) (s : State) : Host.Outcome State Fault Refusal := onDev s fun v => v.blockReset 1 index.toNat
/-- CUFF_BLOCK_RESET (R366). -/
def execCuffBlockReset (index : BitVec 4) (s : State) : Host.Outcome State Fault Refusal := onDev s fun v => v.blockReset 2 index.toNat
/-- GAUNTLET_BLOCK_RESET (R366). -/
def execGauntletBlockReset (index : BitVec 4) (s : State) : Host.Outcome State Fault Refusal := onDev s fun v => v.blockReset 3 index.toNat
/-- PALM_BLOCK_RESET (R366). -/
def execPalmBlockReset (index : BitVec 4) (s : State) : Host.Outcome State Fault Refusal := onDev s fun v => v.blockReset 4 index.toNat
/-- VECTOR_BLOCK_RESET (R366). -/
def execVectorBlockReset (index : BitVec 4) (s : State) : Host.Outcome State Fault Refusal := onDev s fun v => v.blockReset 5 index.toNat
/-- VISOR_BLOCK_RESET (R366). -/
def execVisorBlockReset (index : BitVec 4) (s : State) : Host.Outcome State Fault Refusal := onDev s fun v => v.blockReset 6 index.toNat
/-- WASHA_PORT_RESET (R366). -/
def execWashaPortReset (index : BitVec 4) (s : State) : Host.Outcome State Fault Refusal := onDev s fun v => v.blockReset 7 index.toNat
/-- CXL_PORT_RESET (R366). -/
def execCxlPortReset (index : BitVec 4) (s : State) : Host.Outcome State Fault Refusal := onDev s fun v => v.blockReset 8 index.toNat
/-- BLOCK_RESET_DONE (R366). -/
def execBlockResetDone (target index : BitVec 4) (s : State) : Host.Outcome State Fault Refusal :=
  onDev s fun v => v.blockDone target.toNat index.toNat
/-- WATCHDOG_EXPIRY (R378). -/
def execWatchdogExpiry (p : Proc) (s : State) : Host.Outcome State Fault Refusal := onDev s fun v => v.processorFailure p
/-- PROCESSOR_FAILURE (R378). -/
def execProcessorFailure (p : Proc) (s : State) : Host.Outcome State Fault Refusal := onDev s fun v => v.processorFailure p
/-- RESTART_TIMEOUT (R381). -/
def execRestartTimeout (p : Proc) (s : State) : Host.Outcome State Fault Refusal := onDev s fun v => v.restartTimeout p
/-- FW_STABLE (R379). -/
def execFwStable (p : Proc) (s : State) : Host.Outcome State Fault Refusal := onDev s fun v => v.fwStable p
/-- REFCLK_LOST (R431): of a clock that runs. In a reset, which then takes no further effect, no core logic is there to hold. -/
def execRefclkLost (s : State) : Host.Outcome State Fault Refusal :=
  if ¬ s.refclk then .next s else onManagement { s with refclk := false } fun v => v.refclkLost

end Sys2Proof.Machine
end

