-- ==== Sys2Proof/Machine/Bus.lean ====
section
/-! DEFINITION. Register access from the host, from a job image and from the I3C target: the BAR0 map, access
widths, the indirect window and the I3C sideband (spec/12 R334 to R338, R353, R354; spec/14 R401, R402). -/

namespace Sys2Proof.Machine

/-! ## The indirect window (R353, R354) -/

namespace Device

/-- An unmapped access (R338). -/
def unmappedAccess (s : Device) (off : Nat) : Device :=
  ((s.event R.GLB_STAT_UNMAPPED).setFld R.GLB_UNMAPPED_OFFSET off).setFld R.GLB_UNMAPPED_CAUSE 0

/-- The Lining bytes that software may write: the user area and BK0 to BK7 (R368, R369). -/
def userLining (off : Nat) : Bool := (decide (0xC00 ≤ off) && decide (off < 0x1000)) || (decide (0x1000 ≤ off) && decide (off < 0x1020))

/-- The bytes of the error queue's slots (R370). -/
def slotBytes (s : Device) (i : Nat) : List Byte := match s.err.slot i with
  | some e => e.bytes
  | none => List.replicate 32 0

/-- A word of the processors' data memories, 256 KiB each: a processor that runs has written there what its firmware holds, a free value;
that of one that does not stays (R353, R379, R383; log entry 2). -/
def dataWord (s : Device) (off : Nat) : W32 × Device :=
  let i : Fin 4 := Fin.ofNat 4 (off / 0x40000)
  let p := s.procs.get i
  let a := off % 0x40000
  if p.up then
    let x := s.freeWord
    let v : W32 := x.1.setWidth 32
    (v, x.2.setProc i { p with data := p.data.writeLE a 4 v.toNat })
  else (BitVec.ofNat 32 (p.data.readLE a 4), s)

/-- The word of a space at a byte offset; none where the space refuses the read. -/
def windowRead (s : Device) (svc space off : Nat) : Option (W32 × Device) :=
  let word (n : Nat) : Option (W32 × Device) := some (BitVec.ofNat 32 n, s)
  if space = 0 ∧ off < 0x20000 then word (s.fab.peers.readLE off 4)
  else if space = 1 ∧ off < 0x1040 then word (s.lining.readLE off 4)
  else if space = 2 ∧ off < 0x800 then word (s.mem.log.readLE off 4)
  else if space = 3 ∧ off < 0x800 then word (field (s.slotBytes (off / 32)) (off % 32) 4)
  else if space = 4 ∧ off < 0x100000 ∧ (svc = 1 ∨ svc = 2) then some (s.dataWord off)
  else none

/-- A write of a space at a byte offset; none where the space refuses it. -/
def windowWrite (s : Device) (space off : Nat) (v : W32) : Option Device :=
  if space = 0 ∧ off < 0x20000 ∧ s.cmd.dstate = .ready then
    some (s.onFab fun f => { f with peers := f.peers.writeLE off 4 v.toNat })
  else if space = 1 ∧ userLining off then some (s.setLining off (leBytes 4 v.toNat))
  else none

def indSpace (s : Device) : Nat := s.fld R.IND_ADDR_SPACE
def indOff (s : Device) : Nat := s.fld R.IND_ADDR_OFFSET * 4

/-- After a completed data access the offset advances by STRIDE words, with AINC (R354). -/
def indAdvance (s : Device) : Device :=
  if s.flag R.IND_CTL_AINC then s.setFld R.IND_ADDR_OFFSET (s.fld R.IND_ADDR_OFFSET + s.fld R.IND_CTL_STRIDE) else s

def indRead (s : Device) (svc : Nat) : W32 × Device := match s.windowRead svc s.indSpace s.indOff with
  | some (v, t) => (v, t.indAdvance)
  | none => (0, s.setFld R.IND_STAT_SPACE_ERR 1)

def indWrite (s : Device) (v : W32) : Device := match s.windowWrite s.indSpace s.indOff v with
  | some t => t.indAdvance
  | none => s.setFld R.IND_STAT_SPACE_ERR 1

/-- A write of IND_ADDR also clears IND_STAT. -/
def indAddrWrite (s : Device) (svc : Nat) (v : W32) : Device :=
  ((s.writeFields svc R.IND_ADDR v).setFld R.IND_STAT_TIMEOUT 0).setFld R.IND_STAT_SPACE_ERR 0

/-! ## Writes of 32 bits -/

/-- A write that reaches a register: those with an effect of their own, status registers, and the rest. -/
def regWrite (s : Device) (svc off : Nat) (v : W32) : Device :=
  let r : Fin 4 := Fin.ofNat 4 ((off - 0x100000) / 0x40)
  let db : Fin 4 := Fin.ofNat 4 ((off - R.CMD_DB) / 0x1000)
  if off = R.GLB_COMMIT then (s.writeReserved svc off v).commitWrite v
  else if off = R.GLB_ERR_RETIRE then s.errRetire v
  else if off = R.GLB_BLK_RST then (s.writeReserved svc off v).blockReset (bitsOf v.toNat 3 0) (bitsOf v.toNat 7 4)
  else if off = R.GLB_ERR_CTL then s.alerting fun s => s.writeFields svc off v
  else if off = R.IND_ADDR then s.indAddrWrite svc v
  else if off = R.IND_DATA then s.indWrite v
  else if off = R.CMD_DB + 0x1000 * db.val then (s.writeReserved svc off v).doorbell db v
  else if off = R.CMD_RCTL + 0x40 * r.val then s.rctlWrite svc r v
  else if off = R.CMD_SHEAD + 0x40 * r.val then s.sheadWrite svc r v
  else if isStatus off then s.statusWrite svc off v
  else s.writeFields svc off v

/-- The BRIM sub-block holds registers in test mode only (R335). -/
def brimMapped (svc off : Nat) : Bool := svc == 2 && (match blockOf off with | some (.brim, _) => decide (off % 0x100000 < 0x80000) | _ => false)

/-- A 32-bit write at a BAR0 offset; the mirror and every unmapped address take none (R336, R338). What a write does to a register of the
BRIM sub-block in test mode is not stated: it does nothing (R335; log entry 8). -/
def busWrite (s : Device) (svc off : Nat) (v : W32) : Device :=
  if (regAt off).isSome then s.regWrite svc off v
  else if brimMapped svc off then s
  else s.unmappedAccess off

end Device

/-! ## Reads of 32 bits -/

/-- A read that reaches a register: a latched _HI word, the window's data, or the register's value, with the
effects of a _LO read and of a status read (R337, R347, R349). -/
def State.regRead (t : State) (off : Nat) (mirror : Bool) : W32 × State :=
  let s := t.dev
  if off = R.IND_DATA then let x := s.indRead t.svc; (x.1, { t with dev := x.2 })
  else if Device.counterLo (off - 4) ∧ (Sparse.get none (off - 4) s.regs.hiLatch).isSome then
    ((Sparse.get none (off - 4) s.regs.hiLatch).getD 0, t.onDevice fun s => s.latch (off - 4) none)
  else
    let v := t.regValue off mirror
    let t := if Device.counterLo off then t.onDevice fun s => s.latch off (some (t.regValue (off + 4) mirror)) else t
    (v, if Device.isStatus off then t.onDevice fun s => s.statusEffect t.svc off else t)

/-- A 32-bit read at a BAR0 offset (R336, R338). -/
def State.busRead (t : State) (off : Nat) : W32 × State :=
  let mirror := decide (off % 0x100000 ≥ 0x80000)
  let reg := if mirror then off - 0x80000 else off
  if (regAt reg).isSome then t.regRead reg mirror
  else if Device.brimMapped t.svc reg then (Config.brimTest reg, t)
  else (0, t.onDevice fun s => s.unmappedAccess off)

/-- Whether an access at an offset finds a register: a read also in the mirror. -/
def State.mapped (t : State) (off : Nat) (write : Bool) : Bool :=
  let reg := if !write && decide (off % 0x100000 ≥ 0x80000) then off - 0x80000 else off
  (regAt reg).isSome || Device.brimMapped t.svc reg

/-- The data of a read completion. -/
def State.complete (t : State) (v : W64) : State := t.onDevice fun s => { s with regs := { s.regs with readData := v } }

/-- A read of some width: two registers, the lower first; one register; or bytes of the aligned one (R337). -/
def State.hostRead (t : State) (off : Nat) (w : Width) : State :=
  match w with
  | .b64 =>
    let o := off / 8 * 8
    let x := t.busRead o
    let y := x.2.busRead (o + 4)
    y.2.complete (BitVec.ofNat 64 (x.1.toNat + y.1.toNat * 2 ^ 32))
  | .b32 => let x := t.busRead (off / 4 * 4); x.2.complete (x.1.setWidth 64)
  | .b16 => let x := t.busRead (off / 4 * 4); x.2.complete (BitVec.ofNat 64 (x.1.toNat / 2 ^ (off / 2 * 2 % 4 * 8) % 2 ^ 16))
  | .b8 => let x := t.busRead (off / 4 * 4); x.2.complete (BitVec.ofNat 64 (x.1.toNat / 2 ^ (off % 4 * 8) % 2 ^ 8))

/-- A write of some width; one narrower than 32 bits is discarded, and recorded wherever it falls (R337). -/
def State.hostWrite (t : State) (off : Nat) (w : Width) (v : W64) : State :=
  match w with
  | .b64 =>
    let o := off / 8 * 8
    let t := t.onDevice fun s => s.busWrite t.svc o (v.setWidth 32)
    t.onDevice fun s => s.busWrite t.svc (o + 4) (BitVec.ofNat 32 (v.toNat / 2 ^ 32))
  | .b32 => t.onDevice fun s => s.busWrite t.svc (off / 4 * 4) (v.setWidth 32)
  | _ => t.onDevice fun s =>
    let s := s.event R.GLB_STAT_WIDTH_ERR
    if t.mapped (off / 4 * 4) true then s else s.unmappedAccess (off / 4 * 4)

/-- A bus access of the host, while the core logic runs. -/
def onBus (s : State) (f : State → State) : Host.Outcome State Fault Refusal := if s.dev.halted then .next s else .next (f s)

/-! ## The I3C target (R401, R402) -/

/-- EXTEST, CLAMP or HIGHZ holds the pins (R436). -/
def Tap.holds (t : Tap) : Bool := t.ir == 0x00 || t.ir == 0x04 || t.ir == 0x08

/-- The I3C target has its bus or not, as the TAP's current instruction says (R436). -/
def State.busHeld (t : State) : State := { t with dev := { t.dev with offBus := t.tap.holds } }

/-- The I3C target has its bus, and is up: it comes up behind the processors of a release and needs no core clock (R363, R401, R431,
R436). -/
def onI3c (s : State) (f : State → State) : Host.Outcome State Fault Refusal :=
  if s.tap.holds ∨ s.dev.inReset ∨ s.dev.booting then .next s else .next (f s)

def State.onI3c (t : State) (f : I3c → I3c) : State := t.onDevice fun s => { s with i3c := f s.i3c }

/-- A common command code that the target takes: it is not answered with NACK (R401). -/
def onCcc (s : State) (f : State → State) : Host.Outcome State Fault Refusal :=
  onI3c s fun t => f (t.onI3c fun i => { i with nack := false })

/-- The BAR0 offsets the target reads: GLB, FRM, CMD_STAT, MEM_STACKk and PWR. -/
def i3cReach (off : Nat) : Bool :=
  match blockOf off with
  | some (.glb, _) | some (.frm, _) | some (.pwr, _) => true
  | some (.cmd, _) => off == R.CMD_STAT
  | some (.mem, _) => decide (R.MEM_STACK ≤ off) && decide (off < R.MEM_STACK + 32)
  | _ => false

/-- An access the target has no reach for. -/
def State.i3cError (t : State) : State := t.onI3c fun i => { i with err := true }

/-- A data read through the target's own pair. -/
def State.i3cData (t : State) : W32 × State :=
  let a := t.dev.i3c.addr.toNat
  let off := a % 2 ^ 28 / 4 * 4
  let x : W32 × State := match a / 2 ^ 28 with
    | 0 => if i3cReach off then t.busRead off else (0, t.i3cError)
    | 1 | 3 => (match t.dev.windowRead t.svc (a / 2 ^ 28) off with
      | some (v, s) => (v, { t with dev := s })
      | none => (0, t.i3cError))
    | _ => (0, t.i3cError)
  (x.1, x.2.onI3c fun i => { i with addr := i.addr + 4 })

/-- A data write through the target's own pair: the PWR block, and the writable Lining. -/
def State.i3cWrite (t : State) (v : W32) : State :=
  let a := t.dev.i3c.addr.toNat
  let off := a % 2 ^ 28 / 4 * 4
  let t : State := match a / 2 ^ 28 with
    | 0 => (match blockOf off with
      | some (.pwr, _) => t.onDevice fun s => s.busWrite t.svc off v
      | _ => t.i3cError)
    | 1 => (match t.dev.windowWrite 1 off v with
      | some s => { t with dev := s }
      | none => t.i3cError)
    | _ => t.i3cError
  t.onI3c fun i => { i with addr := i.addr + 4 }

/-- REGISTER_WRITE (R345). -/
def execRegisterWrite (off : Nat) (w : Width) (value : W64) (s : State) : Host.Outcome State Fault Refusal :=
  onBus s fun t => t.hostWrite off w value
/-- UNMAPPED_ACCESS (R338): every word of the access is unmapped, or the command is not due. A narrow write sets WIDTH_ERR wherever it
falls (R337). -/
def execUnmappedAccess (off : Nat) (write : Bool) (w : Width) (s : State) : Host.Outcome State Fault Refusal :=
  onBus s fun t =>
    let ws := if w = .b64 then [off / 8 * 8, off / 8 * 8 + 4] else [off / 4 * 4]
    if ws.any fun o => t.mapped o write then t
    else
      let narrow := decide (w = .b8 ∨ w = .b16)
      let t := t.onDevice fun v => ws.foldl (fun v o => v.unmappedAccess o) (if write ∧ narrow then v.event R.GLB_STAT_WIDTH_ERR else v)
      if write then t else t.complete 0
/-- STATUS_READ (R347): a read of any register. -/
def execStatusRead (off : Nat) (w : Width) (s : State) : Host.Outcome State Fault Refusal := onBus s fun t => t.hostRead off w
/-- STATUS_WRITE_BACK (R347). -/
def execStatusWriteBack (off : Nat) (value : W32) (s : State) : Host.Outcome State Fault Refusal :=
  onBus s fun t => t.onDevice fun v => v.busWrite t.svc (off / 4 * 4) value
/-- COUNTER_LO_READ (R337). -/
def execCounterLoRead (off : Nat) (s : State) : Host.Outcome State Fault Refusal := onBus s fun t => t.hostRead off .b32
/-- IND_ADDR_WRITE (R354). -/
def execIndAddrWrite (value : W32) (s : State) : Host.Outcome State Fault Refusal := onDev s fun v => v.indAddrWrite s.svc value
/-- IND_DATA_READ (R354). -/
def execIndDataRead (s : State) : Host.Outcome State Fault Refusal := onBus s fun t => t.hostRead R.IND_DATA .b32
/-- IND_DATA_WRITE (R354). -/
def execIndDataWrite (value : W32) (s : State) : Host.Outcome State Fault Refusal := onDev s fun v => v.indWrite value
/-- IND_TIMEOUT (R354): a read returns all ones, a write is discarded. -/
def execIndTimeout (write : Bool) (s : State) : Host.Outcome State Fault Refusal :=
  onBus s fun t =>
    let t := t.onDevice fun v => v.setFld R.IND_STAT_TIMEOUT 1
    if write then t else t.complete 0xFFFFFFFF

/-- What I3C_ADDR takes of a write: it has the layout of IND_ADDR, whose bits [1:0] are reserved (R352, R358, R402). -/
def i3cAddr (svc : Nat) (old v : W32) : W32 := if svc = 2 then v else v - v % 4 + old % 4

/-- I3C_PRIVATE_WRITE (R402): an index byte, then four bytes or none. I3C_ADDR has no BAR0 offset to record. -/
def execI3cPrivateWrite (index : Byte) (data : Option W32) (s : State) : Host.Outcome State Fault Refusal :=
  onI3c s fun t =>
    let t := t.onI3c fun i => { i with index }
    match data, index.toNat with
    | some v, 0 => t.onI3c fun i => { i with addr := i3cAddr t.svc i.addr v, err := false }
    | some v, 1 => t.i3cWrite v
    | _, _ => t
/-- I3C_PRIVATE_READ (R402): the register the last index named. -/
def execI3cPrivateRead (s : State) : Host.Outcome State Fault Refusal :=
  onI3c s fun t => match t.dev.i3c.index.toNat with
    | 0 => t.complete (t.dev.i3c.addr.setWidth 64)
    | 1 => let x := t.i3cData; x.2.complete (x.1.setWidth 64)
    | 2 => t.complete (BitVec.ofNat 64 (b2n t.dev.i3c.err))
    | _ => t.complete 0
/-- ENTDAA (R401): a target without a dynamic address takes one. -/
def execEntdaa (addr : BitVec 7) (s : State) : Host.Outcome State Fault Refusal :=
  onCcc s fun t => t.onI3c fun i => { i with dyn := some (i.dyn.getD addr) }
/-- SETDASA (R401), from the static address 0x4C. -/
def execSetdasa (static addr : BitVec 7) (s : State) : Host.Outcome State Fault Refusal :=
  onCcc s fun t => if static = 0x4C then t.onI3c fun i => { i with dyn := some (i.dyn.getD addr) } else t
/-- SETNEWDA (R401). -/
def execSetnewda (addr : BitVec 7) (s : State) : Host.Outcome State Fault Refusal :=
  onCcc s fun t => t.onI3c fun i => { i with dyn := i.dyn.map fun _ => addr }
/-- RSTDAA (R401). -/
def execRstdaa (s : State) : Host.Outcome State Fault Refusal := onCcc s fun t => t.onI3c fun i => { i with dyn := none }
/-- GETPID (R401). -/
def execGetpid (s : State) : Host.Outcome State Fault Refusal := onCcc s fun t => t.complete (Config.i3cPid.setWidth 64)
/-- GETBCR (R401). -/
def execGetbcr (s : State) : Host.Outcome State Fault Refusal := onCcc s fun t => t.complete (Config.i3cBcr.setWidth 64)
/-- GETDCR (R401). -/
def execGetdcr (s : State) : Host.Outcome State Fault Refusal := onCcc s fun t => t.complete (Config.i3cDcr.setWidth 64)
/-- GETSTATUS (R401). -/
def execGetstatus (s : State) : Host.Outcome State Fault Refusal :=
  onCcc s fun t => t.complete ((Config.i3cStatus (t.dev.alert && t.dev.i3c.ibiOn)).setWidth 64)
/-- GETMWL (R401). -/
def execGetmwl (s : State) : Host.Outcome State Fault Refusal := onCcc s fun t => t.complete (t.dev.i3c.mwl.setWidth 64)
/-- GETMRL (R401). -/
def execGetmrl (s : State) : Host.Outcome State Fault Refusal := onCcc s fun t => t.complete (t.dev.i3c.mrl.setWidth 64)
/-- SETMWL (R401). -/
def execSetmwl (n : W16) (s : State) : Host.Outcome State Fault Refusal := onCcc s fun t => t.onI3c fun i => { i with mwl := n }
/-- SETMRL (R401). -/
def execSetmrl (n : W16) (s : State) : Host.Outcome State Fault Refusal := onCcc s fun t => t.onI3c fun i => { i with mrl := n }
/-- ENEC (R401): bit 0 enables the in-band interrupt. -/
def execEnec (events : Byte) (s : State) : Host.Outcome State Fault Refusal :=
  onCcc s fun t => t.onI3c fun i => { i with ibiOn := i.ibiOn || events.getLsbD 0 }
/-- DISEC (R401). -/
def execDisec (events : Byte) (s : State) : Host.Outcome State Fault Refusal :=
  onCcc s fun t => t.onI3c fun i => { i with ibiOn := i.ibiOn && !events.getLsbD 0 }
/-- RSTACT (R401): action 0x00, no reset, changes nothing; every other action is answered with NACK. -/
def execRstact (action : Byte) (s : State) : Host.Outcome State Fault Refusal :=
  onCcc s fun t => t.onI3c fun i => { i with nack := decide (action ≠ 0) }

end Sys2Proof.Machine
end

