-- ==== Sys2Proof/Machine/Engines.lean ====
section
/-! DEFINITION. The vector engines issue in order: a PRUN that waits for its fence or for an entry of the Palm queue holds the
instructions of its engine behind it; and the events that let them go on: a drain, the start of a run (spec/07 R199; spec/03 R90; spec/05
R146, R150; spec/10 R289). -/

namespace Sys2Proof.Machine

namespace Device

/-! ## In-order issue (R199) -/

/-- JEND, on CD0 alone. It takes effect at the first tick after its step has ended. -/
def jend (s : Device) (d : Die) (iaddr : W64) (c : JendCode) : Device :=
  if d ≠ 0 then s.postIllegal (vecUnit d) iaddr
  else s.onJob fun j => if j.jend.isSome then j else { j with jend := some c }

/-- What waits can go on: a PRUN once its fence is clear and the queue has an entry, any other instruction at once. -/
def heldReady (s : Device) (d : Die) (h : HeldIssue) : Bool := match h.op with
  | .prun l => s.fenceClear d h.engine l && decide ((s.palm d).queue.length < 64)
  | _ => true

/-- The effect of an instruction of an engine once its turn has come. -/
def perform (s : Device) (i : Issuer) : EngineOp → Device
  | .mma x => s.mma i.die x
  | .mmaFx x => s.mmaFx i.die x
  | .mdrain lm tile => s.mdrain i.die i.iaddr lm.val tile.toNat
  | .vcvt x => s.reading x.src fun v => v.vcvt i.die x
  | .vcvtB x => s.reading x.src fun v => v.vcvtB i.die x
  | .vcvtU x => s.reading x.src fun v => v.vcvtU i.die x
  | .vsplitF x p1 p2 => s.vsplitF i.die x p1 p2
  | .vsplitI x p1 p2 => s.vsplitI i.die x p1 p2
  | .vnarrowQ x => s.vnarrowQ i.die x
  | .vmax x y => s.vmaxMin i.die x y Val.max2
  | .vmin x y => s.vmaxMin i.die x y Val.min2
  | .streamAdd out stream => s.streamAdd i.die i.iaddr out stream
  | .hpush x => s.hpush i.die x
  | .hpop x => s.hpop i.die x
  | .applyF fder fparam src dst side => s.applyF i.die i.iaddr fder.toNat fparam src dst side
  | .gsolve index => s.gsolve i.die index.toNat
  | .prun l => s.appendRun i.die l
  | .runpack index dst form => s.runpack i.die i.iaddr index.toNat dst form.toNat
  | .jend c => s.jend i.die i.iaddr c
  | .jstat => s.onDie i.die fun x => { x with jstat := s.cmd.yieldSeen }
  | .mgopen gid => (s.openGroup i.die gid.toNat none s.frm.step).1
  | .madd target key epoch src line0 endMark => s.maddAny i.die i.iaddr target.gid.toNat key.toNat epoch src line0 endMark target.shard
  | .mskip gid key epoch => s.skip i.die gid.toNat key.toNat epoch

/-- The first of each engine's waiting instructions goes on, one after the other, as fences clear and entries free, while the die issues
(R199, R386). -/
def admitRuns (d : Die) : Nat → Device → Device
  | 0, s => s
  | n + 1, s =>
    let hs := (s.palm d).held
    match hs.zipIdx.find? fun h => (hs.take h.2).all (fun g => g.engine != h.1.engine) && s.heldReady d h.1 with
    | some h => admitRuns d n ((s.onPalm d fun p => { p with held := p.held.eraseIdx h.2 }).perform h.1.by_ h.1.op)
    | none => s

/-- Every instruction that waits and can go on does. -/
def letIn (s : Device) (d : Die) : Device := if s.issues d then admitRuns d (s.palm d).held.length s else s

/-- An instruction of an engine takes its place behind what that engine waits for. -/
def issueBehind (s : Device) (d : Die) (h : HeldIssue) : Device :=
  (s.onPalm d fun p => { p with held := p.held ++ [h] }).letIn d

/-- An instruction of an engine: at once, unless the engine waits at a PRUN. -/
def issueInOrder (s : Device) (i : Issuer) (op : EngineOp) : Device :=
  if (s.palm i.die).held.any fun g => g.engine == i.engine then s.issueBehind i.die ⟨i, op⟩ else s.perform i op

/-- PRUN (R199). -/
def prun (s : Device) (i : Issuer) (layer : Nat) : Device :=
  if (s.palm i.die).seen.any (· == layer) then s.event (R.PALM_STAT_DUP_RUN.die i.die)
  else (s.onPalm i.die fun p => { p with seen := p.seen ++ [layer] }).issueBehind i.die ⟨i, .prun layer⟩

/-! ## Events that let instructions go on -/

/-- PALM_RUN_START (R199, R201): the next run starts once its shard's export has read the one before (R197), under
a PALM commit that is pending (R214). A shard whose group completed with no key applied has no run (R279). The entry it leaves is free for
a PRUN that waits. -/
def palmStart (s : Device) (d : Die) : Device :=
  let s := if (s.palm d).run.isNone then s.applyUnit 5 d 0 else s
  let s := s.letIn d
  match (s.palm d).run, (s.palm d).queue with
  | none, l :: rest =>
    let shard := s.ownedShard l d
    if ¬ s.flag (R.PALM_CTL_EN.die d) ∨ s.fab.exportDue.any (fun e => shard == some e) then s
    else
      let u := s.updateDesc d l
      let words := (List.range (u.pro + u.body + u.epi)).map fun i => s.near (u.prog + 8 * i) 8
      let units := (s.palm d).regs.map fun z => ({ sets := z } : PalmUnit)
      let r : PalmRun := { layer := l, step := s.frm.step, desc := u, words := words, units := units }
      let s := (s.onPalm d fun p => { p with queue := rest }).letIn d
      if (s.fab.copyDue ++ s.fab.copied).any (fun e => shard == some e) then s
      else if s.frozenRun d r then s.postIllegal (palmUnit d) (BitVec.ofNat 64 u.prog)
      else if ¬ r.accepted then (s.event (R.PALM_STAT_PROG_ERR.die d)).post 0x0206 2 (palmUnit d) (BitVec.ofNat 64 l)
      else s.accessing (palmUnit d) (runRanges d u) fun s =>
        let s := s.onPalm d fun p => { p with run := some r, cur := l }
        match shard with
        | some e => s.breakPins e s.frm.step
        | none => s
  | _, _ => s

/-- TILE_DRAIN, and the PRUNs whose fence it clears. -/
def drainAndLetIn (s : Device) (d : Die) (m : Nat) : Device := (s.tileDrain d m).letIn d

end Device

/-- An instruction of a vector engine, where its die issues (R199, R386). -/
def issueOp (s : State) (i : Issuer) (op : EngineOp) : Host.Outcome State Fault Refusal :=
  issue s i.die fun v => v.issueInOrder i op

/-- The issuer of an instruction that carries its engine and its address. -/
def byEngine (d : Die) (e : Engine) (a : W64) : Issuer := { die := d, engine := e, iaddr := a }

/-- MMA (R84, R199). -/
def execMma (d : Die) (x : Mma) (s : State) : Host.Outcome State Fault Refusal := issueOp s (byEngine d x.engine x.iaddr) (.mma x)
/-- MMA_FX (R102): one of a job program comes from a vector engine, the others from the Gauntlet (R83). -/
def execMmaFx (d : Die) (x : MmaFx) (s : State) : Host.Outcome State Fault Refusal :=
  if x.byProgram then issueOp s (byEngine d x.engine x.iaddr) (.mmaFx x) else issue s d fun v => v.mmaFx d x
/-- MDRAIN (R91). -/
def execMdrain (d : Die) (pc : EnginePc) (lm : Lm) (tile : BitVec 2) (s : State) : Host.Outcome State Fault Refusal :=
  issueOp s (byEngine d pc.engine pc.iaddr) (.mdrain lm tile)
/-- VCVT (R57). A source that is a weight of a peer is fetched first (R282). -/
def execVcvt (d : Die) (x : Vec) (s : State) : Host.Outcome State Fault Refusal := issueOp s (byEngine d x.engine x.iaddr) (.vcvt x)
/-- VCVT_B (R57). -/
def execVcvtB (d : Die) (x : Vec) (s : State) : Host.Outcome State Fault Refusal := issueOp s (byEngine d x.engine x.iaddr) (.vcvtB x)
/-- VCVT_U (R57). -/
def execVcvtU (d : Die) (x : Vec) (s : State) : Host.Outcome State Fault Refusal := issueOp s (byEngine d x.engine x.iaddr) (.vcvtU x)
/-- VSPLIT_F (R59). -/
def execVsplitF (d : Die) (x : Vec) (p1 p2 : TDesc) (s : State) : Host.Outcome State Fault Refusal :=
  issueOp s (byEngine d x.engine x.iaddr) (.vsplitF x p1 p2)
/-- VSPLIT_I (R62). -/
def execVsplitI (d : Die) (x : Vec) (p1 p2 : TDesc) (s : State) : Host.Outcome State Fault Refusal :=
  issueOp s (byEngine d x.engine x.iaddr) (.vsplitI x p1 p2)
/-- VNARROW_Q (R61). -/
def execVnarrowQ (d : Die) (x : Vec) (s : State) : Host.Outcome State Fault Refusal := issueOp s (byEngine d x.engine x.iaddr) (.vnarrowQ x)
/-- VMAX (R56). -/
def execVmax (d : Die) (x : Vec) (src2 : TDesc) (s : State) : Host.Outcome State Fault Refusal :=
  issueOp s (byEngine d x.engine x.iaddr) (.vmax x src2)
/-- VMIN (R56). -/
def execVmin (d : Die) (x : Vec) (src2 : TDesc) (s : State) : Host.Outcome State Fault Refusal :=
  issueOp s (byEngine d x.engine x.iaddr) (.vmin x src2)
/-- VECTOR_FP32_ADD (R136, R137). -/
def execVectorFp32Add (i : Issuer) (out stream : TDesc) (s : State) : Host.Outcome State Fault Refusal :=
  issueOp s i (.streamAdd out stream)
/-- HPUSH (R127). -/
def execHpush (d : Die) (x : HPush) (s : State) : Host.Outcome State Fault Refusal := issueOp s (byEngine d x.engine x.iaddr) (.hpush x)
/-- HPOP (R129). -/
def execHpop (d : Die) (x : HPop) (s : State) : Host.Outcome State Fault Refusal := issueOp s (byEngine d x.engine x.iaddr) (.hpop x)
/-- APPLY_F (R116). -/
def execApplyF (d : Die) (pc : EnginePc) (fder : BitVec 4) (fparam : W16) (src dst side : TDesc) (s : State) : Host.Outcome State Fault Refusal :=
  issueOp s (byEngine d pc.engine pc.iaddr) (.applyF fder fparam src dst side)
/-- GSOLVE (R164). -/
def execGsolve (i : Issuer) (index : W16) (s : State) : Host.Outcome State Fault Refusal := issueOp s i (.gsolve index)
/-- PRUN (R199). -/
def execPrun (i : Issuer) (layer : BitVec 14) (s : State) : Host.Outcome State Fault Refusal := issue s i.die fun v => v.prun i layer.toNat
/-- RUNPACK (R213). -/
def execRunpack (i : Issuer) (index : W16) (dst : TDesc) (form : BitVec 2) (s : State) : Host.Outcome State Fault Refusal :=
  issueOp s i (.runpack index dst form)
/-- JEND DONE (R323). -/
def execJendDone (d : Die) (pc : EnginePc) (s : State) : Host.Outcome State Fault Refusal := issueOp s (byEngine d pc.engine pc.iaddr) (.jend .done)
/-- JEND RELEASE (R332). -/
def execJendRelease (d : Die) (pc : EnginePc) (s : State) : Host.Outcome State Fault Refusal := issueOp s (byEngine d pc.engine pc.iaddr) (.jend .release)
/-- JSTAT (R331). -/
def execJstat (i : Issuer) (s : State) : Host.Outcome State Fault Refusal := issueOp s i .jstat
/-- MGOPEN (R246). -/
def execMgopen (i : Issuer) (gid : BitVec 12) (s : State) : Host.Outcome State Fault Refusal := issueOp s i (.mgopen gid)
/-- MADD (R247). -/
def execMadd (i : Issuer) (target : MaddTarget) (key : W16) (epoch : Byte) (src : TDesc) (line0 : Nat) (endMark : Bool) (s : State) : Host.Outcome State Fault Refusal :=
  issueOp s i (.madd target key epoch src line0 endMark)
/-- MSKIP (R250). -/
def execMskip (i : Issuer) (gid : BitVec 12) (key : W16) (epoch : Byte) (s : State) : Host.Outcome State Fault Refusal :=
  issueOp s i (.mskip gid key epoch)
/-- TILE_DRAIN (R90). -/
def execTileDrain (d : Die) (lm : Lm) (s : State) : Host.Outcome State Fault Refusal := onDev s fun v => v.drainAndLetIn d lm.val
/-- TAP_TILE_DRAIN (R150): with the tap rows out, an END that waited for them goes out too (R289). -/
def execTapTileDrain (d : Die) (lm : Lm) (s : State) : Host.Outcome State Fault Refusal :=
  onDev s fun v => (v.tapDrain d lm.val).sendEnds
/-- ROW_STORE_HALF_FREE (R146, R289). -/
def execRowStoreHalfFree (d : Die) (s : State) : Host.Outcome State Fault Refusal := onDev s fun v => (v.halfFree d).sendEnds
/-- PALM_RUN_START (R201). -/
def execPalmRunStart (d : Die) (s : State) : Host.Outcome State Fault Refusal := issue s d fun v => v.palmStart d

end Sys2Proof.Machine
end

