-- ==== Sys2Proof/Machine/Wipe.lean ====
section
/-! DEFINITION. The wipe, and what the end of a job clears (spec/09 R262, R263; spec/11 R321). A wipe's zeros are written
when it begins; WIPING lasts until WIPE_COMPLETE. -/

namespace Sys2Proof.Machine

namespace Device

def wiping (s : Device) : Bool := s.flag R.MEM_STAT_WIPING
/-- A wipe begins, of far memory whole or of some areas of it; a port that is down is wiped once it has retrained (R262). -/
def beginWipe (s : Device) (areas : Option (List (Nat × Nat))) : Device :=
  let down := ((List.range 2).filter s.portDown).map fun p => ({ port := p, areas, ilv := s.mem.ilv } : Unwiped)
  let s := { s with mem := { s.mem with unwiped := s.mem.unwiped ++ down.filter fun u => !s.mem.unwiped.contains u } }
  s.setFld R.MEM_STAT_WIPING 1

/-- Tile memory and Gauntlet scratch of every die. -/
def wipeDies (s : Device) : Device := { s with dies := s.dies.map fun d => { d with tile := [], scratch := [] } }

/-- The bytes of far memory that a port which is down keeps from a wipe. -/
def unreached (s : Device) (k : Nat) : Bool := decide (k < 2 ^ 43) && s.portDown (k / 2 ^ 42)
/-- Near memory and far memory, whole: at a reset, at a lifecycle change, and as a set-change wipe (R262, R321). -/
def wipeWhole (s : Device) : Device := { s with mem := { s.mem with near := [], far := s.mem.far.keep s.unreached } }
/-- A set-change wipe: no set is retained until it has ended (R321, R322, R324). -/
def wipeSet (s : Device) : Device := (s.onCmd fun c => { c with retained := 0 }).wipeWhole.beginWipe none

/-- A die's near regions that R262 wipes between jobs: its Hatbox regions, staging area and group table. -/
def jobRegions (s : Device) (d : Die) : List (Nat × Nat) :=
  (List.range 8).map (fun k => (s.regionBase d k, s.fld (regionFld R.HBX_SIZE_UNITS d k) * 4096)) ++
    [(s.fld (R.MEM_STAGE_BASE_UNITS.nth d.val) * 4096, s.fld (R.MEM_STAGE_SIZE_UNITS.nth d.val) * 4096),
     (s.fld (R.MEM_GRP_BASE_UNITS.nth d.val) * 4096, 4096 * 64)]

/-- A die's Hatbox spill area. -/
def spillArea (s : Device) (d : Die) : Nat × Nat :=
  (s.fld (R.HBX_SPILL_BASE_UNITS.die d) * 4096, s.fld (R.HBX_SPILL_SIZE_UNITS.die d) * 4096)

def clearRange (m : Memory) (r : Nat × Nat) : Memory := m.clear r.1 r.2

/-- The between-job wipe (R262, R324). -/
def wipeBetween (s : Device) : Device :=
  let ds : List Die := [0, 1, 2, 3]
  let spill := ds.map s.spillArea
  let s := s.wipeDies
  let s := s.setMemory .near ((ds.flatMap s.jobRegions).foldl clearRange s.mem.near)
  let s := { s with mem := { s.mem with far := s.mem.far.keep fun k => s.unreached k || !inAreas s.mem.ilv spill k } }
  s.beginWipe (some spill)

/-- What a job leaves in the units is gone: every tile has drained, and the fabric keeps its ports, its peers and the
layout epoch. -/
def clearJob (s : Device) : Device :=
  let clear (d : DieState) : DieState :=
    { d with cuff := {}, hbx := [], gnt := {}, adders := {}, jstat := false, palm := { d.palm with seen := [] } }
  let s := { s with dies := s.dies.map clear }
  let s := s.onFab fun f => { sent := f.sent, ports := f.ports, links := f.links, peers := f.peers, epoch := f.epoch, lostTicks := f.lostTicks }
  let s := s.onCmd fun c => { c with admitted := [], yieldSeen := false, leaves := [], yieldPend := [] }
  { s with frm := { s.frm with stepRun := false, overran := false, histClears := [] } }

/-! ## MEM_WRITE and MEM_READ (R330) -/

/-- Transfers wait for a wipe, and while the device is in STARTING or ENDING. -/
def mayMove (s : Device) : Bool := !s.wiping && s.cmd.dstate != .starting && s.cmd.dstate != .ending

/-- How many bytes of a transfer move: up to the first address that cannot be accessed, and of a read up to the burst
whose check code finds an error. -/
def transferLength (s : Device) (t : Transfer) : Nat :=
  let refused := (List.range t.len).find? fun i => s.unmapped t.far (t.dev + i) || s.downFar t.far (t.dev + i)
  let bad := !t.write && (t.outcome == .uncorrectable || (t.far && t.outcome == .poison))
  min (refused.getD t.len) (if bad then t.good else t.len)

/-- A transfer runs, and is answered with the bytes moved. -/
def move (s : Device) (t : Transfer) : Device :=
  let sp : Space := if t.far then .far else .near
  let n := s.transferLength t
  let s := if t.write then s.writeBytes sp t.dev (t.data.take n) else s.setHost t.host (s.readBytes sp t.dev n)
  if n < t.len then (s.burstRead t.far (t.dev + n) t.outcome .host).reply t.ref MEM_ERROR n
  else
    let s := match t.write, t.outcome with
      | false, .corrected _ => if t.good < t.len then s.burstRead t.far (t.dev + t.good) t.outcome .host else s
      | _, _ => s
    s.reply t.ref OK n

/-- What waited moves, where it may. -/
def runTransfers (s : Device) : Device :=
  if s.mayMove then s.cmd.transfers.foldl move (s.onCmd fun c => { c with transfers := [] }) else s

/-- A transfer moves now or waits. -/
def startTransfer (s : Device) (t : Transfer) : Device :=
  if s.mayMove then s.move t else s.onCmd fun c => { c with transfers := c.transfers ++ [t] }

/-- The payload of R330; none where a field is out of range. -/
def transferOf (ref : PktRef) (pl : List Byte) (write : Bool) : Option Transfer :=
  let len := field pl 0x18 4
  if field pl 0 1 > 1 ∨ ¬ zeros pl 1 7 ∨ ¬ zeros pl 0x1C 4 ∨ len = 0 ∨ len > 2 ^ 30 then none
  else some { write, far := field pl 0 1 == 1, dev := field pl 8 8, host := field pl 0x10 8, len, ref }

end Device

/-- MEM_WRITE (R330): `data` is what the host's buffer holds. -/
def execMemWrite (p : Pkt) (data : List Byte) (s : State) : Host.Outcome State Fault Refusal :=
  devPacket p 0x40 s fun ref pl v => match Device.transferOf ref pl true with
    | some t => v.startTransfer { t with data := (data ++ List.replicate t.len 0).take t.len }
    | none => v.replyFree ref BAD_FIELD
/-- MEM_READ (R330): `outcome` is what the check code of the burst behind the first `good` bytes finds. -/
def execMemRead (p : Pkt) (outcome : ReadOutcome) (good : Nat) (s : State) : Host.Outcome State Fault Refusal :=
  devPacket p 0x41 s fun ref pl v => match Device.transferOf ref pl false with
    | some t => v.startTransfer { t with outcome, good }
    | none => v.replyFree ref BAD_FIELD

end Sys2Proof.Machine
end

