-- ==== Sys2Proof/Machine/Queries.lean ====
section
/-! DEFINITION. The handshake, the commands that ask, and the difference stream's and re-shard's commands
(spec/11 R313, R315, R316, R329; spec/10 R290). -/

namespace Sys2Proof.Machine

namespace Device

/-- The head of the manifest of the bundle that runs. Where none does (R410) its fields are free values (log entry 46). -/
def manifest (s : Device) : List Byte :=
  if s.images = [] then (List.range 10).flatMap fun i => leBytes 8 (Config.freeWord (s.freeCnt + i)).toNat else s.running

/-! ## VERSION (R315, R316) -/

/-- The pair matches: equal interface revisions, and equal major and minor versions. -/
def versionsMatch (m pl : List Byte) : Bool := field pl 6 2 == 1 && field pl 0 4 == field m 4 4

/-- The 256-byte reply record. -/
def versionRecord (s : Device) (nv : Nv) (m : List Byte) (ok : Bool) : List Byte :=
  let sts := (List.range 8).map s.stackState
  leBytes 6 (bundleVersion m) ++ leBytes 2 1 ++ leBytes 8 Config.deviceId.toNat ++ leBytes 1 (gradeCode Config.grade)
    ++ leBytes 1 (s.fld R.GLB_ID_ARITH_REV) ++ leBytes 1 Config.stepping.toNat ++ leBytes 1 nv.lifecycle.code
    ++ (List.range 4).map Config.enabledMitts ++ (imageVersions m).flatMap (leBytes 4) ++ leBytes 4 Config.seqRevision.toNat
    ++ leBytes 1 (packBits [ok, s.calUse.factory, sts.any (· == 2), s.cmd.dstate == .hold])
    ++ leBytes 1 (packBits (sts.map (· == 1))) ++ leBytes 1 s.cmd.linkWidth.toNat ++ leBytes 1 s.cmd.linkRate.toNat
    ++ leBytes 4 (s.fld R.MEM_FAR_CAP_CAP) ++ leBytes 4 (s.fld (R.MEM_FAR_CAP_CAP.nth 1)) ++ List.replicate 200 0

def version (s : Device) (nv : Nv) (ref : PktRef) (pl : List Byte) : Device :=
  let addr := field pl 8 8
  if ¬ zeros pl 0x10 16 ∨ addr % 64 ≠ 0 then s.replyFree ref BAD_FIELD
  else
    let m := s.manifest
    let ok := versionsMatch m pl
    let s := s.setHost addr (s.versionRecord nv m ok)
    let s := { s with freeCnt := s.freeCnt + 10 }
    let s := s.onCmd fun c => { c with handshake := true, mismatch := !ok, shook := true }
    s.replyFree ref (if ok then OK else VERSION_MISMATCH)

/-! ## STATUS, JOB_QUERY, ACCT_READ (R313) -/

def statusResult (s : Device) : Nat := s.cmd.dstate.code + s.cmd.queue.length * 2 ^ 8 + s.err.depth * 2 ^ 16

/-- The running job of the header, or a queued one. -/
def findJob (s : Device) (id : W64) : Option Job :=
  match s.cmd.job.filter fun j => j.desc.id == id with
  | some j => some j
  | none => (s.cmd.queue.find? fun d => d.id == id).map fun d => { desc := d, startUs := s.clockUs }

def jobQuery (s : Device) (ref : PktRef) (pl : List Byte) : Device := match s.findJob ref.job with
  | some j =>
    let kept := j.desc.keep && j.desc.rsid != 0
    ((s.setHost (field pl 0 8) (s.endRecord j (s.owned_us j) kept)).freeWord.2).replyFree ref OK
  | none => s.replyFree ref BAD_JOB

/-- u * 2^(-t / k), rounded down: in fixed point with 512 fraction bits. -/
def halved (u t k : Nat) : Nat :=
  let w : Int := -((t : Int) * Elementary.one) / k
  let i := w / Elementary.one
  if i < -4096 then 0 else (u * Elementary.expUnit (Elementary.mul (w - i * Elementary.one) Elementary.ln2) / Elementary.one).toNat / 2 ^ (-i).toNat

/-- An account's usage decayed to now (R325): exact where the rule gives a whole number of microseconds, else one of the two whole numbers
beside it, a free choice (log entry 6). A half-life of 0 disables the decay. -/
def usageNow (s : Device) (a : Nat) : Nat :=
  let h := s.fld R.CMD_SCHED_HALF_LIFE_S
  let u := Sparse.get 0 a s.cmd.usage
  let t := s.clockUs - s.cmd.lastDecayUs
  if h = 0 ∨ u = 0 then u
  else if t % (h * 1000000) = 0 ∧ u % 2 ^ (t / (h * 1000000)) = 0 then u / 2 ^ (t / (h * 1000000))
  else
    let lo := halved u t (h * 1000000)
    min (lo + 1) (max lo (Config.decayed u t h))

def acctRead (s : Device) (ref : PktRef) (pl : List Byte) : Device :=
  let rows := (List.range 64).flatMap fun a =>
    leBytes 8 (s.usageNow a) ++ leBytes 4 (satCount 32 (Sparse.get 0 a s.cmd.jobsRun)) ++ leBytes 4 0
  (s.setHost (field pl 0 8) rows).replyFree ref OK

/-! ## RESHARD, BASE_EXPORT (R290, R294, R329) -/

/-- The job has ended (R324). -/
def jobEnding (s : Device) : Bool := s.cmd.job.any fun j => match j.phase with | .ending _ => true | _ => false

/-- RESHARD (R329): Band stages the directory, once it has returned where it restarts (R384); no step of a job that has ended ends at a tick any
more (log entry 47). -/
def reshard (s : Device) (ref : PktRef) (pl image : List Byte) : Device :=
  let len := field pl 8 8
  let epoch := BitVec.ofNat 8 (field pl 0x10 1)
  if ¬ zeros pl 0x11 3 then s.replyFree ref BAD_FIELD
  else if s.jobEnding then s.replyFree ref BAD_JOB
  else if s.fab.reshard.isSome then s.replyFree ref RESHARD_PENDING
  else if epoch ≠ s.fab.epoch + 1 then s.replyFree ref EPOCH_MISMATCH
  else
    let s := s.onFab fun f => { f with reshard := some {
      image := (image ++ List.replicate len 0).take len, epoch, effStep := BitVec.ofNat 32 (field pl 0x14 4),
      ref } }
    if s.bandUp then s.stageDirectory epoch else s.forBand (.directory epoch)

/-- The step whose version is the next that a shard publishes with its record still to be written. -/
def firstBase (s : Device) : W32 :=
  let due := s.owned.filter fun e => !s.entryFrozen e
  let st := if s.cmd.job.any fun j => j.lastStarted.isNone then s.stepNo else s.frm.step
  let gone (e : Nat) : Bool := s.fab.records.any fun r => r.entry == e && r.version == st
  if due ≠ [] ∧ due.all gone then st + 1 else st

/-- BASE_EXPORT (R329): a job that has ended publishes no more versions (log entry 47). -/
def baseExport (s : Device) (ref : PktRef) : Device :=
  if s.jobEnding then s.replyFree ref OK
  else
  let first := s.firstBase
  let due := s.owned.filter fun e => !s.entryFrozen e
  let s := s.onFab fun f => { f with baseDue := due }
  s.reply ref OK first.toNat

/-! ## The host's ring of records (R329) -/

def hostRingSet (s : Device) (ref : PktRef) (pl : List Byte) : Device :=
  let size := field pl 8 8
  if size < 2 ^ 24 ∨ size > 2 ^ 40 ∨ size ≠ 2 ^ Nat.log2 size then s.replyFree ref BAD_FIELD
  else (s.onCmd fun c => { c with hostRing := some { base := field pl 0 8, size } }).replyFree ref OK

/-- Whether a record lies wholly before an offset, going round from the oldest record; an offset where the next record
will go has every record before it. -/
def recordBefore (h : HostRing) (off : Nat) (x : Nat × Nat × RecordOut) : Bool :=
  let oldest := (h.recs.head?.map fun (r : Nat × Nat × RecordOut) => r.1).getD 0
  let dist (a : Nat) : Nat := (a + h.size - oldest) % h.size
  off % h.size == h.next % h.size || decide (dist x.1 + x.2.1 ≤ dist (off % h.size))

/-- The host holds one record durably. -/
def hostAck (s : Device) (r : RecordOut) : Device := s.onFab fun f =>
  let mark (x : RecordOut) : RecordOut :=
    if x.entry = r.entry ∧ x.version = r.version then { x with acks := x.acks ++ [hostSink] } else x
  { f with records := (f.records.map mark).filter fun x => !(x.sinks.all fun k => x.acks.any (· == k)) }

/-- DS_ACK: records before the offset are acknowledged, and those that wait for room go on. -/
def dsAck (s : Device) (ref : PktRef) (pl : List Byte) : Device :=
  if ¬ s.sinks.any (· == hostSink) then s.replyFree ref NOT_SINK
  else match s.cmd.hostRing with
    | none => s.reply ref OK 0
    | some h =>
      let off := field pl 0 8
      if off > h.size then s.replyFree ref BAD_FIELD
      else
        let done := h.recs.takeWhile (recordBefore h off)
        let s := done.foldl (fun s x => s.hostAck x.2.2) s
        let s := s.onCmd fun c => { c with hostRing := some { h with recs := h.recs.drop done.length, waiting := [] } }
        let s := h.waiting.foldl (fun s w => s.hostRecord w.1 w.2) s
        s.reply ref OK done.length

end Device

/-- VERSION (R315). -/
def execVersion (p : Pkt) (s : State) : Host.Outcome State Fault Refusal :=
  onPacket p 0x01 s fun ref pl t => t.onDevice fun v => v.version t.nv ref pl
/-- STATUS (R313). -/
def execStatus (p : Pkt) (s : State) : Host.Outcome State Fault Refusal :=
  devPacket p 0x02 s fun ref _ v => v.reply ref OK v.statusResult
/-- JOB_QUERY (R313). -/
def execJobQuery (p : Pkt) (s : State) : Host.Outcome State Fault Refusal := devPacket p 0x14 s fun ref pl v => v.jobQuery ref pl
/-- ACCT_READ (R313). -/
def execAcctRead (p : Pkt) (s : State) : Host.Outcome State Fault Refusal := devPacket p 0x15 s fun ref pl v => v.acctRead ref pl
/-- RESHARD (R290): `image` is the directory the host's buffer holds. -/
def execReshard (p : Pkt) (image : List Byte) (s : State) : Host.Outcome State Fault Refusal :=
  devPacket p 0x30 s fun ref pl v => v.reshard ref pl image
/-- BASE_EXPORT (R329). -/
def execBaseExport (p : Pkt) (s : State) : Host.Outcome State Fault Refusal := devPacket p 0x31 s fun ref _ v => v.baseExport ref
/-- DS_HOST_RING (R313). -/
def execDsHostRing (p : Pkt) (s : State) : Host.Outcome State Fault Refusal :=
  devPacket p 0x32 s fun ref pl v => v.hostRingSet ref pl
/-- DS_ACK (R329). -/
def execDsAck (p : Pkt) (s : State) : Host.Outcome State Fault Refusal := devPacket p 0x33 s fun ref pl v => v.dsAck ref pl

end Sys2Proof.Machine
end

