-- ==== Sys2Proof/Machine/Jobs.lean ====
section
/-! DEFINITION. Jobs: the queue, shares and the choice of a job, starting and ending one, sequences and yields
(spec/11 R320 to R328, R331, R332; spec/04 R131). -/

namespace Sys2Proof.Machine

namespace Device

/-! ## Submitting (R320) -/

def segmentOf (pl : List Byte) (i : Nat) : Segment :=
  let o := 0x48 + 24 * i
  { host := BitVec.ofNat 64 (field pl o 8), target := BitVec.ofNat 64 (field pl (o + 8) 8),
    len := BitVec.ofNat 32 (field pl (o + 16) 4), kind := BitVec.ofNat 8 (field pl (o + 20) 1) }

def jobOf (ref : PktRef) (pl : List Byte) : JobDesc :=
  { id := ref.job, seed := BitVec.ofNat 64 (field pl 0 8), first := BitVec.ofNat 32 (field pl 8 4),
    limit := BitVec.ofNat 32 (field pl 0x0C 4), account := field pl 0x10 2, share := field pl 0x12 2,
    rsid := BitVec.ofNat 16 (field pl 0x14 2), stages := field pl 0x16 1, keep := field pl 0x17 1 == 1,
    entries := (List.range 4).map fun d => BitVec.ofNat 64 (field pl (0x18 + 8 * d) 8),
    recordAddr := BitVec.ofNat 64 (field pl 0x38 8), self := BitVec.ofNat 16 (field pl 0x42 2),
    segs := (List.range (field pl 0x40 2)).map (segmentOf pl), ref }

/-- A field of the payload out of its range. -/
def badJob (pl : List Byte) (j : JobDesc) : Bool :=
  decide (j.account > 63) || j.share == 0 || j.stages == 0 || decide (j.stages > 8) || decide (field pl 0x17 1 > 1)
    || decide (j.recordAddr.toNat % 64 ≠ 0) || decide (j.segs.length > 167) || (decide (j.self.toNat > 4095) && j.self != 0xFFFF)
    || !zeros pl 0x44 4 || j.entries.any (fun a => decide (a.toNat ≥ 2 ^ 40))
    || (List.range j.segs.length).any fun i => decide ((segmentOf pl i).kind.toNat > 4) || !zeros pl (0x48 + 24 * i + 21) 3

def submit (s : Device) (ref : PktRef) (pl : List Byte) : Device :=
  let j := jobOf ref pl
  if ref.job = 0 ∨ (s.findJob ref.job).isSome then s.replyFree ref BAD_JOB
  else if badJob pl j then s.replyFree ref BAD_FIELD
  else if s.cmd.queue.length ≥ 16 then s.replyFree ref QUEUE_FULL
  else s.onCmd fun c => { c with queue := c.queue ++ [j] }

/-- JOB_WITHDRAW: the job's own submission ends too. -/
def withdraw (s : Device) (ref : PktRef) : Device := match s.cmd.queue.find? fun j => j.id == ref.job with
  | none => s.replyFree ref BAD_JOB
  | some j => ((s.onCmd fun c => { c with queue := c.queue.erase j }).reply j.ref JOB_WITHDRAWN 0).replyFree ref OK

/-! ## The running job's commands (R313, R323, R331) -/

/-- The header names the running job. -/
def named (s : Device) (ref : PktRef) : Bool := s.cmd.job.any fun j => j.desc.id == ref.job

def abort (s : Device) (ref : PktRef) : Device :=
  if s.named ref then (s.endJob JOB_ABORTED 0).replyFree ref OK else s.replyFree ref BAD_JOB

/-- JOB_YIELD, with CANCEL or without. A request that is already visible is answered at once with its tick; a cancelled
one is answered OK, with a result the manual does not state (log entry 47). -/
def yieldPacket (s : Device) (ref : PktRef) (pl : List Byte) : Device :=
  if ¬ s.named ref ∨ s.jobEnding then s.replyFree ref BAD_JOB
  else if field pl 0 8 > 1 then s.replyFree ref BAD_FIELD
  else if field pl 0 1 = 1 then
    let waiting := s.cmd.yieldPend
    let s := s.onCmd fun c => { c with yieldPend := [], yieldSeen := false }
    (waiting.foldl (fun s r => s.replyFree r OK) s).replyFree ref OK
  else if s.cmd.yieldSeen then s.reply ref OK s.cmd.yieldFrm.toNat
  else s.onCmd fun c => { c with yieldPend := c.yieldPend ++ [ref] }

/-! ## Sequences (R327, R328) -/

def joinOf (ref : PktRef) (pl : List Byte) : Join :=
  { sid := BitVec.ofNat 64 (field pl 0 8), ref,
    costs := (List.range (field pl 8 1)).map fun i =>
      (Fin.ofNat 4 (field pl (0x10 + 16 * i) 1), Fin.ofNat 8 (field pl (0x11 + 16 * i) 1), field pl (0x18 + 16 * i) 8) }

def badJoin (pl : List Byte) : Bool :=
  let n := field pl 8 1
  field pl 0 8 == 0 || n == 0 || decide (n > 32) || !zeros pl 9 7 ||
    (List.range n).any fun i =>
      decide (field pl (0x10 + 16 * i) 1 > 3) || decide (field pl (0x11 + 16 * i) 1 > 7) || !zeros pl (0x12 + 16 * i) 6

def isAdmitted (s : Device) (sid : W64) : Bool := s.cmd.admitted.any fun a => a.sid == sid
/-- A join that no leave has withdrawn. -/
def isPending (s : Device) (sid : W64) : Bool := s.cmd.joins.any fun j => j.sid == sid && !j.withdrawn
def isLeaving (s : Device) (sid : W64) : Bool := s.cmd.leaves.any fun l => l.sid == sid

/-- A join of an admitted sequence waits for order 6 too: a leave for the same tick, posted before it or behind it, comes first (R328). -/
def seqJoin (s : Device) (ref : PktRef) (pl : List Byte) : Device :=
  let j := joinOf ref pl
  if ¬ s.named ref then s.replyFree ref BAD_JOB
  else if badJoin pl then s.replyFree ref BAD_FIELD
  else if s.jobEnding then
    (s.onJob fun x => if x.replied then x else { x with joinsReturned := x.joinsReturned + 1 }).replyFree ref NOT_ADMITTED
  else if s.isPending j.sid then s.replyFree ref SEQ_DUPLICATE
  else if s.cmd.joins.length ≥ 256 then s.replyFree ref QUEUE_FULL
  else s.onCmd fun c => { c with joins := c.joins ++ [j] }

/-- A leave takes an admitted sequence out; else it withdraws a pending join of its sequence (R328). -/
def seqLeave (s : Device) (ref : PktRef) (pl : List Byte) : Device :=
  let sid := BitVec.ofNat 64 (field pl 0 8)
  if ¬ s.named ref ∨ s.jobEnding then s.replyFree ref BAD_JOB
  else if s.isAdmitted sid ∧ ¬ s.isLeaving sid then s.onCmd fun c => { c with leaves := c.leaves ++ [{ sid, ref }] }
  else if s.isPending sid then s.onCmd fun c => { c with
    joins := c.joins.map (fun j => if j.sid = sid then { j with withdrawn := true } else j),
    leaves := c.leaves ++ [{ sid, ref }] }
  else s.replyFree ref UNKNOWN_SEQ

/-! ## Shares and choice (R325, R326) -/

/-- Every account's usage is decayed to now. -/
def decayAll (s : Device) : Device :=
  let u := (List.range 64).foldl (fun m a => Sparse.put 0 a (s.usageNow a) m) s.cmd.usage
  s.onCmd fun c => { c with usage := u, lastDecayUs := s.clockUs }

/-- A binary64 result of the choice. -/
def dbl (v : Val) : Val := FloatFmt.f64.decode (FloatFmt.f64.ieee .rne v)

/-- The normalised usage of a job. -/
def normalised (s : Device) (j : JobDesc) : Val :=
  let u : Nat := Sparse.get 0 j.account s.cmd.usage
  dbl ((dbl (.ofInt u 0)).div (.ofInt j.share 0))

/-- The job to start: one that the retained set serves inside the affinity window, else the least used. -/
def choose (s : Device) : Option JobDesc :=
  let best := (s.cmd.queue.map s.normalised).foldl Val.min2 (.inf false)
  let lim := dbl (best.add (.ofInt (s.fld R.CMD_SCHED_AFF_S * 1000000) 0))
  match s.cmd.queue.find? fun j => j.rsid != 0 && j.rsid == s.cmd.retained && !lim.lt (s.normalised j) with
  | some j => some j
  | none => s.cmd.queue.find? fun j => (s.normalised j).eq best

/-- Peak may start a job (R326, R397, R400). -/
def mayTake (s : Device) : Bool :=
  s.cmd.job.isNone && s.procs.q2.up && s.cmd.activation.isNone && s.cmd.calRestore.isNone && s.cmd.queue != []
def mayChoose (s : Device) : Bool := s.cmd.dstate == .ready && s.mayTake

/-- The job chosen enters STARTING. A set-change wipe runs, behind a wipe in progress, unless its set is the retained one (R322 steps 1
and 2). -/
def takeJob (s : Device) : Device :=
  let s := s.decayAll
  match s.choose with
  | none => s
  | some d =>
    let kept := d.rsid ≠ 0 ∧ d.rsid = s.cmd.retained
    let wipes := if kept then 0 else if s.wiping then 2 else 1
    let j : Job := { desc := d, startFrm := s.frm.count, startUs := s.clockUs, wipes }
    let s := (s.onCmd fun c => { c with queue := c.queue.erase d, job := some j }).setDState .starting
    if wipes = 1 then s.wipeSet else s

/-- JOB_CHOOSE (R326). -/
def chooseJob (s : Device) : Device := if s.mayChoose then s.takeJob else s

/-! ## Loading (R322 step 4) -/

/-- The near base of the shard directory that a FAB commit still to be applied brings, or the one in force. -/
def dirTarget (s : Device) : Nat :=
  if s.unitPends 10 0 0 then bitsOf (s.regs.pendAt R.FAB_DIR_BASE).val.toNat 27 0 * 4096 else s.dirBase

/-- Bytes of memory are inside the map, and can be written. -/
def inMap (s : Device) (far : Bool) (a n : Nat) : Bool :=
  (List.range n).all fun i => !s.unmapped far (a + i) && !s.downFar far (a + i)

/-- The (offset, value) pairs of a list of registers. -/
def regPairs (bs : List Byte) : List (Nat × W32) :=
  (List.range (bs.length / 8)).map fun i => (field bs (8 * i) 4, BitVec.ofNat 32 (field bs (8 * i + 4) 4))

/-- A load that meets an address outside the map fails there as a host command's access does (R238, R255, R257, R258). -/
def loadFault (s : Device) (far : Bool) (a n : Nat) : Device :=
  match (List.range n).find? fun i => s.unmapped far (a + i) || s.downFar far (a + i) with
  | some i => s.failAccess far (a + i) 0x0B4 1
  | none => s
/-- Bytes loaded at an address, where it is inside the map; the flag says that they are. -/
def loadBytes (s : Device) (far : Bool) (a : Nat) (bs : List Byte) : Device × Bool :=
  if s.inMap far a bs.length then (s.writeBytes (if far then .far else .near) a bs, true) else (s.loadFault far a bs.length, false)

/-- One segment; the flag is false where it cannot be read, or its target cannot be written. -/
def loadSegment (svc : Nat) (s : Device) (g : Segment) (data : SegData) : Device × Bool :=
  match data with
  | none => (s, false)
  | some bs =>
    let bs := (bs ++ List.replicate g.len.toNat 0).take g.len.toNat
    let t := g.target.toNat
    match g.kind.toNat with
    | 0 => s.loadBytes false t bs
    | 1 => s.loadBytes true t bs
    | 2 =>
      let ps := regPairs bs
      if bs.length % 8 ≠ 0 ∨ ps.any (fun p => decide (0x100000 ≤ p.1) && decide (p.1 < 0x200000)) then (s, false)
      else
        let s := ps.foldl (fun s p => s.busWrite svc p.1 p.2) s
        let tag := BitVec.ofNat 8 (s.fld R.GLB_COMMIT_STAT_POSTED_TAG)
        ((List.range 11).foldl (fun s k => s.postCommit k [0, 1, 2, 3] tag) s, true)
    | 3 =>
      if bs.length % 32 ≠ 0 ∨ t + bs.length / 32 > 4096 then (s, false)
      else (s.onFab fun f => { f with peers := f.peers.writeBytes (32 * t) bs }, true)
    | _ =>
      let z := s.loadBytes false s.dirTarget bs
      if z.2 then (z.1.onFab fun f => { f with epoch := BitVec.ofNat 8 (field bs 6 1) }, true) else z

/-- The segments in order, up to the first that fails, and whether none does. -/
def loadAll (svc : Nat) (s : Device) : List (Segment × SegData) → Device × Bool
  | [] => (s, true)
  | g :: gs =>
    let z := s.loadSegment svc g.1 g.2
    if z.2 then loadAll svc z.1 gs else z

/-! ## Job start (R229, R230, R255, R278, R322 steps 5 and 6) -/

/-- GLB_DET.EFFECTIVE (R230). -/
def effective (s : Device) : Bool :=
  s.detLatched && (s.fld R.FRM_CTL_POLICY == 0 || ([0, 1, 2, 3] : List Die).all fun d => s.flag (R.GNT_CTL_REPLAY.die d))

/-- The counters cleared at job start. -/
def clearCounters (s : Device) : Device :=
  let idle : List Fld := (List.range 4).flatMap fun d =>
    (List.range 12).map fun c => (⟨R.FAB_IDLE_PACT_LO + 0x40 * d + 4 * c, 0, 32, 0⟩ : Fld)
  let s := idle.foldl (fun s f => s.setFld f 0) s
  let s := [R.GLB_NDET_CNT_LO_VALUE, R.GLB_NDET_CNT_HI_VALUE, R.GLB_NDET_DEMOTED_VALUE, R.FRM_OVERRUN_JOB_COUNT].foldl
    (fun s f => s.setFld f 0) s
  s.setFld R.GLB_NDET_FIRST_VALUE 0xFFFFFFFF

/-- The far map latched at job start: interleaved only with two equal ports (R255). -/
def latchFarMap (s : Device) : Device :=
  let want := s.flag R.MEM_FAR_CTL_ILV
  let ok := s.fld R.MEM_FAR_CAP_CAP == s.fld (R.MEM_FAR_CAP_CAP.nth 1) && s.fld R.MEM_FAR_CAP_CAP != 0
  let s := s.setFld R.MEM_FAR_CTL_ILV_ERR (b2n (want && !ok))
  { s with mem := { s.mem with ilv := want && ok } }

/-- Step 5: the modes of the job are latched. -/
def latchModes (s : Device) : Device :=
  let s := ((s.applyUnit 0 0 0).applyUnit 9 0 1).latchFarMap
  let s := { s with detLatched := s.flag R.GLB_DET_MODE }
  ((s.setFld R.GLB_DET_EFFECTIVE (b2n s.effective)).setFld R.GLB_DET_LOST 0).clearCounters

/-- Step 6: the interim reply names the next tick, at which the first step starts. -/
def enterRunning (s : Device) (d : JobDesc) : Device :=
  let s := s.interim d.ref JOB_STARTED ((s.frm.count + 1).toNat % 2 ^ 48)
  ((s.noteWhole.onJob fun j => { j with phase := .running }).setDState .running).runTransfers

/-- A chosen job may go on to load: no wipe runs, no stack is retrained or waits for that, Peak runs, and Band does where the job's image has a
peer table or a directory, which go to it by message (R242, R263, R380, R384). -/
def mayLoad (s : Device) : Bool :=
  s.cmd.dstate == .starting && !s.wiping && s.procs.q2.up && (s.bandUp || !s.cmd.job.any fun j => j.desc.segs.any fun g => decide (3 ≤ g.kind.toNat))
    && (List.range 8).all (fun k => s.stackState k != 3 && !s.retrainDue k)

/-- JOB_START, steps 3 to 6. -/
def startJob (s : Device) (svc : Nat) (segs : List SegData) : Device :=
  match s.cmd.job with
  | none => s
  | some j =>
    if (List.range 8).any fun k => s.stackState k == 2 then s.endJob MEM_DEGRADED 0
    else if s.flag R.GLB_ERR_STAT_LATCHED then s.endJob JOB_FATAL s.err.latchCode
    else match s.loadAll svc (j.desc.segs.zip (segs ++ List.replicate j.desc.segs.length none)) with
      | (t, ok) =>
        -- a segment's writes may themselves have ended the job
        if t.jobEnding then t
        else if ¬ ok then t.endJob LOAD_ERROR 0
        else
          let t := if j.desc.self = 0xFFFF then t else t.setFld R.FAB_SELF_INDEX j.desc.self.toNat
          t.latchModes.enterRunning j.desc

/-! ## The end of a job (R324) -/

/-- Every tile has drained, every Palm has stopped, every group that lacks no key is complete (R249), and every published version has been
exported. -/
def mayClose (s : Device) : Bool :=
  s.procs.q2.up && s.dies.toList.all (fun d => d.mitts.all (fun m => m.2.tiles == []) && d.palm.run.isNone && d.adders.groups.all fun g => g.lowest.isSome)
    && s.fab.exportDue.all (fun e => s.fab.ran.any fun r => r.entry == e)
    && (s.cmd.hostRing.all fun h => h.waiting == [])

/-- Requests that the job left behind (log entry 47). -/
def refuseRest (s : Device) : Device :=
  let refs := s.cmd.yieldPend ++ s.cmd.leaves.map (fun l => l.ref) ++ (s.fab.reshard.map fun r => r.ref).toList
  refs.foldl (fun s r => s.replyFree r BAD_JOB) s

/-- ENDING_EXPORT_DONE: steps 1 to 5. -/
def closeJob (s : Device) : Device :=
  match s.cmd.job with
  | none => s
  | some j =>
    if j.phase ≠ .ending false ∨ ¬ s.mayClose then s
    else
      let kept := j.desc.keep && j.desc.rsid != 0
      let s := s.returnJoins
      let s := if s.fabricJob then s.departAll else s
      let s := s.answerJob kept
      let s := s.refuseRest.wipeBetween
      let s := if kept then s else s.wipeSet
      ((s.onJob fun j => { j with phase := .ending true }).clearJob).settle

/-- Step 6: the account is charged, and the device is READY, or STARTING for the next job. -/
def chargeJob (s : Device) : Device :=
  match s.cmd.job with
  | some j =>
    if j.phase ≠ .ending true then s
    else
      let s := s.decayAll
      let a := j.desc.account
      let s := s.onCmd fun c => { c with
        usage := Sparse.put 0 a (Sparse.get 0 a c.usage + s.owned_us j) c.usage,
        jobsRun := Sparse.put 0 a (Sparse.get 0 a c.jobsRun + 1) c.jobsRun, job := none }
      if s.mayTake then s.takeJob else s.setDState .ready
  | none => s

/-- What a job in STARTING still waits for: its set-change wipe begins, or, where that was the one, the set retained is its own (R322
step 2). -/
def startWipe (s : Device) : Device := match s.cmd.job.map (·.wipes) with
  | some 2 => (s.onJob fun j => { j with wipes := 1 }).wipeSet
  | some 1 => (s.onCmd fun c => { c with retained := (c.job.map fun j => j.desc.rsid).getD 0 }).onJob fun j => { j with wipes := 0 }
  | _ => s

/-- The start or the end of a job goes on behind a wipe that has ended, while Peak runs (R263, R380). -/
def afterWipe (s : Device) : Device :=
  if s.wiping ∨ ¬ s.procs.q2.up then s else if s.cmd.dstate = .starting then s.startWipe else s.chargeJob

/-- WIPE_COMPLETE: what waited for the wipe goes on (R263). A wipe that a reset began covers memory that is trained. -/
def wipeDone (s : Device) : Device :=
  if ¬ s.wiping ∨ s.cmd.dstate = .notReady then s else (s.setFld R.MEM_STAT_WIPING 0).afterWipe.runTransfers

/-! ## The host link (R300, R359) -/

def linkDown_ (s : Device) : Device := s.onCmd fun c => { c with linkUp := false, linkWidth := 0, linkRate := 0 }
/-- The link returns, at one of the widths and rates it can train to: replies that waited are written (R299, R300). -/
def linkUp_ (s : Device) (width rate : Byte) : Device :=
  if ¬ hostLink width rate then s
  else (s.onCmd fun c => { c with linkUp := true, linkWidth := width, linkRate := rate }).flushAll
/-- A hot reset resets the link layer and stops every ring; the job goes on. -/
def hotReset (s : Device) : Device := ([0, 1, 2, 3] : List (Fin 4)).foldl (fun s r => s.stopRing r) s.linkDown_

end Device

/-- JOB_SUBMIT (R320). -/
def execJobSubmit (p : Pkt) (s : State) : Host.Outcome State Fault Refusal := devPacket p 0x10 s fun ref pl v => v.submit ref pl
/-- JOB_WITHDRAW (R313). -/
def execJobWithdraw (p : Pkt) (s : State) : Host.Outcome State Fault Refusal := devPacket p 0x11 s fun ref _ v => v.withdraw ref
/-- JOB_YIELD (R331). -/
def execJobYield (p : Pkt) (s : State) : Host.Outcome State Fault Refusal := devPacket p 0x12 s fun ref pl v => v.yieldPacket ref pl
/-- YIELD_CANCEL (R331): JOB_YIELD with CANCEL = 1; the packet's payload says which of the two it is. -/
def execYieldCancel (p : Pkt) (s : State) : Host.Outcome State Fault Refusal :=
  devPacket p 0x12 s fun ref pl v => v.yieldPacket ref pl
/-- JOB_ABORT (R323). -/
def execJobAbort (p : Pkt) (s : State) : Host.Outcome State Fault Refusal := devPacket p 0x13 s fun ref _ v => v.abort ref
/-- SEQ_JOIN (R327). -/
def execSeqJoin (p : Pkt) (s : State) : Host.Outcome State Fault Refusal := devPacket p 0x20 s fun ref pl v => v.seqJoin ref pl
/-- SEQ_LEAVE (R328). -/
def execSeqLeave (p : Pkt) (s : State) : Host.Outcome State Fault Refusal := devPacket p 0x21 s fun ref pl v => v.seqLeave ref pl
/-- JOB_CHOOSE (R326). -/
def execJobChoose (s : State) : Host.Outcome State Fault Refusal := onDev s fun v => v.chooseJob
/-- JOB_START (R322): `segs` is what the host's buffers hold. R316 calls the behaviour of a mismatched pair undefined. -/
def execJobStart (segs : List SegData) (s : State) : Host.Outcome State Fault Refusal :=
  if s.dev.halted ∨ ¬ s.dev.mayLoad then .next s
  else if s.dev.cmd.mismatch then .fault .mismatchedPair
  else .next { s with dev := s.dev.startJob s.svc segs }
/-- ENDING_EXPORT_DONE (R324). -/
def execEndingExportDone (s : State) : Host.Outcome State Fault Refusal := onDev s fun v => v.closeJob
/-- WIPE_COMPLETE (R263). -/
def execWipeComplete (s : State) : Host.Outcome State Fault Refusal := onDev s fun v => v.wipeDone
/-- PCIE_LINK_DOWN (R300). -/
def execPcieLinkDown (s : State) : Host.Outcome State Fault Refusal := onDev s fun v => v.linkDown_
/-- PCIE_LINK_UP (R300). -/
def execPcieLinkUp (width rate : Byte) (s : State) : Host.Outcome State Fault Refusal := onDev s fun v => v.linkUp_ width rate
/-- PCIE_HOT_RESET (R359). -/
def execPcieHotReset (s : State) : Host.Outcome State Fault Refusal := onDev s fun v => v.hotReset

end Sys2Proof.Machine
end

