-- ==== Sys2Proof/Machine/Firmware.lean ====
section
/-! DEFINITION. Firmware staging and activation, and the calibration set (spec/14 R395 to R400). -/

namespace Sys2Proof.Machine

def State.onNv (t : State) (f : Nv → Nv) : State := { t with nv := f t.nv }
/-- A reply of a command that acts on more than the device. -/
def State.reply (t : State) (ref : PktRef) (status result : Nat) : State := t.onDevice fun s => s.reply ref status result
/-- A reply whose result the manual does not state (log entry 46). -/
def State.replyFree (t : State) (ref : PktRef) (status : Nat) : State := t.onDevice fun s => s.replyFree ref status

/-! ## FW_STAGE (R399, R410, R411) -/

/-- A bundle failed its signature check: SEC_STAT.SIG_REJECT (R419). -/
def Device.sigReject (s : Device) : Device := s.event R.SEC_STAT_SIG_REJECT

/-- A bundle goes into a slot if it verifies; one whose signature fails leaves the slot empty. -/
def State.stage (t : State) (ref : PktRef) (pl bundle : List Byte) : State :=
  let len := field pl 8 8
  let k := field pl 0x10 1
  if k > 1 ∨ (k = t.nv.boot ∧ ¬ t.nv.noBoot) ∨ len > 2 ^ 23 ∨ ¬ zeros pl 0x11 7 then t.replyFree ref BAD_FIELD
  else
    let b := part bundle 0 len
    match t.nv.bundleFault b with
    | some .signature => ((t.onNv fun n => n.setSlot k [] false).onDevice Device.sigReject).replyFree ref SIGNATURE_BAD
    | some .version => t.replyFree ref BAD_FIELD
    | none => (t.onNv fun n => n.setSlot k b true).replyFree ref OK

/-! ## FW_ACTIVATE (R400) -/

/-- An activation that an emergency defers at once. -/
def Device.deferActivation (s : Device) (ref : PktRef) : Device :=
  if s.pwr.emergency then
    let x := s.freeWord
    (x.2.interim ref FW_DEFERRED x.1.toNat).post 0x0606 1 (procUnit .peak) 0
  else s

def State.activate (t : State) (ref : PktRef) (pl : List Byte) : State :=
  let k := field pl 0 1
  if k > 1 ∨ ¬ zeros pl 1 7 ∨ k = t.nv.boot ∨ ¬ t.nv.good k then t.replyFree ref BAD_FIELD
  else if t.dev.cmd.activation.isSome then t.replyFree ref WRONG_STATE
  else
    (t.onDevice fun s => (s.onCmd fun c => { c with activation := some { slot := k, ref } }).deferActivation ref).advanceActivation

/-- FW_ABANDONED: one emergency has lasted more than 60 s while step 1 waits. -/
def Device.abandonActivation (s : Device) : Device := match s.cmd.activation with
  | none => s
  | some a =>
    if ¬ a.passed ∧ s.pwr.emergency ∧ s.pwr.emergUs > 60000000 then
      ((s.onCmd fun c => { c with activation := none }).post 0x0607 1 (procUnit .peak) 0).replyFree a.ref FW_ABANDONED
    else s

/-- Microseconds for which the new processors stay ready before step 4. -/
def STAY_US : Nat := 1000000

/-- Step 4: all four processors have stayed ready for 1 s; the slot becomes the boot slot, and its verified images the copies that a warm
reset restarts from (R398). -/
def State.finishActivation (t : State) : State := match t.dev.cmd.activation with
  | none => t
  | some a =>
    if a.loading ∧ t.dev.procs.toList.all (fun p =>
        p.up && !p.restarting && !p.activating && decide (p.readyUs + STAY_US ≤ t.dev.clockUs)) then
      let t := t.onNv fun n => { n with boot := a.slot, noBoot := false }
      let t := t.onDevice fun s => { s with store := s.running }
      let t := t.onDevice fun s => (s.onCmd fun c => { c with activation := none }).post 0x0608 1 (procUnit .peak) 0
      t.reply a.ref OK (bundleVersion t.dev.running)
    else t

/-! ## The calibration set (R395 to R397) -/

/-- Bytes of a calibration set. -/
def calBytes : Nat := 16384

namespace CalSet

def factory (c : CalSet) : Bool := c.flags.getLsbD 0
def recal (c : CalSet) : Bool := c.flags.getLsbD 1
def user (c : CalSet) : Bool := c.flags.getLsbD 2

/-- The set as stored: a 64-byte header (revision, flags, length, digest, the rest; log entry 36) and the sections. -/
def bytes (c : CalSet) : List Byte :=
  leBytes 2 c.revision.toNat ++ leBytes 2 c.flags.toNat ++ leBytes 4 c.len.toNat ++ digestBytes c.digest
    ++ part c.spare 0 24 ++ part c.body 0 (calBytes - 64)

/-- A set as CAL_WRITE stores it: FACTORY 0 and USER 1, whatever its header holds. -/
def written (set : List Byte) : CalSet :=
  { revision := BitVec.ofNat 16 (field set 0 2), flags := (BitVec.ofNat 16 (field set 2 2) &&& ~~~ 1) ||| 4,
    len := BitVec.ofNat 32 (field set 4 4), digest := digestAt set 8, spare := part set 40 24, body := part set 64 (calBytes - 64) }

/-- A set's digest is that of its sections. -/
def intact (c : CalSet) : Bool := Shake.digest c.body == c.digest

/-- The sensor offsets: 16 bits each at the head of the sections, diodes before VIN senses before current senses (log entry 36). -/
def offset (c : CalSet) (i : Nat) : Int := signedOf 16 (field c.body (2 * i) 2)
def offsets (c : CalSet) : List Int := (List.range 88).map c.offset

/-- Every offset is inside its range, 8 °C, 500 mV or 500 mA either way, and every trim within its field (R396). -/
def inRange (c : CalSet) : Bool :=
  (List.range 88).all (fun i => decide ((c.offset i).natAbs ≤ if i < 80 then 128 else 50)) && Config.calInRange c.body

end CalSet

/-- CAL_WRITE: the set is stored if its digest and ranges hold, and is in use from the next reset on. -/
def State.calWrite (t : State) (ref : PktRef) (set : List Byte) : State :=
  let c := CalSet.written set
  if c.intact && c.inRange then (t.onNv fun n => { n with cal := c }).replyFree ref OK
  else t.replyFree ref BAD_FIELD

/-- CAL_RESTORE begins: READY, with no job queued. -/
def Device.calRestore (s : Device) (ref : PktRef) : Device :=
  if s.cmd.dstate ≠ .ready ∨ s.cmd.queue ≠ [] ∨ s.cmd.calRestore.isSome then s.replyFree ref WRONG_STATE
  else s.onCmd fun c => { c with calRestore := some ref }

/-- The procedure has run: the set it measured is stored. It is Crown that has measured, and Peak that answers; while one of them
restarts the end waits for it (R383, R384). -/
def State.calRestored (t : State) : State := match t.dev.cmd.calRestore with
  | none => t
  | some ref =>
    if ¬ t.dev.procs.q0.up ∨ ¬ t.dev.procs.q2.up then t.onDevice fun s => s.onCmd fun c => { c with calDone := true }
    else
      let body := Config.recalibrated t.nv.draws
      let t := t.onNv fun n => { n with draws := n.draws + 1, cal := { flags := 2, digest := Shake.digest body, body } }
      (t.onDevice fun s => s.onCmd fun c => { c with calRestore := none, calDone := false }).replyFree ref OK

/-- A processor is ready: what waited for it goes on, the start or end of a job, the end of a re-calibration, and an activation that waited
for the end of a restart (R379, R380, R384, R400). -/
def State.procReady (t : State) (x : Losing Proc) : State :=
  let t := t.onDevice fun s => (s.processorReady x.subject x.waits).afterWipe
  (if t.dev.cmd.calDone then t.calRestored else t).advanceActivation

/-- FW_STAGE (R399): `bundle` is what the host's buffer holds. -/
def execFwStage (p : Pkt) (bundle : List Byte) (s : State) : Host.Outcome State Fault Refusal :=
  onPacket p 0x50 s fun ref pl t => t.stage ref pl bundle
/-- FW_ACTIVATE (R400). -/
def execFwActivate (p : Pkt) (s : State) : Host.Outcome State Fault Refusal := onPacket p 0x51 s fun ref pl t => t.activate ref pl
/-- ACTIVATION_WAIT_EXPIRY (R400). -/
def execActivationWaitExpiry (s : State) : Host.Outcome State Fault Refusal :=
  if s.dev.halted then .next s else .next s.advanceActivation
/-- FW_ABANDONED (R400). -/
def execFwAbandoned (s : State) : Host.Outcome State Fault Refusal := onDev s fun v => v.abandonActivation
/-- FW_ACTIVATED (R400). -/
def execFwActivated (s : State) : Host.Outcome State Fault Refusal := if s.dev.halted then .next s else .next s.finishActivation
/-- PROCESSOR_READY (R379). -/
def execProcessorReady (x : Losing Proc) (s : State) : Host.Outcome State Fault Refusal :=
  if s.dev.halted then .next s else .next (s.procReady x)
/-- CAL_READ (R396). -/
def execCalRead (p : Pkt) (s : State) : Host.Outcome State Fault Refusal :=
  onPacket p 0x60 s fun ref pl t => (t.onDevice fun v => v.setHost (field pl 0 8) t.nv.cal.bytes).replyFree ref OK
/-- CAL_WRITE (R396): `set` is what the host's buffer holds. -/
def execCalWrite (p : Pkt) (set : List Byte) (s : State) : Host.Outcome State Fault Refusal :=
  onPacket p 0x61 s fun ref _ t => t.calWrite ref set
/-- CAL_RESTORE (R397). -/
def execCalRestore (p : Pkt) (s : State) : Host.Outcome State Fault Refusal := devPacket p 0x62 s fun ref _ v => v.calRestore ref
/-- CAL_RESTORE_DONE (R397). -/
def execCalRestoreDone (s : State) : Host.Outcome State Fault Refusal := if s.dev.halted then .next s else .next s.calRestored

end Sys2Proof.Machine
end

