-- ==== Sys2Proof/Machine/Frame.lean ====
section
/-! DEFINITION. The frame: ticks and their sources, the frame-boundary effects in their order, overruns and the start of a
step (spec/01 R19 to R30; spec/04 R130, R132; spec/08 R217, R230; spec/10 R276, R290, R291). -/

namespace Sys2Proof.Machine

namespace Device

/-- The unit code of the frame block (R377). -/
def frmUnit : W16 := unitCode 0x0C 4
def allDies : List Die := [0, 1, 2, 3]

/-! ## The end of a step (R19, R29, R146, R189, R294) -/

/-- No tile of the program is open, draining or still to start. -/
def tilesDone (d : DieState) : Bool :=
  d.mitts.all fun m => m.2.jobs == [] && m.2.tiles.all fun t => t.purpose != .job

/-- No tap row waits, and no tap tile of the step is still to drain. -/
def tapsDone (c : Cuff) : Bool :=
  let empty (h : Half) : Bool := h.state == .free || (h.state == .issuing && h.left == 0)
  c.held == [] && empty c.h0 && empty c.h1

/-- A die whose solves the step waits for: under STRETCH, and under a replay. -/
def waitsForSolves (s : Device) (d : Die) : Bool := s.fld R.FRM_CTL_POLICY == 0 || s.replaying d

/-- The step in progress has ended (R19, R29, R189, R294); `issued` says that its program has issued all of it (log entry 11). -/
def stepEnded (s : Device) (issued : Bool) : Bool :=
  issued && s.outgoingDone && s.gateOpen && s.fab.copyDue == [] && allDies.all fun d =>
    tilesDone (s.die d) && tapsDone (s.cuff d) && s.palmIdle d && (!s.waitsForSolves d || s.solvesEnded d)

/-- Once a step's work is complete, rows that the last of its instructions left in a filling half close its batch (R146; log entry 11). -/
def closeBatches (s : Device) : Device := allDies.foldl (fun s d => s.closeFilling d) s

/-- Outgoing tensors that their peers have acknowledged (R19). -/
def acknowledged (s : Device) (xs : List Outgoing) : Device :=
  s.onFab fun f => { f with outgoing := f.outgoing.filter fun x => !xs.contains x }

/-! ## Order 4 (R26, R230, R290, R291) -/

/-- EFFECTIVE is evaluated again; LOST sets when it falls during a job. -/
def reEvaluate (s : Device) : Device :=
  let was := s.flag R.GLB_DET_EFFECTIVE
  let now := s.effective
  let s := s.setFld R.GLB_DET_EFFECTIVE (b2n now)
  if was ∧ ¬ now ∧ s.jobRuns then s.setFld R.GLB_DET_LOST 1 else s

/-- The commits whose safe point is the frame boundary. A commit of the FRM group whose SRC is not refused names its tick source again
(R20, R23). -/
def frameCommits (s : Device) : Device :=
  let named := s.unitPends 1 0 0 && bitsOf (s.regs.pendAt R.FRM_CTL).val.toNat (R.FRM_CTL_SRC.lo + 1) R.FRM_CTL_SRC.lo != 3
  let s := s.applyUnit 1 0 0
  let s := if named then (s.onFrm fun f => { f with stay := false, onTimer := false, replaceable := false, afresh := f.onTimer }).onFab
    fun f => { f with oldMaster := none } else s
  let s := allDies.foldl (fun s d => (s.applyUnit 4 d 0).applyUnit 8 d 0) s
  ((s.applyUnit 9 0 0).applyUnit 10 0 0).reEvaluate

/-! ## Orders 5 and 6 (R131, R132, R328, R331) -/

/-- FRM_COUNT as a reply's result. -/
def tickNo (s : Device) : Nat := s.frm.count.toNat % 2 ^ 48

/-- A yield becomes visible, and its commands are answered. -/
def showYield (s : Device) : Device :=
  let waiting := s.cmd.yieldPend
  if waiting = [] then s
  else
    let n := BitVec.ofNat 64 s.tickNo
    let s := (s.onCmd fun c => { c with yieldPend := [], yieldSeen := true, yieldFrm := n }).onJob fun j => { j with yieldSeen := true }
    waiting.foldl (fun s r => s.reply r OK s.tickNo) s

/-- Leaves take their sequences out, and the joins they withdrew end. -/
def applyLeaves (s : Device) : Device :=
  let ls := s.cmd.leaves
  let out := s.cmd.joins.filter (·.withdrawn)
  let s := s.onCmd fun c =>
    let stays (a : Admitted) : Bool := !ls.any fun l => l.sid == a.sid
    { c with leaves := [], admitted := c.admitted.filter stays, joins := c.joins.filter fun j => !j.withdrawn }
  let s := out.foldl (fun s j => s.replyFree j.ref SEQ_WITHDRAWN) s
  ls.foldl (fun s l => s.reply l.ref OK s.tickNo) s

/-- The cost that a list of region costs puts on a region. -/
def costOn (d : Die) (k : Fin 8) (cs : List (Die × Fin 8 × Nat)) : Nat :=
  ((cs.filter fun (c : Die × Fin 8 × Nat) => c.1 == d && c.2.1 == k).map fun (c : Die × Fin 8 × Nat) => c.2.2).sum

/-- The budget in force of a region, in bytes. -/
def budget (s : Device) (d : Die) (k : Fin 8) : Nat := s.fld (regionFld R.HBX_BUDGET_MIB d k.val) * 2 ^ 20
/-- The admitted cost of a region. -/
def admittedCost (s : Device) (d : Die) (k : Fin 8) : Nat := (s.cmd.admitted.map fun a => costOn d k a.costs).sum

/-- A join whose cost alone exceeds a budget; a join that fits now. -/
def costExceeds (s : Device) (j : Join) : Bool :=
  j.costs.any fun (c : Die × Fin 8 × Nat) => decide (costOn c.1 c.2.1 j.costs > s.budget c.1 c.2.1)
def costFits (s : Device) (j : Join) : Bool :=
  j.costs.all fun (c : Die × Fin 8 × Nat) => decide (s.admittedCost c.1 c.2.1 + costOn c.1 c.2.1 j.costs ≤ s.budget c.1 c.2.1)

/-- One join, `blocked` saying that one before it was deferred. One of a sequence that is still admitted is a duplicate (R328). -/
def tryJoin (z : Device × Bool) (j : Join) : Device × Bool :=
  let (s, blocked) := z
  if s.isAdmitted j.sid then (s.replyFree j.ref SEQ_DUPLICATE, blocked)
  else if s.costExceeds j then (s.replyFree j.ref COST_EXCEEDS, blocked)
  else if ¬ blocked ∧ s.costFits j then
    let s := s.onCmd fun c => { c with admitted := c.admitted ++ [{ sid := j.sid, costs := j.costs }] }
    (s.reply j.ref ADMITTED s.tickNo, false)
  else
    let ds := (j.costs.map fun (c : Die × Fin 8 × Nat) => c.1).eraseDups
    let s := ds.foldl (fun s d => (s.event (R.HBX_STAT_DEFER.die d)).count (R.HBX_DEFER_CNT_COUNT.die d) 1) s
    (s.onCmd fun c => { c with joins := c.joins ++ [j] }, true)

/-- Order 6. At the tick that ends a job no join is taken (R323). -/
def admission (s : Device) (joins : Bool) : Device :=
  let s := s.applyLeaves
  if ¬ joins then s
  else
    let js := s.cmd.joins
    (js.foldl tryJoin (s.onCmd fun c => { c with joins := [] }, false)).1

/-! ## Order 7 (R67, R130, R217, R286, R322) -/

/-- The 128 bytes a watch record holds when its step starts. -/
def freshRecord (step : W32) : List Byte :=
  List.replicate 0x40 0 ++ leBytes 4 step.toNat ++ List.replicate 0x14 0 ++ [0x80, 0x80, 0x80] ++ List.replicate 37 0

/-- Each die's share of a tick, until the job has ended (R323). -/
def diesOn (s : Device) (f : Device → Die → Device) : Device := allDies.foldl (fun s d => s.whileOn fun s => f s d) s

/-- The watch table of the step that starts is cleared and stamped. -/
def stampWatch (s : Device) (d : Die) : Device :=
  let a := s.watchRecord d s.frm.step.toNat 0
  s.recording (visorUnit d) [(.near, a, 128 * 16384)] fun s =>
    s.writeBytes .near a (List.replicate 16384 (freshRecord s.frm.step)).flatten

/-- Histogram records of HIST_MODE 0 are cleared. -/
def clearHistograms (s : Device) : Device :=
  s.frm.histClears.foldl (fun s a => s.recording (addersAt a) [(.near, a, 0x110)] fun s =>
    s.setMemory .near (s.mem.near.clear a 0x110)) s

/-- A step starts; `switched` says that the epoch has just changed, so that no late key is open (R291). -/
def stepStart (s : Device) (j : Job) (switched : Bool) : Device :=
  let ended := if j.fresh then none else some s.frm.step
  let step := if j.fresh then j.desc.first else s.frm.step + 1
  let s := s.onFrm fun f => { f with step, stepRun := true, overran := false }
  let s := s.onJob fun j => { j with fresh := false, lastStarted := some step }
  let s := s.clearHistograms
  let s := s.onFab fun f =>
    { f with skippedPrev := f.skippedNow, skippedNow := [], cutoffDone := false, abandoned := [], begun := [], outgoing := [], asked := [], passed := [], copied := [] }
  let frozen := s.readFrozen
  let s := s.onFab fun f => { f with frozen := frozen }
  let s := s.diesOn fun s d => (((s.stampWatch d).discardLeftover d).cuffStepStart d ended).onPalm d fun p => { p with seen := [] }
  (s.diesOn gntStepStart).whileOn fun s => s.sendLeaving.openShards (!switched)

/-! ## The tick (R24, R26 to R29, R323) -/

/-- FRM_COUNT, TICK_OUT and vector 5; a tick master's tick goes out (R24, R276, R300). -/
def pulse (s : Device) : Device :=
  let s := s.onFrm fun f => { f with count := f.count + 1, tickOut := true, since := 0, replaceable := false }
  let s := if s.flag R.CMD_CTL_TICK_IRQ then s.raise 5 else s
  let s := if s.master = some s.selfIdx then s.send (.tick s.frm.count) else s
  s.countLost

/-- A tick that passes while the step runs (R28, R29). -/
def overrun (s : Device) : Device :=
  let s := if s.frm.overran then s else
    (((s.eventCount R.FRM_STAT_OVERRUN_CNT).count R.FRM_OVERRUN_JOB_COUNT 1).onFrm fun f => { f with overran := true }).post
      0x0101 1 frmUnit (BitVec.ofNat 64 (s.frm.step.toNat + s.frm.count.toNat * 2 ^ 32))
  let s := s.eventCount R.FRM_STAT_SKIPPED_CNT
  if s.fld R.FRM_CTL_POLICY = 1 then s.diesOn gntDeadline else s

/-- The status with which the job ends at this tick, if it does: a JEND, or its last step. -/
def endsHere (s : Device) (j : Job) : Option W16 := match j.jend with
  | some .release => some JOB_RELEASED
  | some .done => some JOB_DONE
  | none =>
    if ¬ j.fresh ∧ j.desc.limit ≠ 0 ∧ (s.frm.step - j.desc.first).toNat + 1 ≥ j.desc.limit.toNat then some JOB_DONE else none

/-- Orders 1 to 4 at the tick that ends a step. An error that ends the job there leaves the step unpublished and only the commits due at
any tick to be applied (R323). -/
def boundary (s : Device) : Device × Bool :=
  let s := if s.fld R.FRM_CTL_POLICY = 1 ∧ ¬ s.frm.overran then s.diesOn gntDeadline else s
  let s := s.noteRoots.diesOn gntCommit
  let s := (s.whileOn fun s => s.releasePins.rejoin).whileOn fun s => s.publishAll
  if s.cmd.dstate = .running then
    (s.onJob fun j => { j with steps := j.steps + 1, lastEnded := some s.frm.step }).frameCommits.reshardTick
  else (s.frameCommits, false)

/-- Orders 5 to 7, or the end of the job; nothing where orders 1 to 4 have ended it. -/
def afterBoundary (s : Device) (switched : Bool) : Device := s.whileOn fun s => match s.cmd.job with
  | none => s
  | some j => match s.endsHere j with
    | some st => (s.admission false).endJob st 0
    | none =>
      let s := s.showYield.admission true
      s.stepStart j switched

/-- The effects of a tick. -/
def tick (s : Device) (done : ProgDone) : Device :=
  let s := s.pulse
  if s.cmd.dstate ≠ .running then s.frameCommits
  else
    let s := s.acknowledged done.acked
    let s := (if s.frm.stepRun ∧ done.issued then s.closeBatches else s).sendEnds
    if s.frm.stepRun ∧ ¬ s.stepEnded done.issued then s.overrun
    else if s.frm.stepRun then let z := s.boundary; z.1.afterBoundary z.2
    else s.frameCommits.afterBoundary false

/-! ## Sources (R20 to R23, R276, R428) -/

/-- The period in REFCLK_SYS cycles (R21). -/
def period (s : Device) : Nat := s.fld R.FRM_CTL_PERIOD_US * 100
/-- Ticks come from outside: this device is not the master of a fabric it follows. -/
def external (s : Device) : Bool := s.fld R.FRM_CTL_SRC ≠ 0 ∧ s.master ≠ some s.selfIdx

/-- The timer has given a tick in place of an external one, which may still replace it. With it the succession of a tick master that was
lost is over (R23, R276). -/
def inPlace (s : Device) : Device :=
  (s.onFrm fun f => { f with replaceable := f.onTimer }).onFab fun f => { f with oldMaster := none }

/-- A tick of the internal timer, or of the selected source; on the timer in place of an external source, the next
external tick may still replace it. -/
def frameTick (s : Device) (done : ProgDone) : Device :=
  if ¬ s.frm.started then s
  else if s.external ∧ s.frm.onTimer then (s.tick done).inPlace
  else s.tick done

/-- The selected external source gives no tick within 1.25 periods: the timer generates it, one period after the last one, and the device
continues on the timer, unless a commit at this tick names the source again (R23). -/
def tickLost (s : Device) (done : ProgDone) : Device :=
  if ¬ s.frm.started ∨ ¬ s.external ∨ s.frm.onTimer ∨ 4 * s.frm.since < 5 * s.fld R.FRM_CTL_PERIOD_US then s
  else
    let late := s.frm.since - s.fld R.FRM_CTL_PERIOD_US
    let s := (s.event R.FRM_STAT_TICK_LOST).post 0x0102 1 frmUnit (BitVec.ofNat 64 (s.frm.count.toNat + 1))
    let s := (s.onFrm fun f => { f with onTimer := true, afresh := false }).tick done
    (s.onFrm fun f => { f with since := late }).inPlace

/-- An external tick `cycles` after the last tick (R23, R428). While on the timer it is taken only within a tenth of a
period of an internal tick: before it, in its place; after it, the tick's time moves to it. The first one after the source has been
named again makes no frame shorter than 0.9 of a period either. -/
def externalTick (s : Device) (cycles : Nat) (spaced : Bool) (done : ProgDone) : Device :=
  let p := s.period
  if ¬ s.frm.started then s
  else if s.frm.onTimer then
    let before := decide (10 * cycles ≥ 9 * p) && decide (10 * cycles ≤ 11 * p)
    let after := decide (10 * cycles ≤ p) && s.frm.replaceable
    if ¬ before ∧ ¬ after then (s.event R.FRM_STAT_PHASE_ERR).onFrm fun f => { f with stay := true }
    else if s.frm.stay then s
    else if after then s.onFrm fun f => { f with onTimer := false, replaceable := false, since := 0 }
    else (s.onFrm fun f => { f with onTimer := false }).tick done
  else if (spaced ∨ s.frm.afresh) ∧ 10 * cycles < 9 * p then s.event R.FRM_STAT_PHASE_ERR
  else (s.onFrm fun f => { f with afresh := false }).tick done

/-- A recognised edge on TICK_IN: ignored unless SRC = 1 is in force. -/
def tickIn (s : Device) (cycles : Nat) (done : ProgDone) : Device :=
  if s.fld R.FRM_CTL_SRC = 1 then s.externalTick cycles true done else s

/-- A tick of the fabric's master, at the master's tick time. -/
def fabricTick (s : Device) (done : ProgDone) : Device :=
  if s.fld R.FRM_CTL_SRC = 2 ∧ s.external then s.externalTick (s.frm.since * 100) false done else s

end Device

/-- FRAME_TICK (R26). -/
def execFrameTick (done : ProgDone) (s : State) : Host.Outcome State Fault Refusal := onDev s fun v => v.frameTick done
/-- TICK_IN_EDGE (R428): `cycles` of REFCLK_SYS after the last tick. Edges are lost while a test instruction holds the pins
(R436). -/
def execTickInEdge (cycles : Nat) (done : ProgDone) (s : State) : Host.Outcome State Fault Refusal :=
  onDev s fun v => if s.tap.holds then v else v.tickIn cycles done
/-- FABRIC_TICK (R22). -/
def execFabricTick (done : ProgDone) (s : State) : Host.Outcome State Fault Refusal := onDev s fun v => v.fabricTick done
/-- TICK_LOST (R23). -/
def execTickLost (done : ProgDone) (s : State) : Host.Outcome State Fault Refusal := onDev s fun v => v.tickLost done
/-- TICK_OUT_LOW (R24). -/
def execTickOutLow (s : State) : Host.Outcome State Fault Refusal := onDev s fun v => v.onFrm fun f => { f with tickOut := false }

end Sys2Proof.Machine
end

