-- ==== Sys2Proof/Machine/Reset.lean ====
section
/-! DEFINITION. Device resets, the release sequence, the Lining, the boot chain, supplies and reference clocks (spec/13 R359 to
R369; spec/15 R409, R410, R413; spec/16 R424, R425, R431). -/

namespace Sys2Proof.Machine

/-! ## The Lining (R367 to R369) -/

def liningSignature : Nat := 0x4C4E0001
/-- The areas of the table of R368 and the backup registers: offset, size. -/
def liningAreas : List (Nat × Nat) :=
  [(0, 16), (0x10, 128), (0x90, 112), (0x100, 256), (0x200, 64), (0x240, 448), (0x400, 1024), (0x800, 1024), (0xC00, 1024), (0x1000, 64)]

/-- One entry of the reset record: cause, DSTATE, FRM_COUNT and the running job's ID (log entry 58). -/
def resetEntry (s : Device) (cause : Nat) : List Byte :=
  leBytes 1 cause ++ leBytes 1 s.cmd.dstate.code ++ leBytes 6 s.frm.count.toNat
    ++ leBytes 8 (match s.cmd.job with | none => 0 | some j => j.desc.id.toNat)

namespace Device

/-- The recovery sequencer records a reset, newest first, and counts it in BK8. -/
def recordReset (s : Device) (cause : Nat) : Device :=
  (s.setLining 0x10 (resetEntry s cause ++ s.lining.readBytes 0x10 112)).setBk 8 (s.bk 8 + 1)

/-- A lifecycle change wipes the Lining; the signature and the wipe count stay (log entry 57). -/
def wipeLining (s : Device) : Device :=
  let wipes := s.lining.readLE 4 4
  { s with lining := ((Memory.writeLE [] 0 4 liningSignature).writeLE 4 4 (wipes + 1)).writeLE 8 4 (s.lining.readLE 8 4) }

/-- An uncorrectable word clears its area. -/
def clearArea (s : Device) (i : Nat) : Device := match liningAreas[i]? with
  | some (a, n) => ({ s with lining := s.lining.clear a n }).post 0x0505 1 (unitCode 0x14 4) (BitVec.ofNat 64 a)
  | none => s

/-- The check at release. Where the signature is not there VAUX has been lost, which the header counts (R367, R368; log entry 57). -/
def checkLining (s : Device) (bad : List Nat) : Device :=
  let s := bad.foldl clearArea s
  if s.lining.readLE 0 4 = liningSignature then s
  else ({ s with lining := (Memory.writeLE [] 0 4 liningSignature).writeLE 8 4 (s.lining.readLE 8 4 + 1) }).setFld R.GLB_RST_STAT_LINING_INIT 1

/-! ## Entering reset (R359, R361) -/

/-- The device in reset: everything at its reset value but what the table of R359 keeps; over a host link that stays up the change of
DSTATE raises vector 6 (R300). Over it the configuration space stays as it is too. A warm reset also keeps the verified copies of the boot
slot's images. What has gone out of the device, its host's memory and the counters of free values are not the device's. -/
def inResetFrom (s : Device) (cause : Nat) : Device :=
  let host := decide (cause ≥ 2)
  let warm := decide (cause = 3)
  let told := if host then s.setDState .notReady else s
  let cmd : Command :=
    { linkUp := host && s.cmd.linkUp, linkWidth := if host then s.cmd.linkWidth else 0, linkRate := if host then s.cmd.linkRate else 0,
      msix := told.cmd.msix, pcie := if host then s.cmd.pcie else {} }
  { cmd, lining := s.lining, cause, hostMem := s.hostMem, clockUs := s.clockUs, freeCnt := s.freeCnt, offBus := s.offBus,
    store := if warm then s.store else [], keys := warm && s.keys }

end Device

/-- A device reset begins. -/
def State.beginReset (t : State) (cause : Nat) : State := t.onDevice fun s => (s.recordReset cause).inResetFrom cause

/-! ## Release (R364, R413) -/

/-- SEC_LC_NONCE is renewed from the entropy source (R417). -/
def State.renewNonce (t : State) : State :=
  { t with nv := { t.nv with draws := t.nv.draws + 1 }, dev := { t.dev with nonce := Config.entropy t.nv.draws } }

/-- A word cut off while it was blown. -/
def cutOff (n : Nat) : Bool := decide (0 < n) && decide (n < 24)

/-- The ROM completes every such word, and the wipe of the state it names runs, the Lining first. -/
def State.repairFuses (t : State) : State :=
  if t.nv.words.toList.any cutOff then
    let t := t.onNv fun n =>
      { n with words := n.words.map fun w => if cutOff w then 32 else w, uds := if cutOff n.words.q3 then none else n.uds }
    t.onDevice fun s =>
      ((s.wipeLining.event R.SEC_STAT_FUSE_REPAIRED).post 0x0703 1 (unitCode 0x15 4) 0).wipeDies.wipeWhole
  else t

/-- The calibration set is checked and taken (R395). -/
def State.takeCal (t : State) : State :=
  let c := t.nv.cal
  if c.intact then
    t.onDevice fun s => { s with calUse := { factory := c.factory, recal := c.recal, user := c.user, offsets := c.offsets } }
  else t.onDevice fun s => { s with calUse := { invalid := true } }.post 0x0605 1 (procUnit .crown) 0

namespace Device

/-- The clamp is armed, the bucket full, no emergency behind it. -/
def armPower (s : Device) : Device :=
  s.onPwr fun p => { p with clamp := true, bucket := s.bucketMax * 10 ^ 7, quietUs := 100000 }

/-- All four processors start, each from its image in the firmware store; Crown's start ends the clamp cause CROWN (R391). -/
def startProcessors (s : Device) : Device :=
  let s := ([0, 1, 2, 3] : List (Fin 4)).foldl (fun s p =>
    s.setProc p { up := true, code := image s.store p.val, readyUs := s.clockUs }) s
  (s.setCause 0 false).flushAll

/-- A verified bundle is the one in the store and the one that runs. -/
def runBundle (s : Device) (b : List Byte) : Device :=
  { s with booting := false, store := b, images := measurements b, running := b }.startProcessors

end Device

/-- RESET_N as the core sees it: while a test instruction holds the pins it stays as it was (R436). -/
def State.seesReset (t : State) (high : Bool) : State := if t.tap.holds then t else { t with resetHigh := t.resetHigh || high }

/-- REFCLK_SYS runs again: a RESET_N that had gone low without it is now recognised (R360, R431; log entry 178). -/
def State.clockReturns (t : State) : State :=
  let u := { t with refclk := true }
  if t.refclk ∨ t.resetHigh ∨ ¬ t.rails ∨ t.tap.holds then u else u.beginReset 1

/-- What a release needs: the supplies, REFCLK_SYS, and RESET_N high (R360, R425). -/
def State.mayRelease (t : State) : Bool := t.dev.inReset && t.vaux && t.rails && t.refclk && t.resetHigh

/-- RESET_RELEASE: domains released, Lining checked, fuses read, the wipe begun; after a warm reset the processors start from the
copies of the boot slot already verified, else the boot chain is to run. -/
def State.release (t : State) (x : Release) : State :=
  let t := (if x.clock then t.clockReturns else t).seesReset x.high
  if ¬ t.mayRelease then t
  else
    let t := t.onDevice fun s => ({ s with inReset := false }.checkLining x.badLining).setFld R.GLB_RST_STAT_CAUSE s.cause
    let t := t.repairFuses.takeCal.renewNonce
    let t := t.onDevice fun s => s.armPower.beginWipe none
    if t.dev.cause = 3 ∧ t.dev.store ≠ [] then t.onDevice fun s => s.runBundle s.store
    else t.onDevice fun s => { s with booting := true }

/-! ## The boot chain (R409, R410) -/

/-- The slot that is not `k`. -/
def otherSlot (k : Nat) : Nat := if k = 0 then 1 else 0

/-- A slot is booted: its images measured and loaded, the keys derived where the device has its secret, the processors
started. -/
def State.bootSlot (t : State) (k : Nat) : State :=
  let t := t.onNv fun n => { n with boot := k, noBoot := false }
  t.onDevice fun s => { s with keys := t.nv.uds.isSome }.runBundle (t.nv.slot k)

/-- Neither slot verifies: no processor starts, and the device holds. -/
def State.bootFailed (t : State) : State :=
  let t := t.onNv fun n => { n with noBoot := true }
  t.onDevice fun s => { s with booting := false }.enterHold (unitCode 0x15 4) 0 0x0702 0x0702

/-- BOOT_VERIFY. Where the last reset left no boot slot (R410), booting the other slot is no fallback (log entry 51). -/
def State.bootVerify (t : State) : State :=
  if ¬ t.dev.booting then t
  else
    let k := t.nv.boot
    if t.nv.verifies k then t.bootSlot k
    else if t.nv.verifies (otherSlot k) then
      let fell := !t.nv.noBoot
      let t := t.bootSlot (otherSlot k)
      if fell then t.onDevice fun s => ({ s with fellBack := true }.event R.SEC_STAT_BOOT_FALLBACK).post 0x0701 1 (unitCode 0x15 4) 0 else t
    else t.bootFailed

/-! ## Host resets (R314, R361) -/

/-- RESET: the payload says which of the two resets begins; it posts no reply. Without REFCLK_SYS it takes no effect (R360). -/
def State.hostReset (t : State) (ref : PktRef) (pl : List Byte) : State :=
  let v := leVal pl
  if v > 1 then t.replyFree ref BAD_FIELD else if ¬ t.refclk then t else t.beginReset (if v = 1 then 2 else 3)

/-! ## Supplies (R424, R425) -/

/-- One row of the power-up order (R425; log entry 178): VAUX rises, which starts the TAP in Test-Logic-Reset; VIN rises where VAUX is
good, and brings the core rails. -/
def State.powerOn (t : State) : State :=
  if ¬ t.vaux then { t with vaux := true, tap := {} }.busHeld else { t with rails := true }

/-- The core rails go down: a power-on reset, the Lining kept. -/
def State.vinShutdown (t : State) : State := if t.rails then { t.beginReset 0 with rails := false } else t

/-- Everything stops, and the Lining is lost. -/
def State.vauxLoss (t : State) : State :=
  { t with vaux := false, rails := false, tap := {}, dev := { t.dev.inResetFrom 0 with lining := [] } }.busHeld

/-- RESET_N is low (R360), unless a test instruction holds the pins (R436). It is recognised on edges of REFCLK_SYS; a device in
power-on reset stays in that one. -/
def State.resetN (t : State) : State :=
  if t.tap.holds then t
  else
    let u := { t with resetHigh := false }
    if ¬ t.rails ∨ ¬ t.refclk then u else u.beginReset 1

/-- HOST_COLD_RESET (R314): the packet's payload says which reset it is. -/
def execHostColdReset (p : Pkt) (s : State) : Host.Outcome State Fault Refusal := onPacket p 0x03 s fun ref pl t => t.hostReset ref pl
/-- HOST_WARM_RESET (R314): the packet's payload says which reset it is. -/
def execHostWarmReset (p : Pkt) (s : State) : Host.Outcome State Fault Refusal := onPacket p 0x03 s fun ref pl t => t.hostReset ref pl
/-- POWER_ON (R425). -/
def execPowerOn (s : State) : Host.Outcome State Fault Refusal := .next s.powerOn
/-- RESET_N_ASSERT (R360). -/
def execResetNAssert (s : State) : Host.Outcome State Fault Refusal := .next s.resetN
/-- RESET_RELEASE (R364). -/
def execResetRelease (x : Release) (s : State) : Host.Outcome State Fault Refusal := .next (s.release x)
/-- BOOT_VERIFY (R409). -/
def execBootVerify (s : State) : Host.Outcome State Fault Refusal := if s.dev.inReset then .next s else .next s.bootVerify
/-- VIN_SHUTDOWN (R424). -/
def execVinShutdown (s : State) : Host.Outcome State Fault Refusal := .next s.vinShutdown
/-- VAUX_LOSS (R424). -/
def execVauxLoss (s : State) : Host.Outcome State Fault Refusal := .next s.vauxLoss
/-- REFCLK_PCIE_LOST (R431): the host link goes down. -/
def execRefclkPcieLost (s : State) : Host.Outcome State Fault Refusal := onManagement s fun v => v.linkDown_
/-- REFCLK_CXL_LOST (R431): CXL port `p` goes down under R257. -/
def execRefclkCxlLost (p : Fin 2) (s : State) : Host.Outcome State Fault Refusal := onManagement s fun v => v.farDown p
/-- REFCLK_WASHA_LOST (R431): the eight ports of one I/O die go silent. -/
def execRefclkWashaLost (x : Losing (Fin 2)) (s : State) : Host.Outcome State Fault Refusal :=
  onManagement s fun v => (List.range 8).foldl (fun v i => v.portDown' (8 * x.subject.val + i) x.waits) v

end Sys2Proof.Machine
end

