-- ==== Sys2Proof/Machine/Security.lean ====
section
/-! DEFINITION. Attestation and lifecycle requests (spec/15 R405 to R407, R412 to R417). -/

namespace Sys2Proof.Machine

/-! ## Device keys (R407; what the alias certificate covers: log entry 52) -/

/-- Lifecycle state, boot slot and the four image measurements. -/
def aliasFields (t : State) : List Byte :=
  leBytes 1 t.nv.lifecycle.code ++ leBytes 1 t.nv.boot ++ t.dev.images.flatMap digestBytes
def udsBytes (n : Nv) : List Byte := digestBytes (n.uds.getD 0)
def identitySeed (t : State) : BitVec 256 := Shake.digest (0x04 :: udsBytes t.nv)
def aliasSeed (t : State) : BitVec 256 := Shake.digest (0x03 :: (udsBytes t.nv ++ aliasFields t))
/-- A key or a signature in its field. -/
def keyField (k : List Byte) : List Byte := part k 0 1793 ++ List.replicate 7 0
def signField (x : List Byte) : List Byte := part x 0 1280

/-! ## ATTEST (R412) -/

def reportLength : Nat := 7728

/-- The signed part of a report. -/
def reportBody (t : State) (nonce : List Byte) : List Byte :=
  let s := t.dev
  let m := s.running
  let alias_ := Config.falconPublic (aliasSeed t)
  leBytes 2 1 ++ leBytes 2 0 ++ leBytes 4 reportLength ++ part nonce 0 32 ++ leBytes 8 Config.deviceId.toNat
    ++ leBytes 1 t.nv.lifecycle.code ++ leBytes 1 (gradeCode Config.grade) ++ leBytes 1 (s.fld R.GLB_ID_ARITH_REV)
    ++ leBytes 1 Config.stepping.toNat ++ leBytes 6 (bundleVersion m) ++ leBytes 1 t.nv.boot
    ++ leBytes 1 (Device.packBits [s.calUse.factory, rootSlot m == 1, s.fellBack, s.testLoaded]) ++ leBytes 4 Config.seqRevision.toNat
    ++ part (s.images.flatMap digestBytes) 0 128 ++ digestBytes t.nv.cal.digest ++ digestBytes ((t.nv.fusedRoot (rootSlot m)).getD 0)
    ++ leBytes 8 s.frm.count.toNat ++ leBytes 4 s.restarts ++ leBytes 4 (s.bk 8)
    ++ leBytes 8 (match s.cmd.job with | none => 0 | some j => j.desc.id.toNat) ++ leBytes 8 0
    ++ keyField alias_ ++ signField (Config.falconSign (identitySeed t) (Shake.digest (0x03 :: (aliasFields t ++ alias_))))
    ++ keyField (Config.falconPublic (identitySeed t)) ++ signField t.nv.idCert

def report (t : State) (nonce : List Byte) : List Byte :=
  let b := reportBody t nonce
  b ++ signField (Config.falconSign (aliasSeed t) (Shake.digest b))

def State.attest (t : State) (ref : PktRef) (pl : List Byte) : State :=
  let addr := field pl 32 8
  if t.nv.lifecycle = .test ∨ t.nv.lifecycle = .end_ then t.replyFree ref LIFECYCLE_DENIED
  else if addr % 64 ≠ 0 then t.replyFree ref BAD_FIELD
  else (t.onDevice fun s => s.setHost addr (report t (pl.take 32))).reply ref OK reportLength

/-! ## Lifecycle requests (R415 to R417) -/

inductive LcOp where
  | advance | installIdCert | revokeRoot0 | raiseMinSv
  deriving DecidableEq, Repr

def LcOp.of : Nat → Option LcOp
  | 1 => some .advance
  | 2 => some .installIdCert
  | 3 => some .revokeRoot0
  | 4 => some .raiseMinSv
  | _ => none

def Lifecycle.of : Nat → Option Lifecycle
  | 0 => some .test
  | 1 => some .provision
  | 2 => some .field
  | 3 => some .ret
  | 4 => some .end_
  | _ => none

/-- The transitions of R415. -/
def Lifecycle.mayAdvance (old target : Lifecycle) (certInstalled : Bool) : Bool := match old, target with
  | .test, .provision => true
  | .provision, .field => certInstalled
  | .field, .ret => true
  | .end_, .end_ => false
  | _, .end_ => true
  | _, _ => false

/-- A request's fields (R416). -/
structure Request where
  op : Option LcOp
  target : Nat
  arg : Nat
  len : Nat
  data : List Byte
  deriving DecidableEq, Repr

def requestOf (pl : List Byte) : Request :=
  let len := field pl 0x30 2
  { op := LcOp.of (field pl 2 1), target := field pl 3 1, arg := field pl 4 4, len, data := part pl 0x40 len }

namespace State

/-- The first check: signature by the lifecycle key of the running bundle, device ID and nonce. -/
def requestSigned (t : State) (pl : List Byte) : Bool :=
  let n := 0x40 + field pl 0x30 2
  decide (n + 1280 ≤ pl.length) &&
    Falcon.verify (lifecycleKey t.dev.running) (digestBytes (Shake.digest (pl.take n))) (part pl n 1280) &&
    field pl 8 8 == Config.deviceId.toNat && digestAt pl 0x10 == t.dev.nonce

/-- The second check: the operation is allowed. MIN_SV is a thermometer of 64 fuses and goes no higher (log entry 61). -/
def requestAllowed (t : State) (r : Request) : Bool :=
  let m := t.dev.running
  match r.op with
  | none => false
  | some .advance => match Lifecycle.of r.target with
    | some l => t.nv.lifecycle.mayAdvance l (t.nv.idCert != [])
    | none => false
  | some .installIdCert => t.nv.lifecycle == .provision && t.nv.idCert == []
  | some .revokeRoot0 => t.nv.lifecycle == .field && rootSlot m == 1
  | some .raiseMinSv => decide (t.nv.minSv < r.arg) && decide (r.arg ≤ securityVersion m) && decide (r.arg ≤ 64)

/-- The data length an operation takes. -/
def requestLength (r : Request) : Nat := match r.op with
  | some .installIdCert => 1280
  | some .advance => if r.target = 1 then 64 else 0
  | _ => 0

/-- The third check: lengths, the format and the zero fields. -/
def requestShaped (r : Request) (pl : List Byte) : Bool :=
  field pl 0 2 == 1 && r.len == requestLength r && pl.length == 0x40 + r.len + 1280 && zeros pl 0x32 14 &&
    (r.op == some .advance || r.target == 0) && (r.op == some .raiseMinSv || r.arg == 0)

/-- The fuse word of a state is blown, with what R415 programs beside it. -/
def program (t : State) (target : Lifecycle) (data : List Byte) : State :=
  match target with
  | .test => t
  | .provision =>
    (t.onNv fun n => { n with
      words := n.words.set 0 32, uds := some (Config.entropy n.draws), draws := n.draws + 1,
      root0 := some (digestAt data 0), root1 := some (digestAt data 32) })
  | .field => t.onNv fun n => { n with words := n.words.set 1 32 }
  | .ret => t.onNv fun n => { n with words := n.words.set 2 32 }
  | .end_ => t.onNv fun n => { n with words := n.words.set 3 32, uds := none }

/-- An accepted request programs its fuses or stores its certificate, and replies OK; an ADVANCE then wipes, the Lining first,
and ends in a cold reset. -/
def accept (t : State) (ref : PktRef) (r : Request) : State :=
  let done (t : State) : State := t.reply ref OK t.nv.lifecycle.code
  match r.op with
  | some .advance =>
    let t := done (t.program ((Lifecycle.of r.target).getD .test) r.data)
    (t.onDevice fun s => (s.wipeLining.beginWipe none).wipeDies.wipeWhole).beginReset 2
  | some .installIdCert => done (t.onNv fun n => { n with idCert := r.data })
  | some .revokeRoot0 => done (t.onNv fun n => { n with root0Revoked := true })
  | some .raiseMinSv => done (t.onNv fun n => { n with minSv := r.arg })
  | none => t

/-- A LIFECYCLE request that Peak took: answered with the first failure, or accepted. -/
def request (t : State) (ref : PktRef) (pl : List Byte) : State :=
  let r := requestOf pl
  let c := t.dev.cmd
  if c.dstate ≠ .ready ∨ c.queue ≠ [] ∨ c.activation.isSome ∨ c.calRestore.isSome then t.replyFree ref WRONG_STATE
  else if ¬ t.requestSigned pl then (t.onDevice Device.sigReject).replyFree ref SIGNATURE_BAD
  else if ¬ t.requestAllowed r then t.replyFree ref LIFECYCLE_DENIED
  else if ¬ requestShaped r pl then t.replyFree ref BAD_FIELD
  else t.accept ref r

/-- Peak takes the packet as a LIFECYCLE command, accepted or refused. -/
def takesLifecycle (t : State) (p : Pkt) : Bool :=
  p.strange.isNone && t.dev.packetDue p && p.readOk && !t.dev.badPacket p && p.seq == (t.dev.ring p.ring).expect

/-- A LIFECYCLE packet; the nonce is renewed after it. The payload says which operation it asks for. -/
def lifecyclePacket (t : State) (p : Pkt) : State :=
  let u := t.packet p 0x71 fun ref pl t => t.request ref pl
  if t.takesLifecycle p then u.renewNonce else u

end State

/-- A LIFECYCLE packet, while the core logic runs. -/
def onLifecycle (p : Pkt) (s : State) : Host.Outcome State Fault Refusal :=
  if s.dev.halted then .next s else .next (s.lifecyclePacket p)

/-- ATTEST (R412). -/
def execAttest (p : Pkt) (s : State) : Host.Outcome State Fault Refusal := onPacket p 0x70 s fun ref pl t => t.attest ref pl
/-- ADVANCE (R415). -/
def execAdvance (p : Pkt) (s : State) : Host.Outcome State Fault Refusal := onLifecycle p s
/-- INSTALL_ID_CERT (R417). -/
def execInstallIdCert (p : Pkt) (s : State) : Host.Outcome State Fault Refusal := onLifecycle p s
/-- REVOKE_ROOT0 (R417). -/
def execRevokeRoot0 (p : Pkt) (s : State) : Host.Outcome State Fault Refusal := onLifecycle p s
/-- RAISE_MIN_SV (R417). -/
def execRaiseMinSv (p : Pkt) (s : State) : Host.Outcome State Fault Refusal := onLifecycle p s

end Sys2Proof.Machine
end

