-- ==== Sys2Proof/Machine/TapPort.lean ====
section
/-! DEFINITION. The TAP, and what the output pins show (spec/13 R363, R375; spec/15 R414; spec/16 R426, R434 to R436). It runs
from VAUX, so that a reset does not touch it. -/

namespace Sys2Proof.Machine

/-- What a pin the device drives shows. -/
inductive Level where
  | low | high | highZ
  deriving DecidableEq, Repr

def levelOf (b : Bool) : Level := if b then .high else .low
/-- An open-drain pin released, or pulled low. -/
def openDrain (b : Bool) : Level := if b then .highZ else .low

/-- The level of a pin that the device drives. -/
def Level.driven : Level → Option Bool
  | .low => some false
  | .high => some true
  | .highZ => none

namespace State

/-- The pins follow the boundary register: EXTEST and CLAMP. -/
def scanned (t : State) : Bool := t.tap.ir == 0x00 || t.tap.ir == 0x04
def cell (t : State) (i : Nat) : Bool := t.tap.boundary.getLsbD i

/-- TICK_OUT: an output once READY has been reached, with which the frame timer starts (R363, R364). -/
def tickOutPin (t : State) : Level :=
  if t.scanned then (if t.cell 4 then levelOf (t.cell 3) else .highZ)
  else if t.tap.ir = 0x08 ∨ t.dev.inReset ∨ ¬ t.dev.frm.started then .highZ else levelOf t.dev.frm.tickOut

/-- ALERT_N (R375). -/
def alertPin (t : State) : Level :=
  if t.scanned then openDrain (t.cell 5) else if t.tap.ir = 0x08 ∨ t.dev.inReset then .highZ else openDrain (!t.dev.alert)

/-- THERM_N (R392). -/
def thermPin (t : State) : Level :=
  if t.scanned then openDrain (t.cell 7) else if t.tap.ir = 0x08 ∨ t.dev.inReset then .highZ else openDrain (!t.dev.pwr.thermN)

/-- I3C_SCL, with cells 10 and 11: a target drives no clock, so that only the boundary register does (R401, R426, R435). -/
def sclPin (t : State) : Level := if t.scanned ∧ t.cell 11 then levelOf (t.cell 10) else .highZ

/-- I3C_SDA, with cells 13 and 14: between transfers, which a command is as a whole, the target releases it (R401, R426, R435). -/
def sdaPin (t : State) : Level := if t.scanned ∧ t.cell 14 then levelOf (t.cell 13) else .highZ

/-- TDO drives only while a register shifts, which a TAP command does as a whole; no instruction changes that (R426, R434; log
entry 27). -/
def tdoPin (_ : State) : Level := .highZ

/-! ## Instructions (R434, R436) -/

/-- The device identification register. -/
def idcodeValue : W32 := 0x1D900C3D

/-- What the instruction register captures. -/
def irCapture : Byte := 0x01

/-- What the boundary register captures: the device's own outputs and their controls, those of the I3C pins off, and the inputs of the
pins that the device, or the boundary register for it, drives; the other input cells are levels outside the device, and what the output
cell of a driver that is off captures is not stated: free values (log entry 9). -/
def captureCells (t : State) : BitVec 15 :=
  let free := (Config.freeWord t.dev.freeCnt).setWidth 15
  let drive := t.dev.frm.started && !t.dev.inReset
  let own : List (Nat × Bool) := [(3, t.dev.frm.tickOut), (4, drive), (5, t.dev.inReset || !t.dev.alert), (7, t.dev.inReset || !t.dev.pwr.thermN),
    (11, false), (14, false)]
  let pins : List (Nat × Level) := [(6, t.alertPin), (8, t.thermPin), (9, t.sclPin), (12, t.sdaPin)]
  let own := own ++ pins.filterMap fun x => x.2.driven.map fun b => (x.1, b)
  own.foldl (fun v x => if x.2 then v ||| BitVec.twoPow 15 x.1 else v &&& ~~~ BitVec.twoPow 15 x.1) free

def onTap (t : State) (f : Tap → Tap) : State := { t with tap := f t.tap }

/-- An instruction becomes current through a scan of the instruction register; `captured` is what its data register captures. -/
def loadIr (t : State) (op : Byte) (captured : W32) : State := t.onTap fun x => { x with ir := op, captured, irCaptured := irCapture }

/-- The data register is the boundary register. -/
def scanBoundary (t : State) : State :=
  let c := t.captureCells
  { t.onTap (fun x => { x with captured := c.setWidth 32 }) with dev := { t.dev with freeCnt := t.dev.freeCnt + 1 } }

/-- A Lumov test opcode. -/
def testOpcode (op : Byte) : Bool := decide (0x80 ≤ op.toNat) && op != 0xFF

/-- An opcode that acts as BYPASS (R414, R434). -/
def actsAsBypass (t : State) (op : Byte) : Bool :=
  !(op == 0x00 || op == 0x01 || op == 0x02 || op == 0x04 || op == 0x08) && !(testOpcode op && t.nv.debug)

/-- A Lumov test instruction; where the lifecycle state does not permit it, it acts as BYPASS. -/
def testInstruction (t : State) (op : Byte) : State :=
  if ¬ testOpcode op then t
  else if t.nv.debug then (t.loadIr op 0).onDevice fun s => { s with testLoaded := true }
  else t.loadIr op 0

/-- A data-register scan of the boundary register: under EXTEST and SAMPLE/PRELOAD. -/
def updateBoundary (t : State) (cells : BitVec 15) : State :=
  if t.tap.ir = 0x00 ∨ t.tap.ir = 0x02 then t.scanBoundary.onTap fun x => { x with boundary := cells } else t

end State

/-- A TAP command, while VAUX is good (R434); the instruction it leaves current says whether the I3C target has its bus (R436). -/
def onTap (s : State) (f : State → State) : Host.Outcome State Fault Refusal := if s.vaux then .next (f s).busHeld else .next s

/-- EXTEST (R436). -/
def execExtest (s : State) : Host.Outcome State Fault Refusal :=
  onTap s fun t => t.scanBoundary.onTap fun x => { x with ir := 0x00, irCaptured := State.irCapture }
/-- IDCODE (R434). -/
def execIdcode (s : State) : Host.Outcome State Fault Refusal := onTap s fun t => t.loadIr 0x01 State.idcodeValue
/-- SAMPLE/PRELOAD (R434): the pins are sampled, and `preload` shifted into the boundary register. -/
def execSamplePreload (preload : BitVec 15) (s : State) : Host.Outcome State Fault Refusal :=
  onTap s fun t => t.scanBoundary.onTap fun x => { x with ir := 0x02, boundary := preload, irCaptured := State.irCapture }
/-- CLAMP (R436). -/
def execClamp (s : State) : Host.Outcome State Fault Refusal := onTap s fun t => t.loadIr 0x04 0
/-- HIGHZ (R436). -/
def execHighz (s : State) : Host.Outcome State Fault Refusal := onTap s fun t => t.loadIr 0x08 0
/-- BYPASS (R434): 0xFF, or any opcode that acts as it. -/
def execBypass (opcode : Byte) (s : State) : Host.Outcome State Fault Refusal :=
  onTap s fun t => if t.actsAsBypass opcode then t.loadIr opcode 0 else t
/-- A Lumov test instruction (R414). -/
def execLumovTestInstruction (opcode : Byte) (s : State) : Host.Outcome State Fault Refusal := onTap s fun t => t.testInstruction opcode
/-- TEST_LOGIC_RESET (R436): IDCODE becomes current, with no scan. -/
def execTestLogicReset (s : State) : Host.Outcome State Fault Refusal :=
  onTap s fun t => t.onTap fun x => { x with ir := 0x01, captured := State.idcodeValue }
/-- BOUNDARY_REGISTER_UPDATE (R435). -/
def execBoundaryRegisterUpdate (cells : BitVec 15) (s : State) : Host.Outcome State Fault Refusal := onTap s fun t => t.updateBoundary cells

end Sys2Proof.Machine
end

