-- ==== Sys2Proof/Machine/Dispatch.lean ====
section
/-! DEFINITION. What each command does: one arm per row of spec/opcode_table.json. -/

namespace Sys2Proof.Machine

/-- The effect of a command on everything but the queue. -/
def exec (i : Instr) (s : State) : Host.Outcome State Fault Refusal :=
  match i with
  | .frameTick done => Sys2Proof.Machine.execFrameTick done s
  | .tickInEdge cycles done => Sys2Proof.Machine.execTickInEdge cycles done s
  | .fabricTick done => Sys2Proof.Machine.execFabricTick done s
  | .tickLost done => Sys2Proof.Machine.execTickLost done s
  | .mma d x => Sys2Proof.Machine.execMma d x s
  | .mmaFx d x => Sys2Proof.Machine.execMmaFx d x s
  | .mdrain d pc lm tile => Sys2Proof.Machine.execMdrain d pc lm tile s
  | .rowStoreHalfFree d => Sys2Proof.Machine.execRowStoreHalfFree d s
  | .tileDispatch d lm => Sys2Proof.Machine.execTileDispatch d lm s
  | .tileDrain d lm => Sys2Proof.Machine.execTileDrain d lm s
  | .tapTileDrain d lm => Sys2Proof.Machine.execTapTileDrain d lm s
  | .longSplitCombine d lm tile part level => Sys2Proof.Machine.execLongSplitCombine d lm tile part level s
  | .profileSwitch d lm => Sys2Proof.Machine.execProfileSwitch d lm s
  | .visorCheckComplete d => Sys2Proof.Machine.execVisorCheckComplete d s
  | .vcvt d x => Sys2Proof.Machine.execVcvt d x s
  | .vcvtB d x => Sys2Proof.Machine.execVcvtB d x s
  | .vcvtU d x => Sys2Proof.Machine.execVcvtU d x s
  | .vsplitF d x p1 p2 => Sys2Proof.Machine.execVsplitF d x p1 p2 s
  | .vsplitI d x p1 p2 => Sys2Proof.Machine.execVsplitI d x p1 p2 s
  | .vnarrowQ d x => Sys2Proof.Machine.execVnarrowQ d x s
  | .vmax d x src2 => Sys2Proof.Machine.execVmax d x src2 s
  | .vmin d x src2 => Sys2Proof.Machine.execVmin d x src2 s
  | .vectorFp32Add issue out stream => Sys2Proof.Machine.execVectorFp32Add issue out stream s
  | .hpush d x => Sys2Proof.Machine.execHpush d x s
  | .hpop d x => Sys2Proof.Machine.execHpop d x s
  | .gsolve issue index => Sys2Proof.Machine.execGsolve issue index s
  | .prun issue layer => Sys2Proof.Machine.execPrun issue layer s
  | .runpack issue index dst form => Sys2Proof.Machine.execRunpack issue index dst form s
  | .jendDone d pc => Sys2Proof.Machine.execJendDone d pc s
  | .jendRelease d pc => Sys2Proof.Machine.execJendRelease d pc s
  | .jstat issue => Sys2Proof.Machine.execJstat issue s
  | .mgopen issue gid => Sys2Proof.Machine.execMgopen issue gid s
  | .madd issue target key epoch src line0 endMark => Sys2Proof.Machine.execMadd issue target key epoch src line0 endMark s
  | .mskip issue gid key epoch => Sys2Proof.Machine.execMskip issue gid key epoch s
  | .lineArrival d gid key epoch item => Sys2Proof.Machine.execLineArrival d gid key epoch item s
  | .endMarker d gid key epoch => Sys2Proof.Machine.execEndMarker d gid key epoch s
  | .stagingRetry d => Sys2Proof.Machine.execStagingRetry d s
  | .keyApply d gid => Sys2Proof.Machine.execKeyApply d gid s
  | .keyApplied d gid => Sys2Proof.Machine.execKeyApplied d gid s
  | .memorySideAdd op addr words flagAddr mask => Sys2Proof.Machine.execMemorySideAdd op addr words flagAddr mask s
  | .fold d => Sys2Proof.Machine.execFold d s
  | .foldComplete d => Sys2Proof.Machine.execFoldComplete d s
  | .solveStart d => Sys2Proof.Machine.execSolveStart d s
  | .assemblyStart d => Sys2Proof.Machine.execAssemblyStart d s
  | .assemblyComplete d => Sys2Proof.Machine.execAssemblyComplete d s
  | .panelComplete d => Sys2Proof.Machine.execPanelComplete d s
  | .iterationComplete d => Sys2Proof.Machine.execIterationComplete d s
  | .finalTestComplete d => Sys2Proof.Machine.execFinalTestComplete d s
  | .palmRunStart d => Sys2Proof.Machine.execPalmRunStart d s
  | .palmRunComplete d => Sys2Proof.Machine.execPalmRunComplete d s
  | .copyRun entry => Sys2Proof.Machine.execCopyRun entry s
  | .palmNop issue => Sys2Proof.Machine.execPalmNop issue s
  | .ld issue => Sys2Proof.Machine.execLd issue s
  | .st issue => Sys2Proof.Machine.execSt issue s
  | .ldw issue => Sys2Proof.Machine.execLdw issue s
  | .ldwo issue => Sys2Proof.Machine.execLdwo issue s
  | .stw issue => Sys2Proof.Machine.execStw issue s
  | .wcp issue => Sys2Proof.Machine.execWcp issue s
  | .lds issue => Sys2Proof.Machine.execLds issue s
  | .ldh issue => Sys2Proof.Machine.execLdh issue s
  | .sts issue => Sys2Proof.Machine.execSts issue s
  | .srd issue => Sys2Proof.Machine.execSrd issue s
  | .idxr issue => Sys2Proof.Machine.execIdxr issue s
  | .idxc issue => Sys2Proof.Machine.execIdxc issue s
  | .fadd issue => Sys2Proof.Machine.execFadd issue s
  | .fsub issue => Sys2Proof.Machine.execFsub issue s
  | .fmul issue => Sys2Proof.Machine.execFmul issue s
  | .fma issue => Sys2Proof.Machine.execFma issue s
  | .fnma issue => Sys2Proof.Machine.execFnma issue s
  | .fdiv issue => Sys2Proof.Machine.execFdiv issue s
  | .fsqrt issue => Sys2Proof.Machine.execFsqrt issue s
  | .frsq issue => Sys2Proof.Machine.execFrsq issue s
  | .fmax issue => Sys2Proof.Machine.execFmax issue s
  | .fmin issue => Sys2Proof.Machine.execFmin issue s
  | .fabs issue => Sys2Proof.Machine.execFabs issue s
  | .fneg issue => Sys2Proof.Machine.execFneg issue s
  | .fcps issue => Sys2Proof.Machine.execFcps issue s
  | .fscl issue => Sys2Proof.Machine.execFscl issue s
  | .fexp2 issue => Sys2Proof.Machine.execFexp2 issue s
  | .flog2 issue => Sys2Proof.Machine.execFlog2 issue s
  | .rndbf issue => Sys2Proof.Machine.execRndbf issue s
  | .rnde4 issue => Sys2Proof.Machine.execRnde4 issue s
  | .iadd issue => Sys2Proof.Machine.execIadd issue s
  | .iand issue => Sys2Proof.Machine.execIand issue s
  | .cvtfi issue => Sys2Proof.Machine.execCvtfi issue s
  | .cvtif issue => Sys2Proof.Machine.execCvtif issue s
  | .fcmp issue => Sys2Proof.Machine.execFcmp issue s
  | .fcls issue => Sys2Proof.Machine.execFcls issue s
  | .pand issue => Sys2Proof.Machine.execPand issue s
  | .por issue => Sys2Proof.Machine.execPor issue s
  | .pnot issue => Sys2Proof.Machine.execPnot issue s
  | .sel issue => Sys2Proof.Machine.execSel issue s
  | .mov issue => Sys2Proof.Machine.execMov issue s
  | .bsum issue => Sys2Proof.Machine.execBsum issue s
  | .bssq issue => Sys2Proof.Machine.execBssq issue s
  | .bmax issue => Sys2Proof.Machine.execBmax issue s
  | .bmin issue => Sys2Proof.Machine.execBmin issue s
  | .bcnt issue => Sys2Proof.Machine.execBcnt issue s
  | .accs issue => Sys2Proof.Machine.execAccs issue s
  | .dsExport layer shard => Sys2Proof.Machine.execDsExport layer shard s
  | .recordAck peer host version => Sys2Proof.Machine.execRecordAck peer host version s
  | .flit p x => Sys2Proof.Machine.execFlit p x s
  | .flitReplay x => Sys2Proof.Machine.execFlitReplay x s
  | .portLaneFail x => Sys2Proof.Machine.execPortLaneFail x s
  | .portUp p lanes partner => Sys2Proof.Machine.execPortUp p lanes partner s
  | .heartbeatSend => Sys2Proof.Machine.execHeartbeatSend s
  | .heartbeat p x => Sys2Proof.Machine.execHeartbeat p x s
  | .linkSilent x => Sys2Proof.Machine.execLinkSilent x s
  | .linkDown x waits => Sys2Proof.Machine.execLinkDown x waits s
  | .linkUp a b => Sys2Proof.Machine.execLinkUp a b s
  | .departed x => Sys2Proof.Machine.execDeparted x s
  | .lost x => Sys2Proof.Machine.execLost x s
  | .publishNotice entry version digest => Sys2Proof.Machine.execPublishNotice entry version digest s
  | .shardFetch from_ entry version epoch pin => Sys2Proof.Machine.execShardFetch from_ entry version epoch pin s
  | .fetchResponse entry version mb addr data x => Sys2Proof.Machine.execFetchResponse entry version mb addr data x s
  | .pinRelease from_ entry version => Sys2Proof.Machine.execPinRelease from_ entry version s
  | .abandon from_ mb => Sys2Proof.Machine.execAbandon from_ mb s
  | .cutoff => Sys2Proof.Machine.execCutoff s
  | .skipNotice owner entry k n late step epoch => Sys2Proof.Machine.execSkipNotice owner entry k n late step epoch s
  | .reshardAck peer epoch => Sys2Proof.Machine.execReshardAck peer epoch s
  | .shardMigration x => Sys2Proof.Machine.execShardMigration x s
  | .spareFramesExpiry lostPeer => Sys2Proof.Machine.execSpareFramesExpiry lostPeer s
  | .takeover lostPeer spare => Sys2Proof.Machine.execTakeover lostPeer spare s
  | .restoreComplete x => Sys2Proof.Machine.execRestoreComplete x s
  | .doorbell r tail => Sys2Proof.Machine.execDoorbell r tail s
  | .ringEnable r value => Sys2Proof.Machine.execRingEnable r value s
  | .ringDisable r value => Sys2Proof.Machine.execRingDisable r value s
  | .statusRingHead r value => Sys2Proof.Machine.execStatusRingHead r value s
  | .nop p => Sys2Proof.Machine.execNop p s
  | .version p => Sys2Proof.Machine.execVersion p s
  | .status p => Sys2Proof.Machine.execStatus p s
  | .hostColdReset p => Sys2Proof.Machine.execHostColdReset p s
  | .hostWarmReset p => Sys2Proof.Machine.execHostWarmReset p s
  | .jobSubmit p => Sys2Proof.Machine.execJobSubmit p s
  | .jobWithdraw p => Sys2Proof.Machine.execJobWithdraw p s
  | .jobYield p => Sys2Proof.Machine.execJobYield p s
  | .yieldCancel p => Sys2Proof.Machine.execYieldCancel p s
  | .jobAbort p => Sys2Proof.Machine.execJobAbort p s
  | .jobQuery p => Sys2Proof.Machine.execJobQuery p s
  | .acctRead p => Sys2Proof.Machine.execAcctRead p s
  | .seqJoin p => Sys2Proof.Machine.execSeqJoin p s
  | .seqLeave p => Sys2Proof.Machine.execSeqLeave p s
  | .reshard p image => Sys2Proof.Machine.execReshard p image s
  | .baseExport p => Sys2Proof.Machine.execBaseExport p s
  | .dsHostRing p => Sys2Proof.Machine.execDsHostRing p s
  | .dsAck p => Sys2Proof.Machine.execDsAck p s
  | .memWrite p data => Sys2Proof.Machine.execMemWrite p data s
  | .memRead p outcome good => Sys2Proof.Machine.execMemRead p outcome good s
  | .fwStage p bundle => Sys2Proof.Machine.execFwStage p bundle s
  | .fwActivate p => Sys2Proof.Machine.execFwActivate p s
  | .calRead p => Sys2Proof.Machine.execCalRead p s
  | .calWrite p set => Sys2Proof.Machine.execCalWrite p set s
  | .calRestore p => Sys2Proof.Machine.execCalRestore p s
  | .calRestoreDone => Sys2Proof.Machine.execCalRestoreDone s
  | .attest p => Sys2Proof.Machine.execAttest p s
  | .advance p => Sys2Proof.Machine.execAdvance p s
  | .installIdCert p => Sys2Proof.Machine.execInstallIdCert p s
  | .revokeRoot0 p => Sys2Proof.Machine.execRevokeRoot0 p s
  | .raiseMinSv p => Sys2Proof.Machine.execRaiseMinSv p s
  | .jobChoose => Sys2Proof.Machine.execJobChoose s
  | .jobStart segs => Sys2Proof.Machine.execJobStart segs s
  | .endingExportDone => Sys2Proof.Machine.execEndingExportDone s
  | .pcieLinkDown => Sys2Proof.Machine.execPcieLinkDown s
  | .pcieLinkUp width rate => Sys2Proof.Machine.execPcieLinkUp width rate s
  | .pcieHotReset => Sys2Proof.Machine.execPcieHotReset s
  | .commitPost value => Sys2Proof.Machine.execCommitPost value s
  | .commitApply group d unit => Sys2Proof.Machine.execCommitApply group d unit s
  | .registerWrite off w value => Sys2Proof.Machine.execRegisterWrite off w value s
  | .unmappedAccess off write w => Sys2Proof.Machine.execUnmappedAccess off write w s
  | .statusRead off w => Sys2Proof.Machine.execStatusRead off w s
  | .statusWriteBack off value => Sys2Proof.Machine.execStatusWriteBack off value s
  | .counterLoRead off => Sys2Proof.Machine.execCounterLoRead off s
  | .paritySweep => Sys2Proof.Machine.execParitySweep s
  | .indAddrWrite value => Sys2Proof.Machine.execIndAddrWrite value s
  | .indDataRead => Sys2Proof.Machine.execIndDataRead s
  | .indDataWrite value => Sys2Proof.Machine.execIndDataWrite value s
  | .indTimeout write => Sys2Proof.Machine.execIndTimeout write s
  | .errRetire value => Sys2Proof.Machine.execErrRetire value s
  | .mittBlockReset index => Sys2Proof.Machine.execMittBlockReset index s
  | .cuffBlockReset index => Sys2Proof.Machine.execCuffBlockReset index s
  | .gauntletBlockReset index => Sys2Proof.Machine.execGauntletBlockReset index s
  | .palmBlockReset index => Sys2Proof.Machine.execPalmBlockReset index s
  | .vectorBlockReset index => Sys2Proof.Machine.execVectorBlockReset index s
  | .visorBlockReset index => Sys2Proof.Machine.execVisorBlockReset index s
  | .washaPortReset index => Sys2Proof.Machine.execWashaPortReset index s
  | .cxlPortReset index => Sys2Proof.Machine.execCxlPortReset index s
  | .blockResetDone target index => Sys2Proof.Machine.execBlockResetDone target index s
  | .i3cPrivateWrite index data => Sys2Proof.Machine.execI3cPrivateWrite index data s
  | .i3cPrivateRead => Sys2Proof.Machine.execI3cPrivateRead s
  | .entdaa addr => Sys2Proof.Machine.execEntdaa addr s
  | .setdasa static addr => Sys2Proof.Machine.execSetdasa static addr s
  | .setnewda addr => Sys2Proof.Machine.execSetnewda addr s
  | .rstdaa => Sys2Proof.Machine.execRstdaa s
  | .getpid => Sys2Proof.Machine.execGetpid s
  | .getbcr => Sys2Proof.Machine.execGetbcr s
  | .getdcr => Sys2Proof.Machine.execGetdcr s
  | .getstatus => Sys2Proof.Machine.execGetstatus s
  | .getmwl => Sys2Proof.Machine.execGetmwl s
  | .getmrl => Sys2Proof.Machine.execGetmrl s
  | .setmwl n => Sys2Proof.Machine.execSetmwl n s
  | .setmrl n => Sys2Proof.Machine.execSetmrl n s
  | .enec events => Sys2Proof.Machine.execEnec events s
  | .disec events => Sys2Proof.Machine.execDisec events s
  | .rstact action => Sys2Proof.Machine.execRstact action s
  | .extest => Sys2Proof.Machine.execExtest s
  | .idcode => Sys2Proof.Machine.execIdcode s
  | .samplePreload preload => Sys2Proof.Machine.execSamplePreload preload s
  | .clamp => Sys2Proof.Machine.execClamp s
  | .highz => Sys2Proof.Machine.execHighz s
  | .bypass opcode => Sys2Proof.Machine.execBypass opcode s
  | .lumovTestInstruction opcode => Sys2Proof.Machine.execLumovTestInstruction opcode s
  | .burstRead far addr outcome by_ => Sys2Proof.Machine.execBurstRead far addr outcome by_ s
  | .patrolScrub outcome => Sys2Proof.Machine.execPatrolScrub outcome s
  | .bonnetLoop temps => Sys2Proof.Machine.execBonnetLoop temps s
  | .stackTrainingDone k failedLanes => Sys2Proof.Machine.execStackTrainingDone k failedLanes s
  | .stackRetrain k done => Sys2Proof.Machine.execStackRetrain k done s
  | .cxlEnumerate p capacity width rate => Sys2Proof.Machine.execCxlEnumerate p capacity width rate s
  | .memFarDown p => Sys2Proof.Machine.execMemFarDown p s
  | .memFarEvent p addr => Sys2Proof.Machine.execMemFarEvent p addr s
  | .wipeComplete => Sys2Proof.Machine.execWipeComplete s
  | .powerOn => Sys2Proof.Machine.execPowerOn s
  | .resetNAssert => Sys2Proof.Machine.execResetNAssert s
  | .resetRelease x => Sys2Proof.Machine.execResetRelease x s
  | .bootVerify => Sys2Proof.Machine.execBootVerify s
  | .vinShutdown => Sys2Proof.Machine.execVinShutdown s
  | .vauxLoss => Sys2Proof.Machine.execVauxLoss s
  | .refclkLost => Sys2Proof.Machine.execRefclkLost s
  | .refclkPcieLost => Sys2Proof.Machine.execRefclkPcieLost s
  | .refclkCxlLost p => Sys2Proof.Machine.execRefclkCxlLost p s
  | .refclkWashaLost x => Sys2Proof.Machine.execRefclkWashaLost x s
  | .watchdogExpiry p => Sys2Proof.Machine.execWatchdogExpiry p s
  | .processorFailure p => Sys2Proof.Machine.execProcessorFailure p s
  | .processorReady x => Sys2Proof.Machine.execProcessorReady x s
  | .restartTimeout p => Sys2Proof.Machine.execRestartTimeout p s
  | .fwStable p => Sys2Proof.Machine.execFwStable p s
  | .sensorSample diodes => Sys2Proof.Machine.execSensorSample diodes s
  | .bucketUpdate vin current => Sys2Proof.Machine.execBucketUpdate vin current s
  | .clampEnforce => Sys2Proof.Machine.execClampEnforce s
  | .clampHandback => Sys2Proof.Machine.execClampHandback s
  | .crownLoop => Sys2Proof.Machine.execCrownLoop s
  | .activationWaitExpiry => Sys2Proof.Machine.execActivationWaitExpiry s
  | .fwAbandoned => Sys2Proof.Machine.execFwAbandoned s
  | .fwActivated => Sys2Proof.Machine.execFwActivated s
  | .tickOutLow => Sys2Proof.Machine.execTickOutLow s
  | .applyF d pc fder fparam src dst side => Sys2Proof.Machine.execApplyF d pc fder fparam src dst side s
  | .testLogicReset => Sys2Proof.Machine.execTestLogicReset s
  | .boundaryRegisterUpdate cells => Sys2Proof.Machine.execBoundaryRegisterUpdate cells s

end Sys2Proof.Machine
end

