-- ==== Sys2Proof/WellFormed.lean ====
section
/-! DEFINITION. Which commands are well formed: operands that the rules give a range lie in it. The types of the operands
keep the rest (dies, mitts, ports, peers, field widths). -/

namespace Sys2Proof

namespace WellFormed

/-- A tensor begins inside its space, and one in tile memory or scratch lies inside it whole, its scale array with it (R1): a tensor
that runs out of near or far memory is an access that fails (R238, R255). -/
def tdesc (t : TDesc) : Bool :=
  decide (t.addr < t.space.bytes) && (match t.space with
  | .near | .far => true
  | .tile _ | .scratch _ => (Machine.TDescOps.ranges t ((Machine.Fmt.ofCode t.fmt).getD .fp32)).all fun x =>
    decide (x.2.1 + x.2.2 ≤ t.space.bytes))
def vec (x : Vec) : Bool := tdesc x.src && tdesc x.dst
/-- The 128-bit accumulators of a pass lie inside the scratch of its die (R1, R103). -/
def accumulators (d : Die) (x : MmaFx) : Bool := decide (x.acc + 16 * (min 128 x.rows * min 128 x.cols) ≤ (Space.scratch d).bytes)
/-- The opcodes (R313). -/
def opcodes : List Nat :=
  [0x00, 0x01, 0x02, 0x03, 0x10, 0x11, 0x12, 0x13, 0x14, 0x15, 0x20, 0x21, 0x30, 0x31, 0x32, 0x33, 0x40, 0x41, 0x50, 0x51, 0x60, 0x61,
   0x62, 0x70, 0x71]
/-- A payload as a ring can hold it (R307); an opcode in place of the row's is none of R313. -/
def pkt (p : Pkt) : Bool := decide (p.payload.length ≤ 4096) && p.strange.all fun op => !opcodes.contains op.toNat
/-- BAR0 is 256 MiB (R299). -/
def offset (off : Nat) : Bool := decide (off < 2 ^ 28)
/-- A line has 64 FP32 elements (R247), a tap row 128 integers (R289). -/
def item : Item → Bool
  | .line _ ws => ws.length == 64
  | .tapRow _ _ _ ws _ _ _ => ws.length == 128
/-- A near-memory add names at least one word (R244). -/
def addWords (ws : List W64) : Bool := !ws.isEmpty

end WellFormed

open WellFormed in
/-- The command is well formed. -/
def Instr.wf : Instr → Bool
  | .mma _ x => tdesc x.a && tdesc x.b && tdesc x.o
  | .mmaFx d x => tdesc x.a && tdesc x.b && accumulators d x
  | .vcvt _ x | .vcvtB _ x | .vcvtU _ x | .vnarrowQ _ x => vec x
  | .vsplitF _ x p1 p2 | .vsplitI _ x p1 p2 => vec x && tdesc p1 && tdesc p2
  | .vmax _ x y | .vmin _ x y => vec x && tdesc y
  | .vectorFp32Add _ out stream => tdesc out && tdesc stream
  | .applyF _ _ _ _ a b c => tdesc a && tdesc b && tdesc c
  | .hpush _ x => tdesc x.src
  | .hpop _ x => decide (x.addr < x.dst.bytes)
  | .runpack _ _ dst _ => tdesc dst
  | .madd _ _ _ _ src _ _ => tdesc src
  | .lineArrival _ _ _ _ i => item i
  | .memorySideAdd _ a ws _ _ => addWords ws && decide (a < 2 ^ 40)
  | .flit _ x => x.payload.length == 242
  | .pcieLinkUp w r => hostLink w r
  | .nop p | .version p | .status p | .hostColdReset p | .hostWarmReset p | .jobSubmit p | .jobWithdraw p | .jobYield p
  | .yieldCancel p | .jobAbort p | .jobQuery p | .acctRead p | .seqJoin p | .seqLeave p | .reshard p _ | .baseExport p
  | .dsHostRing p | .dsAck p | .memWrite p _ | .memRead p _ _ | .fwStage p _ | .fwActivate p | .calRead p | .calRestore p
  | .attest p | .advance p | .installIdCert p | .revokeRoot0 p | .raiseMinSv p => pkt p
  | .calWrite p set => pkt p && set.length == 16384
  | .registerWrite off _ _ | .unmappedAccess off _ _ | .statusRead off _ | .statusWriteBack off _ | .counterLoRead off => offset off
  | .bonnetLoop ts => ts.length == 8
  | .sensorSample ds => ds.length == 80
  | .bucketUpdate vin cur => vin.length == 4 && cur.length == 4
  | .resetRelease x => x.badLining.all fun i => decide (i < 10)
  | .lumovTestInstruction op => decide (0x80 ≤ op.toNat) && op != 0xFF
  | .bypass op => !(op == 0x00 || op == 0x01 || op == 0x02 || op == 0x04 || op == 0x08)
  | .frameTick _ | .tickInEdge _ _ | .fabricTick _ | .tickLost _ | .mdrain _ _ _ _ | .rowStoreHalfFree _
  | .tileDispatch _ _ | .tileDrain _ _ | .tapTileDrain _ _ | .longSplitCombine _ _ _ _ _ | .profileSwitch _ _
  | .visorCheckComplete _ | .gsolve _ _ | .prun _ _ | .jendDone _ _ | .jendRelease _ _ | .jstat _ | .mgopen _ _
  | .mskip _ _ _ _ | .endMarker _ _ _ _ | .stagingRetry _ | .keyApply _ _ | .keyApplied _ _ | .fold _
  | .foldComplete _ | .solveStart _ | .assemblyStart _ | .assemblyComplete _ | .panelComplete _
  | .iterationComplete _ | .finalTestComplete _ | .palmRunStart _ | .palmRunComplete _ | .copyRun _ | .palmNop _
  | .ld _ | .st _ | .ldw _ | .ldwo _ | .stw _ | .wcp _ | .lds _ | .ldh _ | .sts _ | .srd _ | .idxr _ | .idxc _
  | .fadd _ | .fsub _ | .fmul _ | .fma _ | .fnma _ | .fdiv _ | .fsqrt _ | .frsq _ | .fmax _ | .fmin _ | .fabs _
  | .fneg _ | .fcps _ | .fscl _ | .fexp2 _ | .flog2 _ | .rndbf _ | .rnde4 _ | .iadd _ | .iand _ | .cvtfi _
  | .cvtif _ | .fcmp _ | .fcls _ | .pand _ | .por _ | .pnot _ | .sel _ | .mov _ | .bsum _ | .bssq _ | .bmax _
  | .bmin _ | .bcnt _ | .accs _ | .dsExport _ _ | .recordAck _ _ _ | .flitReplay _ | .portLaneFail _
  | .portUp _ _ _ | .heartbeatSend | .heartbeat _ _ | .linkSilent _ | .linkDown _ _ | .linkUp _ _ | .departed _
  | .lost _ | .publishNotice _ _ _ | .shardFetch _ _ _ _ _ | .fetchResponse _ _ _ _ _ _ | .skipNotice _ _ _ _ _ _ _ | .pinRelease _ _ _
  | .abandon _ _ | .cutoff | .reshardAck _ _ | .shardMigration _ | .spareFramesExpiry _ | .takeover _ _
  | .restoreComplete _ | .doorbell _ _ | .ringEnable _ _ | .ringDisable _ _ | .statusRingHead _ _ | .calRestoreDone
  | .jobChoose | .jobStart _ | .endingExportDone | .pcieLinkDown | .pcieHotReset | .commitPost _
  | .commitApply _ _ _ | .paritySweep | .indAddrWrite _ | .indDataRead | .indDataWrite _ | .indTimeout _
  | .errRetire _ | .mittBlockReset _ | .cuffBlockReset _ | .gauntletBlockReset _ | .palmBlockReset _
  | .vectorBlockReset _ | .visorBlockReset _ | .washaPortReset _ | .cxlPortReset _ | .blockResetDone _ _
  | .i3cPrivateWrite _ _ | .i3cPrivateRead | .entdaa _ | .setdasa _ _ | .setnewda _ | .rstdaa | .getpid | .getbcr
  | .getdcr | .getstatus | .getmwl | .getmrl | .setmwl _ | .setmrl _ | .enec _ | .disec _ | .rstact _ | .extest
  | .idcode | .samplePreload _ | .clamp | .highz | .burstRead _ _ _ _ | .patrolScrub _ | .stackTrainingDone _ _
  | .stackRetrain _ _ | .cxlEnumerate _ _ _ _ | .memFarDown _ | .memFarEvent _ _ | .wipeComplete | .powerOn
  | .resetNAssert | .bootVerify | .vinShutdown | .vauxLoss | .refclkLost | .refclkPcieLost | .refclkCxlLost _
  | .refclkWashaLost _ | .watchdogExpiry _ | .processorFailure _ | .processorReady _ | .restartTimeout _
  | .fwStable _ | .clampEnforce | .clampHandback | .crownLoop | .activationWaitExpiry | .fwAbandoned | .fwActivated
  | .tickOutLow | .testLogicReset | .boundaryRegisterUpdate _ => true

end Sys2Proof
end

