-- ==== Sys2Proof/Safety.lean ====
section
/-! DEFINITION. What counts as a safe step and a safe run, and the conditions under which commands have their effect. -/

namespace Sys2Proof.Safety

open Sys2Proof.Machine

/-- The next command completes: it neither faults nor is refused. -/
def Completes (s : State) : Prop := ∃ t, step s = .next t

/-- A state `n` steps from which every step completes. -/
def SafeFor : Nat → State → Prop
  | 0, _ => True
  | n + 1, s => ∃ t, step s = .next t ∧ SafeFor n t

/-- The state with this device. -/
abbrev into (s : State) (v : Device) : State := { s with dev := v }

/-- The core logic runs: no reset is in progress, and its clocks have not stopped (R360, R431). -/
def Live (s : State) : Prop := s.dev.halted = false

/-- The die issues: the core logic runs, a job in RUNNING, and a duty above zero (R323, R387). -/
def Issues (s : State) (d : Die) : Prop := Live s ∧ s.dev.issues d = true

/-- An instruction of an engine has its effect at once: its die issues, and the engine waits at no PRUN (R199). -/
def Free (s : State) (d : Die) (e : Engine) : Prop := Issues s d ∧ ∀ h ∈ (s.dev.palm d).held, h.engine ≠ e

/-- The same of the engine that an instruction names. -/
def FreeFor (s : State) (i : Issuer) : Prop := Free s i.die i.engine

/-- The Gauntlet lanes of the die go on: a duty above zero (R386). -/
def Lanes (s : State) (d : Die) : Prop := Live s ∧ s.dev.duty d ≠ 0

/-- The I3C target is up and has its bus: no reset, the processors of the release started, and no test instruction that holds the pins
(R363, R401, R436). -/
def I3cLive (s : State) : Prop := s.dev.inReset = false ∧ s.dev.booting = false ∧ s.tap.holds = false

/-- A source of a vector instruction can be read at once: it is no weight of a shard, or one of a shard that this device holds, or a
verified replica (R282, R284, R291). -/
def AtHand (v : Device) (t : TDesc) : Prop := ∀ e, t.shard = some e →
  (v.entryOwner e = v.selfIdx ∧ e ∉ v.fab.migrating) ∨ (v.entryOwner e ≠ v.selfIdx ∧ v.replicaAt e t.addr = true)

/-- Peak takes the packet as a command with this opcode and finds nothing to turn it away for (R302 to R309, R313). -/
def Accepts (s : State) (p : Pkt) (op : Nat) : Prop :=
  Live s ∧ s.dev.packetDue p = true ∧ p.readOk = true ∧ s.dev.badPacket p = false ∧ p.seq = (s.dev.ring p.ring).expect ∧
    s.dev.refusal? s.nv p op = none

/-- The device once Peak has taken a packet: HEAD behind it, the next sequence number expected (R302, R308). -/
def passed (s : State) (p : Pkt) : Device :=
  (s.dev.passPacket p).onRing p.ring fun q => { q with expect := q.expect + 1 }

/-- The same with the command outstanding until its final reply (R310). -/
def taken (s : State) (p : Pkt) (op : Nat) : Device :=
  (passed s p).onRing p.ring fun q => { q with outstanding := q.outstanding ++ [Device.refOf p op] }

/-- A chunk of a body in flight on a Palm, or the one that begins now (`fresh`), with the word `o` and the fields of `i` next in it
(R201, R202): `r` is the run, `z` the register set in slot `slot`. -/
structure PalmAt (s : State) (i : PalmIssue) (o : PalmOp) (r : PalmRun) (c slot : Nat) (fresh : Bool) (z : PalmSet) : Prop where
  issues : Issues s i.die
  run : (s.dev.palm i.die).run = some r
  going : r.stopping = false
  place : i.place = .chunk c
  chunk : if fresh then Device.findChunk (r.units.get i.palm) c = none ∧ Device.beginChunk r i.palm c = some (slot, z)
    else Device.findChunk (r.units.get i.palm) c = some (slot, z)
  word : r.instrAt .body z.pc = some (o, i.x)
  order : o = .accs → Device.accsInOrder (r.units.get i.palm) c z.pc = true

/-- The chunk that such an instruction works on (R200, R201). -/
def chunkOf (i : PalmIssue) (r : PalmRun) (c : Nat) (z : PalmSet) : Chunk :=
  let at_ := r.desc.chunkAt c
  { d := i.die, u := r.desc, step := r.step, r := at_.1, c0 := at_.2.1, n := at_.2.2, unit := r.units.get i.palm, set_ := z }

/-- The run `q` after a body instruction: the chunk's registers are `v`, its place the next word, and the Palm is otherwise `u`. Behind
the last word of the body the chunk has ended and its set is free; with the last chunk of the run the accumulators are combined (R201,
R202, R208). -/
def afterInstr (i : PalmIssue) (slot : Nat) (fresh : Bool) (z v : PalmSet) (u : PalmUnit) (q : PalmRun) : PalmRun :=
  let fin := decide (z.pc + 1 = q.desc.body)
  let left : PalmSet := if fin then { v with chunk := none, pc := 0 } else { v with pc := z.pc + 1 }
  let q := { q with units := q.units.set i.palm { u with
    begun := u.begun + b2n fresh, ended := u.ended + b2n fin, sets := Sparse.put {} slot left u.sets } }
  if q.chunksDone && !q.combined then Device.combineAcc q else q

/-- The Palm instructions that give every lane a result of their own (R204): add to convert, as the table lists them. -/
def laneOps : List ((PalmIssue → Instr) × PalmOp) :=
  [(.fadd, .fadd), (.fsub, .fsub), (.fmul, .fmul), (.fma, .fma), (.fnma, .fnma), (.fdiv, .fdiv), (.fsqrt, .fsqrt), (.frsq, .frsq),
   (.fmax, .fmax), (.fmin, .fmin), (.fabs, .fabs), (.fneg, .fneg), (.fcps, .fcps), (.fscl, .fscl), (.fexp2, .fexp2),
   (.flog2, .flog2), (.rndbf, .rndbf), (.rnde4, .rnde4), (.iadd, .iadd), (.iand, .iand), (.cvtfi, .cvtfi), (.cvtif, .cvtif),
   (.mov, .mov)]

/-- The block instructions over V registers (R207). -/
def blockOps : List ((PalmIssue → Instr) × PalmOp) := [(.bsum, .bsum), (.bssq, .bssq), (.bmax, .bmax), (.bmin, .bmin)]

/-- Every instruction of the Palms (R204). -/
def palmInstrs : List (PalmIssue → Instr) :=
  (laneOps ++ blockOps).map (·.1) ++
    [.palmNop, .ld, .st, .ldw, .ldwo, .stw, .wcp, .lds, .ldh, .sts, .srd, .idxr, .idxc, .fcmp, .fcls, .pand, .por, .pnot, .sel, .bcnt, .accs]

/-- What the fuses always hold (R413, R415, R417): a word of 32 fuses and a thermometer of 64, and no device secret once the
END word reads as blown. -/
structure FuseInv (n : Nv) : Prop where
  words : ∀ w ∈ n.words.toList, w ≤ 32
  minSv : n.minSv ≤ 64
  secret : 24 ≤ n.words.q3 → n.uds = none

/-- What the duties always hold (R387, R389, R392): each lies within 16 and 256 of the 256ths. -/
structure DutyInv (p : Power) : Prop where
  power : 16 ≤ p.pw ∧ p.pw ≤ 256
  thermal : ∀ d : Die, 16 ≤ p.th.get d ∧ p.th.get d ≤ 256
  clamp : ∀ d : Die, 16 ≤ p.clampDuty.get d ∧ p.clampDuty.get d ≤ 256

/-- What the error queue always holds (R370, R374): slots below 64, each at most once, and counts of 1 to 65,535. -/
structure ErrInv (q : ErrQueue) : Prop where
  form : Sparse.wf none q.slots = true
  places : ∀ x ∈ q.entries, x.1 < 64
  counts : ∀ x ∈ q.entries, 1 ≤ x.2.occ ∧ x.2.occ ≤ 65535

/-- Entries of the error queue numbered as they came, no number given twice (R370). -/
structure Numbered (q : ErrQueue) : Prop where
  below : ∀ x ∈ q.entries, x.2.seq < q.nextSeq
  once : (q.entries.map fun x => x.2.seq).Nodup

/-- What the memories of a device always hold: the canonical form, and no byte past the end of a die's tile memory or scratch or of near
memory (R1). -/
structure MemInv (v : Device) : Prop where
  tile : ∀ d : Die, (v.die d).tile.wf = true ∧ ∀ a, (Space.tile d).bytes ≤ a → (v.die d).tile.read a = 0
  scratch : ∀ d : Die, (v.die d).scratch.wf = true ∧ ∀ a, (Space.scratch d).bytes ≤ a → (v.die d).scratch.read a = 0
  near : v.mem.near.wf = true ∧ ∀ a, Space.near.bytes ≤ a → v.mem.near.read a = 0
  far : v.mem.far.wf = true
  rest : v.lining.wf = true ∧ v.hostMem.wf = true ∧ ∀ p : Fin 4, (v.procs.get p).data.wf = true

end Sys2Proof.Safety
end

