-- ==== Sys2Proof/Certificates/Slice0/Obligations.lean ====
section
/-! DEFINITION. The statements about the model. -/

open Sys2Proof Sys2Proof.Machine Sys2Proof.Safety

/-! ## The machine as a whole -/

/-- The step of the block (R302): the command in front runs on the state with the queue's rest. -/
def Obligations.FrontCommandRuns : Prop :=
  ∀ (c : Instr) (rest : List Instr) (s : State),
    step { s with pending := c :: rest } = exec c { s with pending := rest }

/-- What a command leaves alone outside the device: never the queue of commands; and fuses, bundle slots, calibration set and boot slot
change only by FW_STAGE, FW_ACTIVATED, CAL_WRITE, CAL_RESTORE_DONE, the four lifecycle requests, the release of a reset and the boot
chain (R359, R395 to R400, R409, R413, R415). -/
def Obligations.QueueAndFusesKept : Prop := ∀ (c : Instr) (s t : State), exec c s = .next t →
  t.pending = s.pending ∧
  ((match c with
    | .fwStage .. | .fwActivated | .calWrite .. | .calRestoreDone | .advance _ | .installIdCert _ | .revokeRoot0 _
    | .raiseMinSv _ | .resetRelease _ | .bootVerify => False
    | _ => True) → t.nv = s.nv)

/-- The invariants of the fuses, the duties, the error queue and the memories hold of the machine after reset; what a delivered part has
blown is the model's choice (log entry 35). -/
def Obligations.InvariantsAtReset : Prop :=
  FuseInv State.reset.nv ∧ DutyInv State.reset.dev.pwr ∧ ErrInv State.reset.dev.err ∧ Numbered State.reset.dev.err ∧
    MemInv State.reset.dev

/-- Every step keeps the fuses' invariant: no word counts more than its 32 fuses, MIN_SV stays inside its 64, and once END reads
as blown there is no device secret (R413, R415, R417). A fuse that is blown stays blown: no step takes back a lifecycle word or lowers
MIN_SV (R406, R413). -/
def Obligations.FuseInvKept : Prop := ∀ s t : State, FuseInv s.nv → step s = .next t → FuseInv t.nv ∧
  (∀ i : Fin 4, s.nv.words.get i ≤ t.nv.words.get i) ∧ s.nv.minSv ≤ t.nv.minSv ∧
    (s.nv.root0Revoked = true → t.nv.root0Revoked = true)

/-- Every step keeps Crown's duties and the clamp's within 16 and 256 (R387, R389, R392), so that a die's duty in force is 0 or within
16 and 256. -/
def Obligations.DutiesKept : Prop := ∀ s t : State, DutyInv s.dev.pwr → step s = .next t →
  DutyInv t.dev.pwr ∧ ∀ d, t.dev.duty d = 0 ∨ (16 ≤ t.dev.duty d ∧ t.dev.duty d ≤ 256)

/-- Every step keeps the form of the error queue: slots below 64, each at most once, with occurrences of 1 to 65,535, so that it holds at
most 64 entries (R370, R374). -/
def Obligations.ErrorQueueKept : Prop := ∀ s t : State, ErrInv s.dev.err → step s = .next t →
  ErrInv t.dev.err ∧ t.dev.err.depth ≤ 64

/-- Every step keeps every memory in its canonical form, with no byte past the end of tile memory, scratch or near memory (R1). -/
def Obligations.MemoriesKeepForm : Prop := ∀ s t : State, MemInv s.dev → step s = .next t → MemInv t.dev

/-- A die that does not issue (no job in RUNNING, as in HOLD, or a duty of zero) carries out nothing of its program, on its mitts, its
vector engines or its Palms, but for a Palm run of a job that ends, whose chunks go on while the duty is above zero (R211, R323, R380,
R386, R387). -/
def Obligations.SilentDieDoesNothing : Prop := ∀ (s : State) (d : Die), s.dev.issues d = false →
  (∀ x, exec (.mma d x) s = .next s) ∧ (∀ x, exec (.mmaFx d x) s = .next s) ∧ (∀ (i : Issuer) l t, i.die = d → exec (.mdrain d i.pc l t) s = .next s) ∧
  (∀ l, exec (.tileDispatch d l) s = .next s) ∧ (∀ x, exec (.vcvt d x) s = .next s) ∧ (∀ x, exec (.vcvtB d x) s = .next s) ∧
  (∀ x, exec (.vcvtU d x) s = .next s) ∧ (∀ x p q, exec (.vsplitF d x p q) s = .next s) ∧
  (∀ x p q, exec (.vsplitI d x p q) s = .next s) ∧ (∀ x, exec (.vnarrowQ d x) s = .next s) ∧
  (∀ x y, exec (.vmax d x y) s = .next s) ∧ (∀ x y, exec (.vmin d x y) s = .next s) ∧
  (∀ (i : Issuer) x y, i.die = d → exec (.vectorFp32Add i x y) s = .next s) ∧ (∀ x, exec (.hpush d x) s = .next s) ∧ (∀ x, exec (.hpop d x) s = .next s) ∧
  (∀ (i : Issuer) n, i.die = d → exec (.gsolve i n) s = .next s) ∧ (∀ (i : Issuer) l, i.die = d → exec (.prun i l) s = .next s) ∧
  (∀ (i : Issuer) n t f, i.die = d → exec (.runpack i n t f) s = .next s) ∧
  (∀ i : Issuer, i.die = d → exec (.jendDone d i.pc) s = .next s ∧ exec (.jendRelease d i.pc) s = .next s ∧ exec (.jstat i) s = .next s) ∧
  (∀ (i : Issuer) g, i.die = d → exec (.mgopen i g) s = .next s) ∧ (∀ (i : Issuer) g k e x l m, i.die = d → exec (.madd i g k e x l m) s = .next s) ∧
  (∀ (i : Issuer) g k e, i.die = d → exec (.mskip i g k e) s = .next s) ∧ (∀ (i : Issuer) f p x y z, i.die = d → exec (.applyF d i.pc f p x y z) s = .next s) ∧
  exec (.palmRunStart d) s = .next s ∧
  (∀ q ∈ palmInstrs, ∀ i : PalmIssue, i.die = d →
    s.dev.duty d = 0 ∨ (∀ r, (s.dev.palm d).run = some r → r.stopping = false) → exec (q i) s = .next s)

/-! ## Mitts -/

/-- An MMA whose engine waits at no PRUN, that no waiting work goes before, whose checks hold and whose operands can be read opens its
tile, or takes its operands into the open one (R32, R83, R84). -/
def Obligations.MmaCompletes : Prop := ∀ (s : State) (d : Die) (x : Mma) (af bf : Fmt),
  Free s d x.engine →
  ((s.dev.mitt d x.lm.val).jobs.any fun j => Device.goesBefore j (.mma x)) = false → s.dev.outranked d x = false →
  Fmt.ofCode x.af = some af → Fmt.ofCode x.bf = some bf →
  s.dev.mmaLegal d x af bf = true → s.dev.abandonedWork x = false →
  s.dev.bad (TDescOps.ranges x.a af ++ TDescOps.ranges x.b bf) = none →
  (x.cont = false → s.dev.odescLegal x af = true → s.dev.openVerdict d x af = .run →
    exec (.mma d x) s = .next (into s (s.dev.openTile d x af bf))) ∧
  (x.cont = true → s.dev.contVerdict d x af bf = .run →
    exec (.mma d x) s = .next (into s (s.dev.continueTile d x af bf)))

/-- A Gauntlet pass whose mitt can take it opens in slot q mod 2 with its drain requested, one that finds its mitt without the slot waits,
and of a split pass each part does so on its own mitt (log entry 116); an MDRAIN closes an open tile of the program and requests its
drain; a mitt that can takes a waiting part of a Gauntlet pass first, then a tap tile, then the program's work: of what can go on, one that
no other goes before in the order of R32, where the choice among several of one stage and direction is the model's (log entry 149) (R32,
R91, R103, R149). -/
def Obligations.TileCommandsComplete : Prop := ∀ (s : State) (d : Die), Issues s d →
  (∀ (x : MmaFx) (v : Device), s.dev.fxLegal d x = true → v = s.dev.onMitt d x.lm.val (fun y => { y with nextPass := x.q + 1 }) →
    exec (.mmaFx d x) s = .next (into s ((List.range (x.ksplit.toNat + 1)).foldl (Device.passArrives d x) v)) ∧
    (x.ksplit = 0 →
      v.bad (TDescOps.ranges x.a .i16 ++ TDescOps.ranges x.b .i16) = none →
      exec (.mmaFx d x) s = .next (into s (
        if (s.dev.mitt d x.lm.val).fx = [] ∧ Device.fxFits (s.dev.mitt d x.lm.val) x = true then Device.passPart d x v 0
        else v.onMitt d x.lm.val fun y => { y with fx := y.fx ++ [(x, 0)] })))) ∧
  (∀ (i : Issuer) (lm : Lm) (id : BitVec 2) (t : Tile), i.die = d → FreeFor s i →
    ((s.dev.mitt d lm.val).jobs.any fun j => Device.goesBefore j (.mdrain i.iaddr id.toNat)) = false →
    Device.noSuchTile (s.dev.mitt d lm.val) id.toNat = false →
    Device.tileOf (s.dev.mitt d lm.val) id.toNat = some t → t.closed = false → t.purpose = .job →
    exec (.mdrain i.die i.pc lm id) s =
      .next (into s (s.dev.placeTile d lm.val t (s.dev.closeUp { t.unstuck with closed := true }) true))) ∧
  (∀ (lm : Lm) (x : MmaFx) (p : Nat) (rest : List (MmaFx × Nat)) (v : Device), (s.dev.mitt d lm.val).fx = (x, p) :: rest →
    Device.fxFits (s.dev.mitt d lm.val) x = true → v = s.dev.onMitt d lm.val (fun y => { y with fx := rest }) →
    v.bad (TDescOps.ranges x.a .i16 ++ TDescOps.ranges x.b .i16) = none →
    exec (.tileDispatch d lm) s = .next (into s (Device.passPart d x v p))) ∧
  (∀ (lm : Lm) (t : TapTile) (id : Nat), s.dev.fxFirst d lm.val = false →
    Device.tapNext (s.dev.mitt d lm.val) = some t → Device.tapId (s.dev.mitt d lm.val) = some id →
    exec (.tileDispatch d lm) s = .next (into s (s.dev.placeTap d lm.val t id))) ∧
  (∀ (lm : Lm) (ready : List (MittJob × Device)), s.dev.fxFirst d lm.val = false →
    Device.tapNext (s.dev.mitt d lm.val) = none ∨ Device.tapId (s.dev.mitt d lm.val) = none →
    ready = s.dev.readyOn d lm.val →
    (ready = [] → exec (.tileDispatch d lm) s = .next s) ∧
    (ready ≠ [] → ∃ z ∈ ready, exec (.tileDispatch d lm) s = .next (into s z.2) ∧
      ∀ y ∈ ready, Device.workRank s.dev.frm.served z.1 ≤ Device.workRank s.dev.frm.served y.1))

/-- The first requested drain of a mitt writes its tile and frees its slot (R90, R150), and with tap rows gone
out the ENDs that waited for them follow (R289); parts of a long split combine level by level
(R95), where the receiver shares its sender's sticky bits by the model's choice (log entry 144); an empty mitt that switches takes its other profile, its side storage cleared, and is done with its commit (R79, R80); each half whose tap tiles have
all drained is free (R145, R146). -/
def Obligations.TileEventsComplete : Prop := ∀ (s : State) (d : Die), Live s →
  (∀ (lm : Lm) (id : Nat) (rest : List Nat) (t : Tile), (s.dev.mitt d lm.val).drains = id :: rest →
    Device.tileOf (s.dev.mitt d lm.val) id = some t →
    (∀ f : Fmt, t.purpose = .job → Device.drainable t = true → Fmt.ofCode t.o.fmt = some f →
      s.dev.bad (TDescOps.ranges { t.o with rows := t.rows, cols := t.cols } f) = none →
      (((s.dev.drainJob d lm.val t).freeSlot d lm.val id).palm d).held = [] →
      exec (.tileDrain d lm) s = .next (into s ((s.dev.drainJob d lm.val t).freeSlot d lm.val id))) ∧
    (∀ x, t.purpose = .fx x → Device.allCombined t = true → (((s.dev.drainPass d t x).freeSlot d lm.val id).palm d).held = [] →
      exec (.tileDrain d lm) s = .next (into s ((s.dev.drainPass d t x).freeSlot d lm.val id))) ∧
    (∀ x, t.purpose = .tap x → s.dev.foldHolds d x.desc.key x.step = false →
      exec (.tapTileDrain d lm) s = .next (into s ((s.dev.drainTap d x t.slots).freeSlot d lm.val id).sendEnds))) ∧
  (∀ (lm : Lm) (id : BitVec 2) (part level : Nat) (a b : Tile),
    Device.tileOf (s.dev.mitt d (lm.val + part)) id.toNat = some a →
    Device.tileOf (s.dev.mitt d (lm.val + (part + 2 ^ (level - 1)))) id.toNat = some b →
    1 ≤ level → part % 2 ^ level = 0 → a.purpose = b.purpose → a.parts = b.parts → part + 2 ^ (level - 1) < a.parts → a.part = part →
    b.part = part + 2 ^ (level - 1) → a.level = Device.lastLevel part a.parts level →
    b.level = Device.lastLevel (part + 2 ^ (level - 1)) a.parts level →
    exec (.longSplitCombine d lm id part level) s = .next (into s ((s.dev.placeTile d (lm.val + part) (a.sharing b)
          { a.unstuck with slots := List.zipWith (slotCombine a.kind) a.unstuck.slots b.slots, level := level } false).onMitt d
        (lm.val + (part + 2 ^ (level - 1))) (fun x => { x with tiles := x.tiles.filter fun t => t.id != id.toNat })))) ∧
  (∀ lm : Lm, (s.dev.mitt d lm.val).switching = true → (s.dev.mitt d lm.val).tiles = [] →
    exec (.profileSwitch d lm) s = .next (into s (((s.dev.onMitt d lm.val (fun y =>
      { y with profN := !y.profN, switching := false, blocks := [], scales := [] })).setProfileBit d lm.val
        (!(s.dev.mitt d lm.val).profN)).mittApplied d lm.val))) ∧
  ((s.dev.cuff d).held = [] → ∀ free : Half → Half, (∀ h, free h = if h.state = .issuing ∧ h.left = 0 then {} else h) →
    exec (.rowStoreHalfFree d) s = .next (into s (s.dev.onCuff d fun c => { c with h0 := free c.h0, h1 := free c.h1 }).sendEnds))

/-- The frame of the commands that move tiles and write no tensor: an MMA without taps of an engine that waits at no PRUN, a Gauntlet
pass, an MDRAIN of such an engine, a dispatch with no tapped MMA waiting, a combine and a profile switch leave every memory, the fabric and the power
controls as they are, even where they are refused or report an error, and, with the memory log in Bonnet's own entries (R261), even
where an operand cannot be read. -/
def Obligations.TileCommandsKeepMemory : Prop := ∀ (s t : State) (d : Die) (i : Instr),
  let good (x : Mma) : Prop := ∀ af bf, Fmt.ofCode x.af = some af → Fmt.ofCode x.bf = some bf →
    s.dev.bad (TDescOps.ranges x.a af ++ TDescOps.ranges x.b bf) = none
  let free (e : Engine) : Prop := ∀ h ∈ (s.dev.palm d).held, h.engine ≠ e
  let goodFx (x : MmaFx) : Prop := s.dev.bad (TDescOps.ranges x.a .i16 ++ TDescOps.ranges x.b .i16) = none
  (s.dev.fld R.MEM_LOG_BASE_UNITS = 0 ∨ (match i with
    | .mma _ x => good x
    | .mmaFx _ x => goodFx x
    | .tileDispatch _ lm => (∀ y ∈ (s.dev.die d).mitts, ∀ x, MittJob.mma x ∈ y.2.jobs → good x) ∧
        ∀ x ∈ (s.dev.mitt d lm.val).fx, goodFx x.1
    | _ => True)) →
  (match i with
    | .mma e x => e = d ∧ x.a.tap = 0 ∧ free x.engine
    | .mmaFx e x => e = d ∧ (x.byProgram = true → free x.engine)
    | .mdrain e y _ _ => e = d ∧ free y.engine
    | .tileDispatch e _ => e = d ∧ ∀ y ∈ (s.dev.die d).mitts, ∀ x, MittJob.mma x ∈ y.2.jobs → x.a.tap = 0
    | .longSplitCombine e _ _ _ _ => e = d
    | .profileSwitch e _ => e = d
    | _ => False) →
  exec i s = .next t →
  (∀ sp, t.dev.memory sp = s.dev.memory sp) ∧ t.dev.fab = s.dev.fab ∧ t.dev.pwr = s.dev.pwr ∧ t.dev.procs = s.dev.procs ∧
    t.dev.frm.step = s.dev.frm.step ∧ t.dev.frm.count = s.dev.frm.count ∧ t.nv = s.nv ∧ t.tap = s.tap

/-- An integer element of a tile is its exact dot product while nothing saturates (R71, R73, R76): over products `ps`, in groups of
`g`, a slot that starts at `x` ends at `x` plus their sum, with no sticky bit set, where `x` and every sum of a first part of the
products stay inside the slot. -/
def Obligations.IntegerSlotsAreExact : Prop := ∀ (k : SlotKind) (g : Nat) (rnd : Nat → Rnd) (ps : List Int) (x : Int),
  k.isInt = true → 0 < g →
  (∀ n, n ≤ ps.length → -(2 ^ (k.bits - 1)) ≤ x + (ps.take n).sum ∧ x + (ps.take n).sum < 2 ^ (k.bits - 1)) →
  Cell.flush k g rnd ps.length (Cell.run k g rnd 0 { slot := { v := x } } (ps.map fun p => Val.ofInt p 0)) =
    { v := x + ps.sum, ovf := false, inv := false }

/-! ## Vector engines -/

/-- A legal convert, split or narrowing, maximum or minimum of an engine that waits at no PRUN writes its destinations with the values the rules give: the source's
values rounded into the destination (VCVT, VCVT.B, VCVT.U, of a source that is at hand), the pieces of each code (R59, R62; that a top
piece saturates is the model's choice, log entry 187), the high bits of a Q word (R61; that
code 0xA stands for its 32-bit form is the model's choice, log entry 141), the larger or smaller of two values (R56). -/
def Obligations.VectorInstructionsComplete : Prop := ∀ (s : State) (d : Die) (x : Vec) (sf df : Fmt), Free s d x.engine →
  Fmt.ofCode x.srcf = some sf → Fmt.ofCode x.dstf = some df → x.rnd ≠ 3 → s.dev.badDest x.dst df = false →
  TDescOps.rankOk x.src = true →
  (AtHand s.dev x.src → sf.blocked = false → df.blocked = false → s.dev.bad (TDescOps.ranges x.src sf ++ TDescOps.ranges x.dst df) = none →
    exec (.vcvt d x) s = .next (into s (s.dev.convertInto d x (df.beside sf) (s.dev.srcRows x.src x.dst sf)))) ∧
  (AtHand s.dev x.src → sf.wide = true → df.blocked = true → s.dev.bad (TDescOps.ranges x.src sf ++ TDescOps.ranges (Device.destOf x) df) = none →
    exec (.vcvtB d x) s = .next (into s (s.dev.convertInto d x df (s.dev.srcRows x.src x.dst sf)))) ∧
  (AtHand s.dev x.src → sf.blocked = true → df.blocked = false →
    s.dev.bad (TDescOps.ranges (Device.sourceOf x) sf ++ TDescOps.ranges x.dst df) = none →
    exec (.vcvtU d x) s = .next (into s (s.dev.convertInto d x df (s.dev.srcRows (Device.sourceOf x) x.dst sf)))) ∧
  (∀ p1 p2 : TDesc, sf = .fp32 → df = .bf16 → s.dev.badSplit x p1 p2 .bf16 = false →
    s.dev.bad (TDescOps.ranges x.src .fp32 ++ (Device.splitDests x p1 p2).flatMap fun t => TDescOps.ranges t .bf16) = none →
    exec (.vsplitF d x p1 p2) s = .next (into s ((Device.splitDests x p1 p2).zipIdx.foldl (fun v t =>
      v.writePiece d x .bf16 t.1 ((List.range x.dst.rows).map fun r => (List.range x.dst.cols).map fun c =>
        (Device.convPieceF t.2 (s.dev.srcCode x.src .fp32 r c),
          FloatFmt.bf16.decode (Device.pieceF t.2 (s.dev.srcCode x.src .fp32 r c))))) s.dev))) ∧
  (∀ p1 p2 : TDesc, (sf = .f48 ∧ x.np = 3 ∨ sf = .i32 ∧ x.np = 2) → df = .i16 → s.dev.badSplit x p1 p2 .i16 = false →
    s.dev.bad (TDescOps.ranges x.src sf ++ (Device.splitDests x p1 p2).flatMap fun t => TDescOps.ranges t .i16) = none →
    exec (.vsplitI d x p1 p2) s = .next (into s ((Device.splitDests x p1 p2).zipIdx.foldl (fun v t =>
      v.writePiece d x .i16 t.1 ((List.range x.dst.rows).map fun r => (List.range x.dst.cols).map fun c =>
        ({ code := Device.pieceI t.2 (s.dev.srcCode x.src sf r c) },
          .ofInt (Device.pieceVal x.np.toNat t.2 (s.dev.srcCode x.src sf r c)) 0))) s.dev))) ∧
  ((sf = .q2 ∨ sf = .q8) → (df = .f48 ∨ df = .i32) → s.dev.bad (TDescOps.ranges x.src sf ++ TDescOps.ranges x.dst df) = none →
    exec (.vnarrowQ d x) s = .next (into s (s.dev.writeCodes d (Device.destOf x) df
      ((List.range x.dst.rows).map fun r => (List.range x.dst.cols).map fun c =>
        let drop := if df = .f48 then 16 else 32
        let k := Device.narrowQ drop (s.dev.srcCode x.src sf r c)
        (k, .ofInt (signedOf (64 - drop) k.code) (-(((if sf = .q2 then 61 else 55) - drop : Nat) : Int))))))) ∧
  (∀ y : TDesc, sf = df → Device.maxFmt sf = true → TDescOps.rankOk y = true →
    s.dev.bad (TDescOps.ranges x.src sf ++ TDescOps.ranges y sf ++ TDescOps.ranges x.dst df) = none →
    exec (.vmax d x y) s = .next (into s (s.dev.convertInto d { x with rnd := 0 } df
      ((List.range x.dst.rows).map fun r => (List.range x.dst.cols).map fun c =>
        Val.max2 (s.dev.srcElem x.src sf r c) (s.dev.srcElem y sf r c)))) ∧
    exec (.vmin d x y) s = .next (into s (s.dev.convertInto d { x with rnd := 0 } df
      ((List.range x.dst.rows).map fun r => (List.range x.dst.cols).map fun c =>
        Val.min2 (s.dev.srcElem x.src sf r c) (s.dev.srcElem y sf r c)))))

/-- Packed elements (R41): an element stored at place `i` reads back as the low bits of its code, every other element of the tensor reads
as before, and so does every byte outside the whole bytes that hold its bits. -/
def Obligations.PackedElementsReadBack : Prop := ∀ (m : Memory) (a bits i code : Nat), 0 < bits →
  packedCode (setPacked m a bits i code) a bits i = code % 2 ^ bits ∧
  (∀ j, j ≠ i → packedCode (setPacked m a bits i code) a bits j = packedCode m a bits j) ∧
  (∀ k, k < a + i * bits / 8 ∨ a + i * bits / 8 + (i * bits % 8 + bits + 7) / 8 ≤ k → (setPacked m a bits i code).read k = m.read k)

/-- The frame of a written plain tensor: a byte that is none of its rows', of its histogram record's and of its watch record's, neither
of a gap between two rows nor of any other memory, reads as before (R41, R66, R217); far memory where it is not
interleaved (R255). -/
def Obligations.PlainTensorFrame : Prop := ∀ (s : Device) (d : Die) (t : TDesc) (f : Fmt) (rnd : BitVec 2) (inf : Bool) (n : Nat)
  (rows : List (List Val)) (force : Nat → Nat → Bool) (sp : Space) (k w : Nat),
  f.blocked = false → k < sp.bytes → (sp = .far → s.mem.ilv = false) →
  (sp = t.space → ∀ x ∈ rows.zipIdx,
    k < t.addr + x.2 * t.pitch * f.bits / 8 ∨ t.addr + ((x.2 * t.pitch + x.1.length) * f.bits + 7) / 8 ≤ k) →
  (t.hist = true → s.bad [(.near, t.histAddr, 0x110)] = none ∧ (sp = .near → k < t.histAddr ∨ t.histAddr + 0x110 ≤ k)) →
  w = s.watchRecord d s.frm.step.toNat t.layer.toNat →
  (t.dkind ≠ 0 → s.bad [(.near, w, 0x80)] = none ∧ (sp = .near → k < w ∨ w + 0x80 ≤ k)) →
  ((s.writeTensor d t f rnd inf n rows force).1.memory sp).read k = (s.memory sp).read k

/-! ## Palms -/

/-- An instruction that gives every lane its own result writes its destination register in the active lanes its predicate selects, and
leaves every other lane, register and set, and all of the device but this Palm's registers, as they are (R203 to R206); CVTFI also sets
the sticky flags of what saturates or is NaN (R53). -/
def Obligations.LaneInstructionsComplete : Prop :=
  ∀ q ∈ laneOps, ∀ (s : State) (i : PalmIssue) (r : PalmRun) (c slot : Nat) (fresh : Bool) (z : PalmSet) (k : Chunk) (v : Device),
  PalmAt s i q.2 r c slot fresh z → k = chunkOf i r c z →
  v = (if q.2 = .cvtfi then
    s.dev.cvtFlags i.die .i32 (((List.range k.n).filter (k.on i.x)).map fun j => toInt32 (k.srcA .cvtfi i.x j)) else s.dev) →
  exec (q.1 i) s = .next (into s (v.onRun i.die (afterInstr i slot fresh z
    (k.writeV i.x fun j => lane q.2 i.x.m (k.draw s.dev.drawKey i.x j) (k.srcA q.2 i.x j) (k.src i.x.sb i.x.b j) (k.src i.x.sc i.x.c j))
    (r.units.get i.palm))))

/-- The same of the instructions that load, name a place, draw, compare, combine predicates, select and reduce over blocks (R204 to
R209), and of ACCS, which adds to its accumulator (R208). -/
def Obligations.ChunkInstructionsComplete : Prop :=
  ∀ (s : State) (i : PalmIssue) (r : PalmRun) (c slot : Nat) (fresh : Bool) (z : PalmSet) (k : Chunk) (u : PalmUnit) (x : PalmArgs),
  k = chunkOf i r c z → u = r.units.get i.palm → x = i.x →
  let gives (ins : PalmIssue → Instr) (o : PalmOp) (v : PalmSet) : Prop :=
    PalmAt s i o r c slot fresh z → exec (ins i) s = .next (into s (s.dev.onRun i.die (afterInstr i slot fresh z v u)))
  let p (a : BitVec 6) (j : Nat) : Bool := (z.pReg a.toNat).getD j false
  gives .palmNop .nop z ∧
  gives .ld .ld (k.writeV x (s.dev.loadLane k (r.desc.stream x.imm.toNat))) ∧
  gives .ldw .ldw (k.writeV x fun j => toFp (wFull r.desc.wfmt
    (s.dev.near (r.desc.weightAt (Device.oldVersion r.step) k.r (k.c0 + j)) 2) (s.dev.near (r.desc.remAt k.r (k.c0 + j)) 1))) ∧
  gives .ldwo .ldwo (k.writeV x fun j =>
    toFp (r.desc.wfmt.decode (s.dev.near (r.desc.weightAt (Device.oldVersion r.step) k.r (k.c0 + j)) 2))) ∧
  gives .srd .srd (k.writeV x fun j => BitVec.ofNat 32 (k.draw s.dev.drawKey x j)) ∧
  gives .idxr .idxr (k.writeV x fun _ => BitVec.ofNat 32 (r.desc.row0 + k.r)) ∧
  gives .idxc .idxc (k.writeV x fun j => BitVec.ofNat 32 (r.desc.col0 + k.c0 + j)) ∧
  gives .fcmp .fcmp (k.writeP x fun j => lanePred .fcmp x.m (k.srcA .fcmp x j) (k.src x.sb x.b j)) ∧
  gives .fcls .fcls (k.writeP x fun j => lanePred .fcls x.m (k.srcA .fcls x j) (k.src x.sb x.b j)) ∧
  gives .pand .pand (k.writeP x fun j => p x.a j && p x.b j) ∧
  gives .por .por (k.writeP x fun j => p x.a j || p x.b j) ∧
  gives .pnot .pnot (k.writeP x fun j => !p x.a j) ∧
  gives .sel .sel (k.writeV { x with ge := false } fun j =>
    if (z.pReg x.g.toNat).getD j false != x.gn then k.srcA .sel x j else k.src x.sb x.b j) ∧
  (∀ q ∈ blockOps, gives q.1 q.2 (k.writeV x fun j => blockValueOf q.2 (k.blockLanes (j / 2 ^ r.desc.blkLog) (k.srcA q.2 x)))) ∧
  gives .bcnt .bcnt (k.writeV x fun j =>
    toFp (.ofInt ((k.blockLanes (j / 2 ^ r.desc.blkLog) fun n => if p x.a n then 1 else 0).map BitVec.toNat).sum 0)) ∧
  (PalmAt s i .accs r c slot fresh z → exec (.accs i) s = .next (into s (s.dev.onRun i.die (afterInstr i slot fresh z z
    { u with acc := Sparse.put 0 x.d.toNat (fadd2 (Sparse.get 0 x.d.toNat u.acc)
        (reduce fadd2 ((List.range k.n).map (k.srcA .accs x)))) u.acc }))))

/-- The instructions that store, where the histogram record they count into can be written: ST writes its stream's elements, STW the
weights and remainders of the chunk with their digest, counts and events, WCP the chunk's blocks of the working copy; the chunk's own
registers stay, and its place moves on (R194 to R196, R204). -/
def Obligations.PalmStoresComplete : Prop :=
  ∀ (s : State) (i : PalmIssue) (r : PalmRun) (c slot : Nat) (fresh : Bool) (z : PalmSet) (k : Chunk),
  k = chunkOf i r c z → (k.u.record.hist = true → s.dev.bad [(.near, k.u.record.histAddr, 0x110)] = none) →
  let gives (ins : PalmIssue → Instr) (o : PalmOp) (v : Device) : Prop := PalmAt s i o r c slot fresh z →
    exec (ins i) s = .next (into s (v.onRun i.die (afterInstr i slot fresh z z (r.units.get i.palm))))
  gives .st .st (s.dev.storeLanes k .st i.x) ∧ gives .wcp .wcp (s.dev.deriveCopy k) ∧ gives .stw .stw (s.dev.storeWeights k i.x)

/-- The prologue and the epilogue (R201, R203, R204): LDS loads a parameter word, LDH a field of a result, an arithmetic instruction
combines S registers (and CVTFI sets the flags of what saturates or is NaN, R53), and STS hands a word of Palm 0's epilogue to the
status record; each takes the Palm to its next word. -/
def Obligations.ScalarInstructionsComplete : Prop := ∀ (s : State) (i : PalmIssue) (r : PalmRun) (u : PalmUnit),
  Issues s i.die → (s.dev.palm i.die).run = some r → r.stopping = false → u = r.units.get i.palm →
  let reg (a : BitVec 6) : W32 := Sparse.get 0 a.toNat u.s
  let next (o : PalmOp) : Prop := (i.place = .prologue ∧ r.instrAt .prologue u.pc = some (o, i.x)) ∨
    (i.place = .epilogue ∧ r.chunksDone = true ∧ r.combined = true ∧ r.instrAt .epilogue u.epc = some (o, i.x))
  let onward (w : PalmUnit) : PalmUnit := if i.place = .prologue then { w with pc := u.pc + 1 } else { w with epc := u.epc + 1 }
  let becomes (v : Device) (x : W32) : Host.Outcome State Fault Refusal := .next (into s (v.onRun i.die fun _ =>
    { r with units := r.units.set i.palm (onward { u with s := Sparse.put 0 i.x.d.toNat x u.s }) }))
  (next .nop → exec (.palmNop i) s = .next (into s (s.dev.onRun i.die fun _ => { r with units := r.units.set i.palm (onward u) }))) ∧
  (next .lds → exec (.lds i) s = becomes s.dev (BitVec.ofNat 32 (s.dev.near (r.desc.par + 4 * i.x.imm.toNat) 4))) ∧
  (next .ldh → exec (.ldh i) s = becomes s.dev (s.dev.resultField i.die r.step i.x.b.toNat i.x.imm.toNat)) ∧
  (∀ q ∈ laneOps, next q.2 → exec (q.1 i) s =
    becomes (if q.2 = .cvtfi then s.dev.cvtFlags i.die .i32 [toInt32 (reg i.x.a)] else s.dev)
      (lane q.2 i.x.m 0 (if q.2 = .mov ∧ i.x.a = 63 ∧ ¬ i.x.sa then i.x.imm ++ (0 : BitVec 16) else reg i.x.a) (reg i.x.b) (reg i.x.c))) ∧
  (next .sts → i.place = .epilogue → exec (.sts i) s = .next (into s (s.dev.onRun i.die fun _ =>
    { r with units := r.units.set i.palm { u with epc := u.epc + 1 },
             sts := if i.palm = 0 then Sparse.put 0 i.x.imm.toNat (reg i.x.a) r.sts else r.sts })))

/-- A PRUN whose fence is clear enters the Palm queue (R199); with no commit pending, the run at its front starts on an accepted program
that stores into no frozen weight, under the enable, where its shard's last export is over and no copy run is due or done for it, and breaks the
pins of the bank it writes (R117, R197, R201, R281); a run whose chunks and epilogues have ended writes its status record, counts, leaves
the Palms, and has its shard's version to publish and export (R210, R211, R279); a RUNPACK writes the root in force, or the identity,
which it reports (R213), the pieces of a form one behind the other, which is the model's choice (log entry 88). That V and P registers keep their contents from run to run, and the accumulators start a run at +0, is the model's
choice (log entries 16 and 65), and so is that form 1 rounds to FP32 first (log entry 162). -/
def Obligations.PalmRunsComplete : Prop := ∀ (s : State) (d : Die), Live s →
  (∀ (e : Engine) (a : W64) (l : BitVec 14), s.dev.issues d = true → l.toNat ∉ (s.dev.palm d).seen → (s.dev.palm d).held = [] →
    (s.dev.palm d).queue.length < 64 → s.dev.fenceClear d e l.toNat = true →
    exec (.prun ⟨d, e, a⟩ l) s = .next (into s ((s.dev.onPalm d fun p =>
      { p with seen := p.seen ++ [l.toNat], held := [], queue := p.queue ++ [l.toNat] }).starvation d l.toNat))) ∧
  (∀ (l : Nat) (rest : List Nat) (r : PalmRun) (v : Device), s.dev.issues d = true → (s.dev.palm d).run = none →
    (s.dev.palm d).held = [] → (s.dev.palm d).queue = l :: rest → s.dev.unitPends 5 d 0 = false → s.dev.flag (R.PALM_CTL_EN.die d) = true →
    (∀ e, s.dev.ownedShard l d = some e → e ∉ s.dev.fab.exportDue ∧ e ∉ s.dev.fab.copyDue ∧ e ∉ s.dev.fab.copied) →
    r = { layer := l, step := s.dev.frm.step, desc := s.dev.updateDesc d l,
          words := (List.range ((s.dev.updateDesc d l).pro + (s.dev.updateDesc d l).body + (s.dev.updateDesc d l).epi)).map
            fun i => s.dev.near ((s.dev.updateDesc d l).prog + 8 * i) 8,
          units := (s.dev.palm d).regs.map fun z => { sets := z } } →
    s.dev.frozenRun d r = false → r.accepted = true → s.dev.bad (Device.runRanges d (s.dev.updateDesc d l)) = none →
    v = s.dev.onPalm d (fun p => { p with queue := rest, run := some r, cur := l }) →
    exec (.palmRunStart d) s = .next (into s (match s.dev.ownedShard l d with
      | some e => v.breakPins e s.dev.frm.step
      | none => v))) ∧
  (∀ (r : PalmRun) (v : Device), (s.dev.palm d).run = some r → Device.runOver r = true → r.stopping = false →
    v = (((s.dev.writeBytes .near r.desc.status (Device.statusRecord r)).count (R.PALM_RUNS_COUNT.die d) 1).count
      (R.PALM_CYCLES_COUNT.die d) (4 * Device.runCycles r)).onPalm d (fun p => { p with run := none, regs := r.units.map (·.sets) }) →
    exec (.palmRunComplete d) s = .next (into s (match v.ownedShard r.layer d with
      | some e => v.onFab fun f => { f with
          ran := f.ran ++ [{ entry := e, step := r.step, digest := Sparse.get 0 e f.digests }],
          exportDue := if v.sinks = [] then f.exportDue else f.exportDue ++ [e] }
      | none => v))) ∧
  (∀ (g : Engine) (a : W64) (i : W16) (t : TDesc) (form : BitVec 2) (f : Fmt) (v : Device) (code : Nat → Nat → Nat), Free s d g → TDescOps.rankOk t = true →
    s.dev.bad (Device.rootPieces t form.toNat) = none → f = Device.rootFmt form.toNat →
    (s.dev.inForce (s.dev.solveDesc d i.toNat) = none → v = s.dev.palmEvent d R.PALM_STAT_NOROOT ∧
      code = fun i j => if i = j then 0x3F800000 else 0) →
    (∀ c, s.dev.inForce (s.dev.solveDesc d i.toNat) = some c → v = s.dev ∧ code = s.dev.rootEntry c (s.dev.near c 1) (s.dev.near (c + 8) 4)
      (s.dev.near (c + 4) 2) (s.dev.near (c + 2) 1 == 1)) →
    exec (.runpack ⟨d, g, a⟩ i t form) s = .next (into s ((List.range (max 1 form.toNat)).foldl (fun v k =>
      (TDescOps.positions t).foldl (fun v rc => v.putCode { t with addr := t.addr + k * Device.rootSize t form.toNat } f rc.1 rc.2
        (if form = 0 then code rc.1 rc.2 else Device.pieceF k (code rc.1 rc.2))) v) v)))

/-- The words of Palm instructions (R201, R203): every opcode with every field value is read back from its word, and a word that is read
is the word of what is read, so that no bit of it is dropped. -/
def Obligations.PalmWordsRoundTrip : Prop := ∀ (o : PalmOp) (x : PalmArgs),
  decodePalm (encodePalm o x) = some (o, x) ∧ ∀ w : W64, decodePalm w = some (o, x) → encodePalm o x = w

/-- A V register written by an instruction holds the new value in the active lanes that its predicate selects and the old one in every
other, and the other registers stay (R206). -/
def Obligations.WrittenRegisterLanes : Prop := ∀ (k : Chunk) (x : PalmArgs) (f : Nat → W32) (j : Nat) (n : BitVec 6),
  j < 512 →
  ((k.writeV x f).vReg x.d.toNat).getD j 0 = (if j < k.n ∧ k.on x j = true then f j else (k.set_.vReg x.d.toNat).getD j 0) ∧
  (n ≠ x.d → (k.writeV x f).vReg n.toNat = k.set_.vReg n.toNat)

/-! ## Memory-side adders -/

/-- A group opens with what its descriptor says, a SKIP of an unresolved key makes it absent, and lets
the late key of a shard's group be open in the next step (R286), a MADD sends its source's lines and then
its END to its die's adder or, kept for a later skip, towards the peer that owns its shard, its END once the tap rows of the step are out
(R247, R288, R289), and an aligned integer add inside near memory adds its elements and ORs the mask in where one saturates (R244, R246, R247,
R250). -/
def Obligations.AdderInstructionsComplete : Prop := ∀ (s : State) (d : Die),
  (∀ (i : Issuer) (gid : BitVec 12) (v : Device), i.die = d → FreeFor s i → s.dev.openGroup d gid.toNat none s.dev.frm.step = (v, true) →
    exec (.mgopen i gid) s = .next (into s v) ∧
    (∃ g, v.group? d gid.toNat = some g ∧ g.lines = s.dev.near (s.dev.groupDesc d gid.toNat) 4 ∧
      g.n = s.dev.near (s.dev.groupDesc d gid.toNat + 4) 2 ∧ g.dest = s.dev.near (s.dev.groupDesc d gid.toNat + 8) 8 ∧
      g.keys = [] ∧ g.ordered = !(s.dev.near (s.dev.groupDesc d gid.toNat + 6) 1).testBit 0)) ∧
  (∀ (i : Issuer) (gid : BitVec 12) (key : W16) (epoch : Byte) (g : Group), i.die = d → FreeFor s i → s.dev.group? d gid.toNat = some g → g.epoch = epoch →
    key.toNat < g.n → (g.key key.toNat).state = .unresolved →
    exec (.mskip i gid key epoch) s = .next (into s ((((s.dev.noteSkip g key.toNat).onGroup d gid.toNat fun g =>
      g.setKey key.toNat { state := .skipped }).completeIf d gid.toNat).skipOutcome d .skipped))) ∧
  (∀ (i : Issuer) (gid : BitVec 12) (key : W16) (epoch : Byte) (src : TDesc) (l : Nat) (e : Bool) (v : Device), i.die = d → FreeFor s i → TDescOps.rankOk src = true → s.dev.bad (TDescOps.ranges src .fp32) = none →
    v = (s.dev.sourceLines src).zipIdx.foldl (fun v x =>
      v.arrive d { gid := gid.toNat, key := key.toNat, epoch, item := some (.line (l + x.2) x.1) }) s.dev →
    exec (.madd i { gid } key epoch src l e) s =
      .next (into s (if e then v.arrive d { gid := gid.toNat, key := key.toNat, epoch } else v))) ∧
  (∀ (i : Issuer) (gid : BitVec 12) (key : W16) (src : TDesc) (l z : Nat) (x : Sum) (ls : List (Nat × List W32)) (w : Bool), i.die = d →
    FreeFor s i → w = s.dev.tapsPending z → TDescOps.rankOk src = true → s.dev.bad (TDescOps.ranges src .fp32) = none → s.dev.entryOwner z ≠ s.dev.selfIdx →
    s.dev.peerDead (s.dev.entryOwner z) = false → (s.dev.fab.sums.any fun y => y.entry == z && y.key == key.toNat && y.step == s.dev.frm.step) = false →
    ls = ((s.dev.sourceLines src).zipIdx.map fun y => (l + y.2, y.1)) →
    x = { entry := z, key := key.toNat, step := s.dev.frm.step, epoch := s.dev.fab.epoch, lines := ls, ended := !w, endDue := w } →
    exec (.madd i ⟨gid, some z⟩ key s.dev.fab.epoch src l true) s = .next (into s
      ((s.dev.onFab fun f => { f with sums := f.sums ++ [x] }).send (.contribution (s.dev.entryOwner z) z key.toNat s.dev.fab.epoch ls (!w))))) ∧
  (∀ (op : AddOp) (a : Nat) (ws : List W64) (f : Nat) (mask : W32) (z : Memory × Bool) (v : Device), Live s → a % addBytes op = 0 →
    a + addBytes op * ws.length ≤ 2 ^ 40 → s.dev.bad [(.near, a, addBytes op * ws.length)] = none → s.dev.bad [(.near, f, 4)] = none →
    z = addElems op s.dev.mem.near a ws → v = s.dev.setMemory .near z.1 →
    exec (.memorySideAdd op a ws f mask) s = .next (into s (if z.2 then v.setNear f 4 (v.near f 4 ||| mask.toNat) else v)))

/-- What arrives for an unresolved key of an open group (R247 to R252): an ordered group stages a new line that the area admits, an
unordered one that is not demoted adds it at once, and a demoted one stages it as an ordered one does; the first line of an unordered
contribution counts in GLB_NDET_CNT, or in GLB_NDET_DEMOTED where its group is demoted (R229, R230, R252); an END of a complete key resolves it; the oldest held item that finds room goes on;
the adder takes the lowest key that may apply, adds its staged lines and counts it applied. -/
def Obligations.AdderEventsComplete : Prop := ∀ (s : State) (d : Die) (gid : BitVec 12) (g : Group), Live s →
  s.dev.group? d gid.toNat = some g →
  (∀ (key : W16) (epoch : Byte) (n c : Nat) (ws : List W32) (k : GKey) (v : Device), s.dev.isHeld d gid.toNat key.toNat = false → g.epoch = epoch →
    key.toNat < g.n → k = g.key key.toNat → k.state = .unresolved → n < g.lines → n ∉ k.seen →
    c = s.dev.fld R.GLB_NDET_CNT_LO_VALUE + s.dev.fld R.GLB_NDET_CNT_HI_VALUE * 2 ^ 32 →
    v = (if g.ordered = true ∨ k.seen ≠ [] then s.dev
      else if g.demoted = true then s.dev.count R.GLB_NDET_DEMOTED_VALUE 1
      else ((if c = 0 then s.dev.setFld R.GLB_NDET_FIRST_VALUE s.dev.stepNo.toNat else s.dev).setFld R.GLB_NDET_CNT_LO_VALUE
        ((c + 1) % 2 ^ 32)).setFld R.GLB_NDET_CNT_HI_VALUE ((c + 1) / 2 ^ 32 % 2 ^ 32)) →
    (∀ p : Nat, g.ordered = true ∨ g.demoted = true → s.dev.admits d gid.toNat key.toNat = true → p = v.freePlace d →
      v.bad [(.near, v.stageAddr d p, 256)] = none →
      exec (.lineArrival d gid key epoch (.line n ws)) s = .next (into s
        ((v.writeBytes .near (v.stageAddr d p) (Device.lineBytes ws)).onGroup d gid.toNat fun g =>
          g.setKey key.toNat { k with seen := k.seen ++ [n], staged := k.staged ++ [(n, p)] }))) ∧
    (g.ordered = false → g.demoted = false →
      exec (.lineArrival d gid key epoch (.line n ws)) s = .next (into s ((v.onGroup d gid.toNat fun g =>
        g.setKey key.toNat { k with seen := k.seen ++ [n] }).addLines d gid.toNat [(n, ws)])))) ∧
  (∀ (key : W16) (epoch : Byte) (k : GKey), s.dev.isHeld d gid.toNat key.toNat = false → g.epoch = epoch → key.toNat < g.n →
    k = g.key key.toNat → k.state = .unresolved → g.lines ≤ k.seen.length → k.taps = [] → g.shard = none →
    exec (.endMarker d gid key epoch) s = .next (into s ((s.dev.onGroup d gid.toNat fun g' =>
      g'.setKey key.toNat { k with state := if g.stages then .ended else .applied }).completeIf d gid.toNat))) ∧
  (∀ (h : HeldLine) (rest : List HeldLine) (v : Device), (s.dev.adders d).held = h :: rest →
    v = (s.dev.onAdders d fun x => { x with held := rest }).arriveNow d h → (v.adders d).held.length ≤ rest.length →
    exec (.stagingRetry d) s = .next (into s v)) ∧
  (g.applying = none → g.stages = true →
    exec (.keyApply d gid) s = .next (into s (s.dev.onGroup d gid.toNat fun g' => { g' with applying := g'.next }))) ∧
  (∀ k : Nat, g.applying = some k → exec (.keyApplied d gid) s = .next (into s
    (((s.dev.addLines d gid.toNat ((g.key k).staged.map fun x => (x.1, s.dev.stagedLine d x.2))).onGroup d gid.toNat fun g' =>
      { g'.setKey k { g'.key k with state := .applied, staged := [] } with applying := none }).completeIf d gid.toNat)))

/-- The key that a group applies next is one resolved by END with every lower key resolved and none of them still to be applied
(R248). -/
def Obligations.KeysApplyInOrder : Prop := ∀ (g : Group) (k : Nat), g.next = some k →
  k < g.n ∧ (g.key k).state = .ended ∧ ∀ j, j < k → (g.key j).state ≠ .unresolved ∧ (g.key j).state ≠ .ended

/-- ADD.I64M gives the same sum in any order; so do ADD.I64S and ADD.U32S where nothing saturates (R244). An integer add changes no byte
of near memory outside its elements and, where one of them saturates, the flag word; one that is refused adds at most an entry to a
memory log kept in near memory (R261). -/
def Obligations.IntegerAdds : Prop :=
  (∀ o a b : Nat,
    (addElem .i64m (addElem .i64m o a).1 b).1 = (addElem .i64m (addElem .i64m o b).1 a).1 ∧
    ((addElem .u32s o a).2 = false → (addElem .u32s (addElem .u32s o a).1 b).2 = false →
      (addElem .u32s o b).2 = false ∧ (addElem .u32s (addElem .u32s o b).1 a).2 = false ∧
      (addElem .u32s (addElem .u32s o b).1 a).1 = (addElem .u32s (addElem .u32s o a).1 b).1) ∧
    (a < 2 ^ 64 → b < 2 ^ 64 → o < 2 ^ 64 → (addElem .i64s o a).2 = false → (addElem .i64s (addElem .i64s o a).1 b).2 = false →
      (addElem .i64s o b).2 = false → (addElem .i64s (addElem .i64s o b).1 a).2 = false →
      (addElem .i64s (addElem .i64s o b).1 a).1 = (addElem .i64s (addElem .i64s o a).1 b).1)) ∧
  (∀ (s t : State) (op : AddOp) (a : Nat) (ws : List W64) (f : Nat) (mask : W32) (k : Nat),
    (s.dev.fld R.MEM_LOG_BASE_UNITS = 0 ∨ s.dev.bad [(.near, a, addBytes op * ws.length)] = none ∧ s.dev.bad [(.near, f, 4)] = none) →
    k < 2 ^ 40 → exec (.memorySideAdd op a ws f mask) s = .next t → (k < a ∨ a + addBytes op * ws.length ≤ k) →
    (k < f ∨ f + 4 ≤ k ∨ (addElems op s.dev.mem.near a ws).2 = false) → t.dev.mem.near.read k = s.dev.mem.near.read k)

/-! ## Hatbox, residual stream, element-wise functions -/

/-- A push of an open micro-batch whose record fits behind the newest one writes it there and makes it the newest record of its segment
(R127, R128, R134); the FP32 add of the residual stream, which goes out where it crosses to a peer, and an element-wise function write their
destinations, and the side tensor of a function is then resident (R19, R113, R116, R136). The model's choices: that a sum beyond FP32
saturates (log entry 177), the offset in the header (log entry 176), that a function's value is an FP32 value which is then rounded into the
destination (log entry 23), and that the descriptor's peer is where the residual add goes out (log entry 171). -/
def Obligations.ActivationInstructionsComplete : Prop := ∀ (s : State) (d : Die),
  (∀ (x : HPush) (sf df : Fmt) (data : List Byte) (cs : List Conv) (g : HbxSeg) (r : HbxRegion) (z : HbxRec), Free s d x.engine →
    s.dev.fld (Device.regionFld R.HBX_SIZE_UNITS d x.stage.val) ≠ 0 → Fmt.ofCode x.src.fmt = some sf → Fmt.ofCode x.dstf = some df →
    x.kind.toNat ≤ 4 → TDescOps.rankOk x.src = true → x.park = false → r = s.dev.region d x.stage.val →
    s.dev.pushData x sf (df.beside sf) = (data, cs) → s.dev.bad (TDescOps.ranges x.src sf) = none →
    s.dev.bad [(.near, s.dev.regionBase d x.stage.val + g.top, recordBytes data.length)] = none →
    r.segs.getLast? = some g → g.mb = x.mb → g.recs ≠ [] → r.opened.dropLast.contains x.mb = false →
    r.roomAt (s.dev.ringBytes d x.stage.val) g.top (recordBytes data.length) = true →
    z = { layer := x.layer, kind := x.kind, mb := x.mb, place := .region, off := g.top, len := data.length } →
    exec (.hpush d x) s = .next (into s (s.dev.writeRecord d x.stage.val x z (Device.prevOff (some g)) data fun v =>
      ((v.setRegion d x.stage.val { r with
        segs := r.segs.dropLast ++ [{ g with top := g.top + recordBytes data.length, ext := g.top + recordBytes data.length,
                                             recs := z :: g.recs }] }).raiseHwm d x.stage.val).cvtFlags d (df.beside sf) cs))) ∧
  (∀ (g : Engine) (a : W64) (out stream : TDesc) (w : Device × List Conv), Free s d g →
    Fmt.ofCode out.fmt = some .fp32 → Fmt.ofCode stream.fmt = some .fp32 →
    s.dev.badDest stream .fp32 = false → TDescOps.rankOk out = true →
    s.dev.bad (TDescOps.ranges out .fp32 ++ TDescOps.ranges stream .fp32) = none →
    w = s.dev.writeTensor d stream .fp32 0 false 0 ((List.range stream.rows).map fun r => (List.range stream.cols).map fun c =>
      (s.dev.elem stream .fp32 r c).add (s.dev.elem out .fp32 r c)) (fun _ _ => false) →
    exec (.vectorFp32Add ⟨d, g, a⟩ out stream) s = .next (into s (match stream.toPeer with
      | some p => w.1.sendTensor { peer := p } (w.2.map (·.code))
      | none => w.1))) ∧
  (∀ (i : Issuer) (n : BitVec 4) (p : W16) (src dst side : TDesc) (sf df : Fmt) (zs ys : List (List Val)) (w : Device × List Conv), i.die = d → FreeFor s i →
    n.toNat ≤ 8 → dst.rnd ≠ 3 → Fmt.ofCode src.fmt = some sf → Fmt.ofCode dst.fmt = some df → s.dev.badDest dst df = false →
    TDescOps.rankOk src = true → TDescOps.rankOk side = true →
    s.dev.bad (TDescOps.ranges src sf ++ TDescOps.ranges dst df ++ Device.sideRanges n.toNat dst side) = none →
    zs = s.dev.srcRows src dst sf → ys = (zs.map fun row => row.map (Device.forwardValue n.toNat p)) →
    w = s.dev.writeTensor d dst (df.beside sf) dst.rnd dst.inf (Device.vecDraw dst) ys (fun _ _ => false) →
    exec (.applyF i.die i.pc n p src dst side) s = .next (into s
      (((w.1.cvtFlags d (df.beside sf) w.2).writeSide n.toNat side zs ys).nowResident side.space side.addr
        ((Device.sideRanges n.toNat dst side).map fun z => z.2.2).sum)))

/-- A pop of the newest record of its micro-batch hands over the record's data and takes it off its segment (R129); the data written with a
record in a region reads back from behind its 64-byte header (R128). -/
def Obligations.PopReturnsTheNewest : Prop := (∀ (s : State) (d : Die) (x : HPop) (r : HbxRegion) (g : HbxSeg) (i : Nat) (z : HbxRec)
  (rest : List HbxRec), Free s d x.engine → x.park = false → s.dev.fld (Device.regionFld R.HBX_SIZE_UNITS d x.stage.val) ≠ 0 →
  r = s.dev.region d x.stage.val → r.segs.zipIdx.find? (fun y => y.1.mb == x.mb && y.1.recs != []) = some (g, i) →
  g.recs = z :: rest → z.layer = x.layer → z.kind = x.kind → z.mb = x.mb →
  s.dev.bad [((s.dev.recordAddr d x.stage.val z).1, (s.dev.recordAddr d x.stage.val z).2, z.bytes), (x.dst, x.addr, z.len)] = none →
  exec (.hpop d x) s = .next (into s ((s.dev.deliver d x.stage.val x z).setRegion d x.stage.val
    ({ r with segs := r.segs.zipIdx.map fun y =>
      if y.2 = i then Device.popTop (i + 1 == r.segs.length) y.1 else y.1 } : HbxRegion).reclaim))) ∧
  (∀ (v : Device) (d : Die) (k : Nat) (x : HPush) (z : HbxRec) (prev : W64) (data : List Byte), z.place = .region → z.len = data.length →
    v.regionBase d k + z.off + z.bytes ≤ 2 ^ 40 → v.bad [(.near, v.regionBase d k + z.off, z.bytes)] = none →
    (v.writeRecord d k x z prev data fun u => u).readBytes .near (v.regionBase d k + z.off + 64) z.len = data)

/-! ## Cuff and Gauntlet -/

/-- The fold in front begins once the Brim has done with its side, under the Cuff's enable; when it ends it has decayed and added its
side, or cleared one newly enabled, and leaves the queue, and the shards that waited for it to leave the device go out (R155, R158, R159,
R162). -/
def Obligations.FoldsComplete : Prop := ∀ (s : State) (d : Die) (f : FoldJob) (rest : List FoldJob), Live s →
  (s.dev.cuff d).folds = f :: rest →
  (s.dev.brimReads d f.desc = false → s.dev.flag (R.CUFF_CTL_EN.die d) = true →
    exec (.fold d) s = .next (into s (s.dev.onCuff d fun c => { c with folds := { f with running := true } :: rest }))) ∧
  (f.running = true →
    exec (.foldComplete d) s = .next (into s (((if f.clear then s.dev.clearNow d f.desc else s.dev.foldSide d f.desc f.step).onCuff d
      fun c => { c with folds := rest }).sendLeaving)))

/-- A GSOLVE of an enabled Gauntlet joins the queue unless its descriptor is busy (R164); the first fresh solve is assembled where it
fits (R165); an assembled problem waits for the Gauntlet (R172); on lanes that go on (R386), a solve that waits at the head of the queue
resumes, and else the assembled one starts (R165, R187); under REPLAY each looks up its record first, stops where that says so, and
with none does not match (R189); a panel, an iteration and the final test have the effect that the arithmetic gives them, and end the solve
where it ends (R177 to R184). -/
def Obligations.SolveCommandsComplete : Prop := ∀ (s : State) (d : Die), Live s → s.dev.flag (R.GNT_CTL_EN.die d) = true →
  let entry (i : Nat) : Option (Nat × Nat) := if s.dev.replaying d then s.dev.replayEntry d i else none
  let unmatched (i : Nat) : Prop := s.dev.replaying d = true ∧ s.dev.replayEntry d i = none
  (∀ (by_ : Issuer) (i : W16), by_.die = d → FreeFor s by_ → i ≠ 65535 → s.dev.frozenSolve d i.toNat = false → Device.solveBusy (s.dev.gnt d) i.toNat = false →
    exec (.gsolve by_ i) s = .next (into s (s.dev.onGnt d fun g => { g with queue := g.queue ++ [.fresh i.toNat s.dev.frm.step] }))) ∧
  (∀ (i : Nat) (st : W32) (x : SDesc), (s.dev.gnt d).brim = none →
    Device.nextFresh (s.dev.gnt d).queue = some (i, st) → x = s.dev.solveDesc d i → s.dev.foldPending d x = false →
    s.dev.foldMoves x = false → s.dev.matrixFits d x = true →
    (∀ (v : Solve) (w : Device), ¬ unmatched i →
      v = { index := i, step := st, desc := x, asm := s.dev.assembly d x st.toNat, replay := entry i } →
      w = s.dev.onGnt d (fun g => { g with queue := g.queue.erase (.fresh i st), brim := some v }) →
      exec (.assemblyStart d) s = .next (into s (match Device.recordedStop v with
        | some o => if o = outSuspended then w else w.endSolve d v o (-1)
        | none => w))) ∧
    (unmatched i → ((s.dev.replayMismatch d i).gnt d).queue = [] →
      exec (.assemblyStart d) s = .next (into s (s.dev.replayMismatch d i)))) ∧
  (∀ v : Solve, (s.dev.gnt d).brim = some v → v.phase = .assemble → v.asm.refused = false → v.asm.ovf = false → v.asm.inv = false →
    exec (.assemblyComplete d) s = .next (into s (s.dev.onGnt d fun g => { g with brim := some { v with phase := .assembled } }))) ∧
  (s.dev.duty d ≠ 0 → (s.dev.gnt d).run = none →
    (∀ (v w : Solve) (rest : List QItem), (s.dev.gnt d).queue = .held v :: rest → ¬ unmatched v.index →
      w = { v with resumes := v.resumes + 1, replay := entry v.index } →
      exec (.solveStart d) s = .next (into s (((s.dev.onGnt d fun g => { g with queue := rest, run := some w }).onDie d fun x =>
        { x with solveOvf := false, solveInv := false }).unitDone d w))) ∧
    (∀ v : Solve, (∀ w rest, (s.dev.gnt d).queue ≠ .held w :: rest) → (s.dev.gnt d).brim = some v → v.phase = .assembled →
      exec (.solveStart d) s = .next (into s (((s.dev.onGnt d fun g =>
        { g with brim := none, run := some (v.begin_ (s.dev.warmStart v.desc)) }).onDie d fun x =>
          { x with solveOvf := false, solveInv := false }).unitDone d (v.begin_ (s.dev.warmStart v.desc)))))) ∧
  (∀ v : Solve, s.dev.duty d ≠ 0 → (s.dev.gnt d).run = some v →
    (v.phase = .factor → s.dev.passesDone d = true →
      exec (.panelComplete d) s = .next (into s (s.dev.unitDone d (v.panelStep (s.dev.warmStart v.desc))))) ∧
    (v.phase = .iterate → s.dev.passesDone d = true →
      exec (.iterationComplete d) s = .next (into s (s.dev.unitDone d v.iterStep))) ∧
    (v.phase = .test → (v.finalRho s.dev.drawKey).2 = false → v.ovf = false → v.inv = false → (s.dev.die d).solveOvf = false →
      (s.dev.die d).solveInv = false →
      exec (.finalTestComplete d) s = .next (into s (s.dev.endOwn d v
        (if v.passes (v.finalRho s.dev.drawKey).1 then outPassed else outResidual) (v.finalRho s.dev.drawKey).1))))

/-- An attempt that ends with another outcome than PASSED leaves no PASSED solve of its descriptor behind for a tick to commit (R168,
R185). -/
def Obligations.OnlyPassedSolvesCommit : Prop := ∀ (s : Device) (d : Die) (v : Solve) (outcome : Nat) (rho : Int),
  outcome ≠ outPassed →
  ∀ p ∈ ((s.endSolve d v outcome rho).gnt d).passed, p.index ≠ v.index

/-! ## Frame and program -/

/-- A frame tick, a recognised edge on TICK_IN, a tick of the fabric's master and a tick that the timer generates in a lost one's place
all have a tick's effects (R20 to R24); one of the timer in place of an external source may still be replaced, and on the timer an external
tick, of TICK_IN or of the fabric's master, is taken within a tenth of a period only, else it is PHASE_ERR and the device stays on the timer
(R23, R276); an edge on TICK_IN within 0.9 of a period of the last tick is PHASE_ERR too (R428); TICK_OUT falls after its pulse (R24). That the
ends of these windows lie inside them is the model's choice (log entry 99). -/
def Obligations.TicksComplete : Prop := ∀ (s : State) (done : ProgDone), Live s →
  let inPlace (v : Device) : Device :=
    (v.onFrm fun f => { f with replaceable := f.onTimer }).onFab fun f => { f with oldMaster := none }
  let onTimer (i : Instr) (c : Nat) : Prop := s.dev.frm.onTimer = true →
    (s.dev.frm.stay = false → 9 * s.dev.period ≤ 10 * c → 10 * c ≤ 11 * s.dev.period → s.dev.period < 10 * c →
      exec i s = .next (into s ((s.dev.onFrm fun f => { f with onTimer := false }).tick done))) ∧
    (s.dev.frm.stay = false → 10 * c ≤ s.dev.period → s.dev.frm.replaceable = true →
      exec i s = .next (into s (s.dev.onFrm fun f => { f with onTimer := false, replaceable := false, since := 0 }))) ∧
    (10 * c < 9 * s.dev.period ∨ 11 * s.dev.period < 10 * c → s.dev.period < 10 * c ∨ s.dev.frm.replaceable = false →
      exec i s = .next (into s ((s.dev.event R.FRM_STAT_PHASE_ERR).onFrm fun f => { f with stay := true }))) ∧
    (s.dev.frm.stay = true → 9 * s.dev.period ≤ 10 * c ∧ 10 * c ≤ 11 * s.dev.period ∨ 10 * c ≤ s.dev.period ∧ s.dev.frm.replaceable = true →
      exec i s = .next s)
  (s.dev.frm.started = true →
    (s.dev.external = false ∨ s.dev.frm.onTimer = false → exec (.frameTick done) s = .next (into s (s.dev.tick done))) ∧
    (s.dev.external = true → s.dev.frm.onTimer = true → exec (.frameTick done) s = .next (into s (inPlace (s.dev.tick done)))) ∧
    (s.dev.fld R.FRM_CTL_SRC = 2 → s.dev.external = true → s.dev.frm.onTimer = false →
      s.dev.frm.afresh = false ∨ 9 * s.dev.period ≤ 1000 * s.dev.frm.since →
      exec (.fabricTick done) s = .next (into s ((s.dev.onFrm fun f => { f with afresh := false }).tick done))) ∧
    (s.dev.fld R.FRM_CTL_SRC = 2 → s.dev.external = true →
      (s.dev.frm.onTimer = false → s.dev.frm.afresh = true → 1000 * s.dev.frm.since < 9 * s.dev.period →
        exec (.fabricTick done) s = .next (into s (s.dev.event R.FRM_STAT_PHASE_ERR))) ∧
      onTimer (.fabricTick done) (100 * s.dev.frm.since)) ∧
    (∀ c : Nat, s.tap.holds = false → s.dev.fld R.FRM_CTL_SRC = 1 →
      (s.dev.frm.onTimer = false → 9 * s.dev.period ≤ 10 * c →
        exec (.tickInEdge c done) s = .next (into s ((s.dev.onFrm fun f => { f with afresh := false }).tick done))) ∧
      (s.dev.frm.onTimer = false → 10 * c < 9 * s.dev.period →
        exec (.tickInEdge c done) s = .next (into s (s.dev.event R.FRM_STAT_PHASE_ERR))) ∧
      onTimer (.tickInEdge c done) c) ∧
    (∀ v : Device, s.dev.external = true → s.dev.frm.onTimer = false → 5 * s.dev.fld R.FRM_CTL_PERIOD_US ≤ 4 * s.dev.frm.since →
      v = (s.dev.event R.FRM_STAT_TICK_LOST).post 0x0102 1 Device.frmUnit (BitVec.ofNat 64 (s.dev.frm.count.toNat + 1)) →
      exec (.tickLost done) s = .next (into s (inPlace (((v.onFrm fun f => { f with onTimer := true, afresh := false }).tick done).onFrm
        fun f => { f with since := s.dev.frm.since - s.dev.fld R.FRM_CTL_PERIOD_US }))))) ∧
  exec .tickOutLow s = .next (into s (s.dev.onFrm fun f => { f with tickOut := false }))

/-- Every tick counts once in FRM_COUNT and raises TICK_OUT, whatever else it does (R24). With no job in RUNNING it only counts and
applies the commits of the frame boundary; one that comes while the program still issues, or a peer has not acknowledged what the step
sends it, is an overrun (R19, R26, R28). That the command says what the program has
issued and its peers have acknowledged, and that what remains of the tap batches closes at the tick, is the model's choice (log entry 11). -/
def Obligations.TicksCount : Prop := ∀ (s : Device) (done : ProgDone),
  (s.tick done).frm.count = s.frm.count + 1 ∧ (s.tick done).frm.tickOut = true ∧
  (s.cmd.dstate ≠ .running → s.tick done = s.pulse.frameCommits) ∧
  (s.cmd.dstate = .running → s.frm.stepRun = true → done.issued = false →
    s.tick done = (s.pulse.acknowledged done.acked).sendEnds.overrun) ∧
  (∀ x : Outgoing, s.cmd.dstate = .running → s.frm.stepRun = true → x ∈ s.fab.outgoing → s.peerDead x.peer.val = false → x ∉ done.acked →
    done.issued = true → s.tick done = (s.pulse.acknowledged done.acked).closeBatches.sendEnds.overrun)

/-- JEND of CD0 is remembered with its code, and of any other die is illegal (R323, R332); JSTAT returns whether a yield is visible
(R331); a completed Visor check takes its patch off the die, counts, and reports every element that is a FAULT or a DRIFT and the worst
exponent of those that give one, where its count in the watch record can be written; an integer element agrees where it is the exact sum,
and one that saturated is not counted (R217, R220,
R223 to R225). -/
def Obligations.ProgramCommandsComplete : Prop := ∀ s : State, Live s →
  (∀ i : Issuer, FreeFor s i →
    (∀ j : Job, i.die = 0 → s.dev.cmd.job = some j → j.jend = none →
      exec (.jendDone i.die i.pc) s = .next (into s (s.dev.onCmd fun c => { c with job := some { j with jend := some .done } })) ∧
      exec (.jendRelease i.die i.pc) s = .next (into s (s.dev.onCmd fun c => { c with job := some { j with jend := some .release } }))) ∧
    (i.die ≠ 0 →
      exec (.jendDone i.die i.pc) s = .next (into s (s.dev.postIllegal (vecUnit i.die) i.iaddr)) ∧
      exec (.jendRelease i.die i.pc) s = .next (into s (s.dev.postIllegal (vecUnit i.die) i.iaddr))) ∧
    exec (.jstat i) s = .next (into s (s.dev.onDie i.die fun x => { x with jstat := s.dev.cmd.yieldSeen }))) ∧
  (∀ (d : Die) (c : Check) (rest : List Check) (v : Device) (a : Nat), (s.dev.die d).checks = c :: rest →
    v = (s.dev.onDie d fun x => { x with checks := rest }).count (R.VIS_CHECKS_COUNT.die d) 1 →
    a = v.watchRecord d c.step.toNat c.layer.toNat + 0x44 + 4 * (c.dkind.toNat - 1) → v.bad [(.near, a, 4)] = none →
    exec (.visorCheckComplete d) s = .next (into s ((c.cap.els.zip c.y).zipIdx.foldl (fun u x =>
      let r := Device.checkElem (v.fld (R.VIS_CTL_DRIFT_TOL.die d)) c x.1.1 x.1.2
      let u := match r.2 with
        | some e => u.worstExponent d c e
        | none => u
      match r.1 with
      | .fault => u.visorReport d c x.2 x.1.1 x.1.2 true
      | .drift => u.visorReport d c x.2 x.1.1 x.1.2 false
      | _ => u) (v.setNear a 4 (satCount 32 (v.near a 4 + 1)))))) ∧
  (∀ (tol : Nat) (c : Check) (w : Watch) (y : Slot), c.kind.isInt = true →
    (Device.checkElem tol c w y).2 = none ∧ (y.ovf = true → (Device.checkElem tol c w y).1 = .uncounted) ∧
    (∀ n : Int, w.zi = Val.ofInt n 0 → y.ovf = false → (Device.checkElem tol c w y).1 = if y.v = n then .agree else .fault))

/-! ## Fabric -/

/-- Ports (R265 to R268, R272, R273, R363): a port that trains, after a release once the images are verified, comes up and is announced; one that fails or falls silent goes down, its
messages go by other ports, its link is announced as down, and peers with no link left are LOST; a good flit in sequence is taken and
goes on; a replay counts, and its eighth in a row takes the port down; heartbeats go out on every port that is up, and one received
brings the sender's links, the delay of its link and the routes that follow. That the replay buffer of a port that goes down is dropped and
only what had not gone out takes another port is the model's choice (log entry 167), and so are a delay below 0 that counts as 0 (log entry
22) and bit p of a heartbeat's links that stands for port p (log entry 38). -/
def Obligations.PortCommandsComplete : Prop := ∀ (s : State) (p : Port), Live s →
  (∀ (lanes : BitVec 3) (peer : Peer) (o : Port) (v : Device), (s.dev.port p.val).up = false → s.dev.cmd.dstate ≠ .hold → s.dev.booting = false →
    lanes = 1 ∨ lanes = 2 ∨ lanes = 4 →
    v = s.dev.setPort p.val
      { up := true, width := lanes.toNat, partner := peer.val, partnerPort := o.val, inbuf := (s.dev.port p.val).inbuf } →
    exec (.portUp p lanes ⟨peer, o⟩) s = .next (into s ((v.mapLink (v.portLink p.val) true).send (.linkUp (v.portLink p.val))))) ∧
  (∀ (q : PortSt) (x : LinkEnds) (v w : Device) (ws : Waits), q = s.dev.port p.val → q.up = true → x = s.dev.portLink p.val →
    v = (s.dev.setPort p.val { partner := q.partner, partnerPort := q.partnerPort, inbuf := q.inbuf }).mapLink x false →
    w = (q.out.foldl Device.reroute v).pump.send (.linkDown x) →
    (w.portsUp ≠ [] → exec (.portLaneFail ⟨p, ws⟩) s = .next (into s (w.declareLost [x.partner.val] ws)) ∧
      exec (.linkSilent ⟨p, ws⟩) s = .next (into s (w.declareLost [x.partner.val] ws))) ∧
    (∀ u : Device, w.portsUp = [] → u = w.post 0x0405 2 fabUnit (BitVec.ofNat 64 p.val) →
      exec (.portLaneFail ⟨p, ws⟩) s = .next (into s (u.declareLost [x.partner.val] ws)) ∧
      exec (.linkSilent ⟨p, ws⟩) s = .next (into s (u.declareLost [x.partner.val] ws)))) ∧
  (∀ (x : Flit) (q : PortSt) (left : List TxFlit), q = s.dev.port p.val → q.up = true → x.crcGood = true → x.seq = q.rxSeq →
    (q.inbuf.filter fun f => f.vc == x.vc).length < 64 → left = (q.buf.filter fun f => (x.ack - f.seq).toNat ≥ 2 ^ 15) →
    exec (.flit p x) s = .next (into s ((s.dev.setPort p.val { q with
      buf := left, replayRun := if left.length < q.buf.length then 0 else q.replayRun, rxSeq := q.rxSeq + 1, inbuf := q.inbuf ++ [x],
      credits := q.credits.set x.creditVc.val (min 64 (q.credits.getD x.creditVc.val 0 + 4 * x.credits.toNat)) }).pump))) ∧
  (∀ (q : PortSt) (v : Device) (ws : Waits), q = s.dev.port p.val → q.up = true → q.buf ≠ [] →
    v = (s.dev.eventCount (R.FAB_PORT_STAT_REPLAYS.nth p.val)).setPort p.val { q with replayRun := q.replayRun + 1 } →
    (q.replayRun < 7 → exec (.flitReplay ⟨p, ws⟩) s = .next (into s v)) ∧
    (7 ≤ q.replayRun → exec (.flitReplay ⟨p, ws⟩) s = .next (into s (v.portDown' p.val ws)))) ∧
  exec .heartbeatSend s = .next (into s (s.dev.portsUp.foldl (fun v p => v.send (v.heartbeatOf p)) s.dev)) ∧
  (∀ (x : Beat) (v w : Device), (s.dev.port p.val).up = true → s.dev.peerDead x.peer.val = false →
    v = ((s.dev.setPeer x.peer.val 0x10 8 s.dev.frm.count.toNat).setPeer x.peer.val 0x1C 2 x.links.toNat).onFab (fun f =>
      { f with links := f.links.filter fun l => !((l.from_.val == x.peer.val && !x.links.getLsbD l.port.val) ||
        (l.partner.val == x.peer.val && !x.links.getLsbD l.partnerPort.val)) }) →
    w = (if (v.port p.val).partner = x.peer.val then
      v.setPort p.val { v.port p.val with delay := Device.linkDelay x, lastTx := x.t3, lastRx := x.t4 } else v) →
    exec (.heartbeat p x) s = .next (into s w.setRoutes))

/-- Peers (R271, R273, R274, R295): a link down or up is noted at both its ends; a member that departs or is lost takes that state; a
device that is named LOST itself reports it; a spare takes the index of a lost device over, by message or at the end of the spare frames; a message that finds
Band down waits for it (R380, R384). -/
def Obligations.PeerCommandsComplete : Prop := ∀ (s : State) (peer : Peer), Live s →
  (∀ (x : LinkEnds) (ws : Waits),
    exec (.linkDown x ws) s =
      .next (into s (((s.dev.heard x.from_.val).mapLink x false).declareLost [x.from_.val, x.partner.val] ws)) ∧
    (s.dev.peerDead x.from_.val = false → s.dev.peerDead x.partner.val = false →
      exec (.linkUp ⟨x.from_, x.port⟩ ⟨x.partner, x.partnerPort⟩) s = .next (into s ((s.dev.mapLink x true).heard x.from_.val)))) ∧
  (∀ ws : Waits, s.dev.peerDead peer.val = false → s.dev.peerState peer.val ≠ 0 →
    (∃ t, exec (.departed ⟨peer, ws⟩) s = .next t ∧ t.dev.peerState peer.val = 3) ∧
    (peer.val ≠ s.dev.selfIdx → ∃ t, exec (.lost ⟨peer, ws⟩) s = .next t ∧ t.dev.peerState peer.val = 2)) ∧
  (∀ ws : Waits, peer.val = s.dev.selfIdx →
    exec (.lost ⟨peer, ws⟩) s = .next (into s (s.dev.post 0x0404 2 fabUnit (BitVec.ofNat 64 peer.val)))) ∧
  (∀ sp : Peer, s.dev.bandUp = false →
    exec (.takeover peer sp) s = .next (into s (s.dev.onFab fun f => { f with bandHeld := f.bandHeld ++ [.takeover peer.val sp.val] }))) ∧
  (∀ sp : Peer, s.dev.bandUp = true → s.dev.peerDead peer.val = true → s.dev.peerState sp.val = 4 →
    ∃ t, exec (.takeover peer sp) s = .next t ∧
    t.dev.fab.takeover = some (peer.val, sp.val) ∧ t.dev.peerState sp.val = 0 ∧
    t.dev.fab.peers.readLE (32 * peer.val) 8 = s.dev.fab.peers.readLE (32 * sp.val) 8 ∧
    (s.dev.selfIdx = sp.val → t.dev.fab.restoring = true)) ∧
  (∀ sp : Nat, s.dev.fld R.FAB_CTL_SPARE_FRAMES ≠ 0 → s.dev.master = some s.dev.selfIdx → s.dev.peerMember peer.val = true →
    s.dev.peerDead peer.val = true → s.dev.fab.takeover = none → s.dev.bandUp = true →
    s.dev.fld R.FAB_CTL_SPARE_FRAMES ≤ Sparse.get 0 peer.val s.dev.fab.lostTicks → s.dev.firstSpare = some sp → s.dev.sinks ≠ [] →
    exec (.spareFramesExpiry peer) s = .next (into s ((s.dev.takeOver peer.val sp).send (.takeover peer.val sp))))

/-- Shards, contributions and micro-batches (R279 to R285, R287, R288, R290, R291): a convert of a peer's weight that is not here fetches
and pins the version before the step's (that the vector engine asks is the model's choice, log entry 171); of an owner that is gone
a contributor that holds the version serves itself; a notice of another owner is entered and its owner heard, with which late sums for it
go out; a fetch of a version here is answered, one of a version to come waits, and one under another epoch is told so; what a fetch brings
is written where its digest is the published one, a version that is gone abandons its micro-batch, or is asked of the next contributor where
one stood in for its owner, and after an epoch change the fetch
goes out again; a pin is released; an abandoned micro-batch is noted and passed on to the peers that wait for it; of a migrated shard, what
peers held and what moves within this device is put in place; a copy run of a job that runs
copies the newest bank; the cutoff skips what is unresolved once in a step; a skipped sum is kept for its late key, and goes out
where it is due; an acknowledgement of a staged directory is noted. The model's choices among these: a contributor that holds no replica
answers that the version is gone (log entry 165), a late key is due on the publish notice of the sum's step (log entry 202), what moves
within this device moves at its SHARD_MIGRATION, behind the folds (log entry 186), and a notice marks its owner as heard (log entry 125). -/
def Obligations.ShardCommandsComplete : Prop := ∀ (s : State) (e : Nat), Live s →
  (∀ (d : Die) (x : Vec), Free s d x.engine → x.src.shard = some e → s.dev.entryOwner e ≠ s.dev.selfIdx →
    s.dev.replicaAt e x.src.addr = false → (e, s.dev.frm.step - 1) ∉ s.dev.fab.asked →
    (s.dev.ownStandIn e = none → exec (.vcvt d x) s =
      .next (into s ((s.dev.onFab fun f => { f with asked := f.asked ++ [(e, s.dev.frm.step - 1)] }).send
        (.fetch (s.dev.fetchFrom e) e (s.dev.frm.step - 1) s.dev.fab.epoch true)))) ∧
    (∀ (r : Replica) (w : List Byte), s.dev.ownStandIn e = some r → w = s.dev.shardAt e r.addr →
      s.dev.bad [(.near, x.src.addr, w.length)] = none →
      exec (.vcvt d x) s = .next (into s ((s.dev.keepReplica e (s.dev.frm.step - 1) x.src.addr w).vcvt d x)))) ∧
  (∀ (v : W32) (g : W64), s.dev.bandUp = true → s.dev.entryOwner e ≠ s.dev.selfIdx → s.dev.fab.takeover = none →
    exec (.publishNotice e v g) s = .next (into s ((s.dev.setVersion e v g).heard (s.dev.entryOwner e)).sendLateSums)) ∧
  (∀ (peer : Peer) (v : W32) (ep : Byte) (pin : Bool) (x : Fetch) (n : Nat),
    x = { peer := peer.val, entry := e, version := v, pin } → n = (v - s.dev.entryVersion e).toNat →
    (ep ≠ s.dev.fab.epoch → exec (.shardFetch peer e v ep pin) s = .next (into s (s.dev.send (.wrongEpoch peer.val e)))) ∧
    (ep = s.dev.fab.epoch → s.dev.entryOwner e = s.dev.selfIdx →
      (0 < n ∧ n < 2 ^ 31 ∨ e ∈ s.dev.fab.migrating → exec (.shardFetch peer e v ep pin) s =
        .next (into s (s.dev.onFab fun f => { f with fetchHeld := f.fetchHeld ++ [x] }))) ∧
      (n = 0 ∨ 2 ^ 31 ≤ n → e ∉ s.dev.fab.migrating →
        (s.dev.goneVersion e v = false → exec (.shardFetch peer e v ep pin) s = .next (into s (s.dev.answer x))) ∧
        (s.dev.goneVersion e v = true →
          exec (.shardFetch peer e v ep pin) s = .next (into s (s.dev.send (.versionGone peer.val e v))))))) ∧
  (∀ (v : W32) (mb : Stuck) (a : Nat) (data : List Byte),
    let answered : List (Nat × W32) := s.dev.fab.asked.filter (· != (e, v))
    let passed : List (Nat × Nat) := s.dev.fab.passed.filter fun x => x.1 != e
    (s.dev.peerDead (s.dev.entryOwner e) = false → exec (.fetchResponse e v mb a data .gone) s = .next (into s
      ((((s.dev.onFab fun f => { f with asked := answered, passed := passed }).event R.FAB_STAT_GONE).count R.FAB_GONE_CNT_COUNT
        1).abandonMb mb))) ∧
    (∀ (t : Device) (p : Nat), t = s.dev.onFab (fun f => { f with passed := f.passed ++ [(e, s.dev.fetchFrom e)] }) →
      s.dev.peerDead (s.dev.entryOwner e) = true → t.ownStandIn e = none → t.standIn e = some p →
      exec (.fetchResponse e v mb a data .gone) s = .next (into s (t.send (.fetch p e v s.dev.fab.epoch (v == s.dev.frm.step - 1))))) ∧
    exec (.fetchResponse e v mb a data .wrongEpoch) s =
      .next (into s (s.dev.send (.fetch (s.dev.fetchFrom e) e v s.dev.fab.epoch (v == s.dev.frm.step - 1)))) ∧
    (s.dev.publishedDigest e v = some (s.dev.shardDigest e data) → s.dev.bad [(.near, a, data.length)] = none →
      exec (.fetchResponse e v mb a data .data) s = .next (into s ((s.dev.writeBytes .near a data).onFab fun f =>
        { f with asked := answered, passed := passed, tries := Sparse.put 0 e 0 f.tries, divergent := f.divergent.filter (· != e),
                 replicas := { entry := e, version := v, addr := a, pinned := v == s.dev.frm.step - 1 } ::
                   f.replicas.filter fun r => r.entry != e || r.addr != a })))) ∧
  (∀ (peer : Peer) (v : W32), exec (.pinRelease peer e v) s = .next (into s (s.dev.onFab fun f =>
    { f with pins := f.pins.filter fun p => !(p.peer == peer.val && p.entry == e && p.version == v) }))) ∧
  (∀ (peer : Peer) (x : Stuck), x.mb ∉ s.dev.fab.abandoned → exec (.abandon peer x) s =
    .next (into s (x.peers.foldl (fun v p => v.send (.abandon p.val x.mb))
      ((s.dev.onFab fun f => { f with abandoned := f.abandoned ++ [x.mb] }).count R.FAB_ABANDON_CNT_COUNT 1)))) ∧
  (∀ (x : Migrated) (here : List Leaving) (v : Device) (g : W64), x.entry = e → e ∈ s.dev.fab.migrating →
    here = (s.dev.fab.leaving.filter fun l => l.peer == s.dev.selfIdx && l.entry == e) → (∀ l ∈ here, l.folded = true) →
    (x.parts = [] ∨ ∀ z ∈ s.dev.layerSides (s.dev.entryLayer e), s.dev.foldDone z.1 z.2 = true) →
    v = (here.map Leaving.part ++ x.parts).foldl (Device.putPart e)
      (s.dev.onFab fun f => { f with leaving := f.leaving.filter fun l => !here.contains l }) →
    g = v.shardDigest e (v.versionData e (v.entryVersion e).toNat) →
    exec (.shardMigration x) s = .next (into s (((v.setNear (v.entryAddr e + 0x28) 8 g.toNat).onFab fun f =>
      { f with migrating := f.migrating.filter (· != e), digests := Sparse.put 0 e g f.digests }).retryFetches))) ∧
  (e ∈ s.dev.fab.copyDue → e ∉ s.dev.fab.exportDue → s.dev.cmd.dstate = .running → ∃ t, exec (.copyRun e) s = .next t ∧
    t.dev.fab.copyDue = s.dev.fab.copyDue.filter (· != e) ∧ t.dev.fab.copied = s.dev.fab.copied ++ [e] ∧
    t.dev.fab.ran = s.dev.fab.ran ++ [{ entry := e, step := s.dev.frm.step, digest := t.dev.entryDigest e }] ∧
    ∀ n, n = s.dev.bankBytes (s.dev.entryDie e) (s.dev.entryLayer e) (s.dev.entryRows e) (s.dev.entryCols e) →
      s.dev.bankAddr e s.dev.frm.step.toNat + n ≤ 2 ^ 40 →
      t.dev.readBytes .near (s.dev.bankAddr e s.dev.frm.step.toNat) n =
        s.dev.readBytes .near (s.dev.bankAddr e (s.dev.frm.step.toNat + 2)) n) ∧
  (s.dev.cutoffTime = true → exec .cutoff s =
    .next (into s (s.dev.shardGroups.foldl Device.cutoffSkip (s.dev.onFab fun f => { f with cutoffDone := true })))) ∧
  (∀ (owner : Peer) (k n : W16) (step : W32) (ep : Byte) (x : Sum), s.dev.peerDead owner.val = false → s.dev.entryOwner e = owner.val →
    exec (.skipNotice owner e k n true step ep) s = .next (into s (s.dev.onFab fun f =>
      { f with sums := f.sums.filter fun y =>
        !(y.entry == e && (y.key == n.toNat + k.toNat || (y.key == k.toNat && y.skipped && y.step + 1 == step))) })) ∧
    ((s.dev.fab.sums.find? fun y => y.entry == e && y.key == k.toNat && y.step == step) = some x →
      ∀ (others : List Sum), others = (s.dev.fab.sums.filter fun y => !(y.entry == e && y.key == k.toNat && y.step == step)) →
      (ep ≠ s.dev.fab.epoch → exec (.skipNotice owner e k n false step ep) s =
        .next (into s ((s.dev.onFab fun f => { f with sums := others }).count R.FAB_OLD_EPOCH_CNT_COUNT 1))) ∧
      (ep = s.dev.fab.epoch → ∀ v, v = s.dev.onFab (fun f => { f with sums := others ++ [{ x with skipped := true }] }) →
        (∀ y ∈ others, s.dev.lateDue y = false) →
        (x.ended = true → s.dev.entryVersion e = step →
          exec (.skipNotice owner e k n false step ep) s = .next (into s (v.sendLate { x with skipped := true }))) ∧
        (x.ended = false ∨ s.dev.entryVersion e ≠ step → exec (.skipNotice owner e k n false step ep) s = .next (into s v))))) ∧
  (∀ (peer : Peer) (ep : Byte), exec (.reshardAck peer ep) s = .next (into s (s.dev.onFab fun f =>
    { f with acks := f.acks.filter (· != (peer.val, ep)) ++ [(peer.val, ep)] })))

/-- Records (R292, R294 to R296): an export that is due of a shard, named by its layer and number, makes one record due at every sink; an acknowledgement counts for the oldest record of its
version that the sink has not acknowledged, and a record acknowledged by all its sinks is done; at a restoring device a restore puts
its shards in place one after the other, as far as one fails, and a failure is posted by the tick master. That an acknowledgement counts
for the oldest record is read from the rule (log entry 95); that a spare which is not the master tells the master, by a message, is the
model's choice (log entry 154). -/
def Obligations.StreamCommandsComplete : Prop := ∀ s : State, Live s →
  (∀ e l n : Nat, (s.dev.fab.exportDue.find? fun z => s.dev.entryLayer z == l && s.dev.entryShard z == n) = some e →
    ∃ t, exec (.dsExport l n) s = .next t ∧
    t.dev.fab.exportDue = s.dev.fab.exportDue.filter (· != e) ∧ t.dev.fab.baseDue = s.dev.fab.baseDue.filter (· != e) ∧
    t.dev.fab.records = s.dev.fab.records ++ [{
      entry := e, version := ((s.dev.fab.ran.find? fun r => r.entry == e).map ShardRun.step).getD (s.dev.entryVersion e),
      sinks := s.dev.sinks }]) ∧
  (∀ (peer : Peer) (host : Bool) (v : W32) (k : Nat), k = (if host then Device.hostSink else peer.val) →
    (∀ r : RecordOut,
      (s.dev.fab.records.find? fun r => r.version == v && r.sinks.any (· == k) && !r.acks.any (· == k)) = some r →
      exec (.recordAck peer host v) s = .next (into s (s.dev.onFab fun f =>
        { f with records := (f.records.map fun x => if x = r then { x with acks := x.acks ++ [k] } else x).filter fun x =>
          !(x.sinks.all fun q => x.acks.any (· == q)) }))) ∧
    ((s.dev.fab.records.find? fun r => r.version == v && r.sinks.any (· == k) && !r.acks.any (· == k)) = none →
      exec (.recordAck peer host v) s = .next s)) ∧
  (s.dev.fab.restoring = true → s.dev.bandUp = true →
    (∀ (rs : List Restored) (z : Except W16 Device), z = rs.foldl (fun (z : Except W16 Device) r => match z with
        | .ok v => v.restoreShard r
        | .error c => .error c) (.ok s.dev) →
      exec (.restoreComplete (.restored rs)) s = .next (into s (match z with
        | .ok v => v
        | .error c => s.dev.takeoverFailed c))) ∧
    (s.dev.master = some s.dev.selfIdx →
      exec (.restoreComplete .behind) s = .next (into s (s.dev.post 0x0407 2 fabUnit (BitVec.ofNat 64 s.dev.selfIdx))) ∧
      exec (.restoreComplete .digestFailed) s = .next (into s (s.dev.post 0x0409 2 fabUnit (BitVec.ofNat 64 s.dev.selfIdx))) ∧
      exec (.restoreComplete .unreachable) s = .next (into s (s.dev.post 0x0409 2 fabUnit (BitVec.ofNat 64 s.dev.selfIdx)))) ∧
    (∀ m : Nat, s.dev.master = some m → m ≠ s.dev.selfIdx →
      exec (.restoreComplete .behind) s = .next (into s (s.dev.send (.restoreFailed m 0x0407))) ∧
      exec (.restoreComplete .digestFailed) s = .next (into s (s.dev.send (.restoreFailed m 0x0409))) ∧
      exec (.restoreComplete .unreachable) s = .next (into s (s.dev.send (.restoreFailed m 0x0409)))))

/-! ## Rings and packets -/

/-- Ring registers (R303 to R305): changed reserved bits of a write are recorded first (R352); a doorbell on an enabled ring at a legal place moves the tail, one on a disabled ring is refused; a
stopped ring that is enabled starts afresh, an enabled one that is disabled fetches no more; a write of CMD_SHEADr lets waiting replies
out, and one that leaves no entry free sets CMD_RSTATr.SFULL (R304); a NOP is passed and posts no reply (R313), and a
packet with an opcode that is none of the table's is turned away with BAD_OPCODE (R312). -/
def Obligations.RingCommandsComplete : Prop := ∀ (s : State) (r : Fin 4) (w : W32), Live s →
  let told : Device := s.dev.writeReserved s.svc (R.CMD_DB + 0x1000 * r.val) w
  (∀ tail : Nat, tail = w.toNat % 2 ^ 24 → s.dev.ringEn r = true → tail % 32 = 0 → tail < s.dev.ringSize r →
    ((s.dev.ring r).tail + s.dev.ringSize r - (s.dev.ring r).head) % s.dev.ringSize r ≤
      (tail + s.dev.ringSize r - (s.dev.ring r).head) % s.dev.ringSize r →
    exec (.doorbell r w) s = .next (into s (told.onRing r fun q => { q with tail }))) ∧
  (s.dev.ringEn r = false → exec (.doorbell r w) s = .next (into s (told.event (R.CMD_RSTAT_DB_ERR.nth r.val)))) ∧
  (∀ v : Device, v = (fieldsAt (R.CMD_RCTL + 0x40 * r.val)).foldl (fun v f => if f.acc = .rwi ∧ f.lo ≠ 0 then
      v.takeField (R.CMD_RCTL + 0x40 * r.val) f (bitsOf w.toNat f.hi f.lo) 2 else v)
      (s.dev.writeReserved s.svc (R.CMD_RCTL + 0x40 * r.val) w) →
    (s.dev.ringEn r = false → s.dev.ringStopped r = true → w.getLsbD 0 = true →
      exec (.ringEnable r w) s = .next (into s (((v.setFld (R.CMD_RCTL_EN.nth r.val) 1).onRing r fun q => { replies := q.replies }).noteFull r))) ∧
    (s.dev.ringEn r = true → w.getLsbD 0 = false →
      exec (.ringDisable r w) s = .next (into s ((v.setFld (R.CMD_RCTL_EN.nth r.val) 0).onRing r fun q => { q with fetching := false })))) ∧
  (∀ v : Device, v = s.dev.writeFields s.svc (R.CMD_SHEAD + 0x40 * r.val) w →
    (v.statusFull r = true → s.dev.statusFull r = false →
      exec (.statusRingHead r w) s = .next (into s (v.event (R.CMD_RSTAT_SFULL.nth r.val)))) ∧
    ((v.statusFull r = false ∨ s.dev.statusFull r = true) → exec (.statusRingHead r w) s = .next (into s (v.flush r)))) ∧
  (∀ p : Pkt, s.dev.packetDue p = true → p.readOk = true → s.dev.badPacket p = false → p.seq = (s.dev.ring p.ring).expect →
    (p.strange = none → exec (.nop p) s = .next (into s (passed s p))) ∧
    (∀ op : W16, p.strange = some op → 3 < op.toNat → s.dev.cmd.dstate ≠ .hold → s.nv.lifecycle ≠ .end_ → s.dev.cmd.handshake = true →
      exec (.nop p) s = .next (into s ((passed s p).turnAway (Device.refOf p op.toNat) BAD_OPCODE))))

/-- Commands that ask (R313, R315): a well-formed VERSION completes the handshake and keeps whether the pair matches; STATUS, JOB_QUERY
of a known job and ACCT_READ are answered, the last two after their record is in the host's memory. The job commands (R313, R320, R323, R327, R328, R331): a submission joins the queue; a withdrawn job leaves it; of the running job,
a yield waits for its tick, a cancelled one is answered (with OK: read from R331, log entry 47), an abort ends it, a join and a leave wait for order 6. -/
def Obligations.QueryAndJobPacketsComplete : Prop := ∀ (s : State) (p : Pkt) (v : Device) (pl : List Byte), pl = Device.payloadOf p →
  (Accepts s p 0x01 → v = taken s p 0x01 → zeros pl 0x10 16 = true → field pl 8 8 % 64 = 0 →
    ∃ t, exec (.version p) s = .next t ∧ t.dev.cmd.handshake = true ∧ t.dev.cmd.shook = true ∧
      t.dev.cmd.mismatch = !Device.versionsMatch v.manifest pl) ∧
  (Accepts s p 0x02 → v = taken s p 0x02 →
    exec (.status p) s = .next (into s (v.reply (Device.refOf p 0x02) OK v.statusResult))) ∧
  (∀ j : Job, Accepts s p 0x14 → v = taken s p 0x14 → v.findJob p.job = some j → exec (.jobQuery p) s =
    .next (into s ((v.setHost (field pl 0 8) (v.endRecord j (v.owned_us j) (j.desc.keep && j.desc.rsid != 0))).freeWord.2.replyFree
      (Device.refOf p 0x14) OK))) ∧
  (Accepts s p 0x15 → v = taken s p 0x15 → exec (.acctRead p) s = .next (into s ((v.setHost (field pl 0 8)
    ((List.range 64).flatMap fun a => leBytes 8 (v.usageNow a) ++ leBytes 4 (satCount 32 (Sparse.get 0 a v.cmd.jobsRun)) ++ leBytes 4 0)).replyFree
      (Device.refOf p 0x15) OK))) ∧
  (∀ ref, ref = Device.refOf p 0x10 → Accepts s p 0x10 → v = taken s p 0x10 → p.job ≠ 0 → v.findJob p.job = none →
    Device.badJob pl (Device.jobOf ref pl) = false → v.cmd.queue.length < 16 →
    exec (.jobSubmit p) s = .next (into s (v.onCmd fun c => { c with queue := c.queue ++ [Device.jobOf ref pl] }))) ∧
  (∀ j : JobDesc, Accepts s p 0x11 → v = taken s p 0x11 → (v.cmd.queue.find? fun j => j.id == p.job) = some j →
    exec (.jobWithdraw p) s = .next (into s (((v.onCmd fun c => { c with queue := c.queue.erase j }).reply j.ref JOB_WITHDRAWN 0).replyFree
      (Device.refOf p 0x11) OK))) ∧
  (∀ ref, ref = Device.refOf p 0x12 → Accepts s p 0x12 → v = taken s p 0x12 → v.named ref = true → v.jobEnding = false →
    (field pl 0 8 = 0 → v.cmd.yieldSeen = false →
      exec (.jobYield p) s = .next (into s (v.onCmd fun c => { c with yieldPend := c.yieldPend ++ [ref] }))) ∧
    (field pl 0 8 = 1 → exec (.yieldCancel p) s = .next (into s ((v.cmd.yieldPend.foldl (fun v r => v.replyFree r OK)
      (v.onCmd fun c => { c with yieldPend := [], yieldSeen := false })).replyFree ref OK)))) ∧
  (Accepts s p 0x13 → v = taken s p 0x13 → v.named (Device.refOf p 0x13) = true →
    exec (.jobAbort p) s = .next (into s ((v.endJob JOB_ABORTED 0).replyFree (Device.refOf p 0x13) OK))) ∧
  (∀ ref, ref = Device.refOf p 0x20 → Accepts s p 0x20 → v = taken s p 0x20 → v.named ref = true → Device.badJoin pl = false →
    v.jobEnding = false → v.isPending (Device.joinOf ref pl).sid = false →
    v.cmd.joins.length < 256 →
    exec (.seqJoin p) s = .next (into s (v.onCmd fun c => { c with joins := c.joins ++ [Device.joinOf ref pl] }))) ∧
  (∀ ref sid, ref = Device.refOf p 0x21 → sid = BitVec.ofNat 64 (field pl 0 8) → Accepts s p 0x21 → v = taken s p 0x21 →
    v.named ref = true → v.jobEnding = false → v.isAdmitted sid = true → v.isLeaving sid = false →
    exec (.seqLeave p) s = .next (into s (v.onCmd fun c => { c with leaves := c.leaves ++ [{ sid, ref }] })))

/-- The commands that bring or take data (R290, R294, R313, R329, R330, R396, R397, R399, R400, R412): each has its effect on the rings
of records, the directory, memory, the bundle slots and the calibration set, and is answered, or waits, as its rule says; a directory that
finds Band down waits for it (R384). The places in a
set's header are the model's choice (log entry 36). -/
def Obligations.DataPacketsComplete : Prop := ∀ (s : State) (p : Pkt) (v : Device) (pl : List Byte), pl = Device.payloadOf p →
  (∀ (image : List Byte) (r : Reshard) (u : Device), Accepts s p 0x30 → v = taken s p 0x30 → zeros pl 0x11 3 = true →
    v.jobEnding = false → v.fab.reshard = none → BitVec.ofNat 8 (field pl 0x10 1) = v.fab.epoch + 1 →
    r = { image := (image ++ List.replicate (field pl 8 8) 0).take (field pl 8 8), epoch := v.fab.epoch + 1,
          effStep := BitVec.ofNat 32 (field pl 0x14 4), ref := Device.refOf p 0x30 } →
    u = v.onFab (fun f => { f with reshard := some r }) →
    (v.bandUp = true → ∀ w, w = u.reshardAcked v.selfIdx (v.fab.epoch + 1) → exec (.reshard p image) s =
      .next (into s (match w.master with | some m => w.send (.reshardAck m (v.fab.epoch + 1)) | none => w))) ∧
    (v.bandUp = false → exec (.reshard p image) s =
      .next (into s (u.onFab fun f => { f with bandHeld := f.bandHeld ++ [.directory (v.fab.epoch + 1)] })))) ∧
  (Accepts s p 0x31 → v = taken s p 0x31 → v.jobEnding = false → exec (.baseExport p) s = .next (into s ((v.onFab fun f =>
    { f with baseDue := v.owned.filter fun e => !v.entryFrozen e }).reply (Device.refOf p 0x31) OK v.firstBase.toNat))) ∧
  (∀ k : Nat, Accepts s p 0x32 → v = taken s p 0x32 → field pl 8 8 = 2 ^ k → 24 ≤ k → k ≤ 40 →
    exec (.dsHostRing p) s = .next (into s ((v.onCmd fun c => { c with hostRing := some { base := field pl 0 8, size := 2 ^ k } }).replyFree
      (Device.refOf p 0x32) OK))) ∧
  (Accepts s p 0x33 → v = taken s p 0x33 → Device.hostSink ∈ v.sinks →
    (v.cmd.hostRing = none → exec (.dsAck p) s = .next (into s (v.reply (Device.refOf p 0x33) OK 0))) ∧
    (∀ (h : HostRing) (done : List (Nat × Nat × RecordOut)), v.cmd.hostRing = some h → field pl 0 8 ≤ h.size →
      done = h.recs.takeWhile (Device.recordBefore h (field pl 0 8)) →
      exec (.dsAck p) s = .next (into s ((h.waiting.foldl (fun u w => u.hostRecord w.1 w.2)
        ((done.foldl (fun u x => u.hostAck x.2.2) v).onCmd fun c =>
          { c with hostRing := some { h with recs := h.recs.drop done.length, waiting := [] } })).reply
            (Device.refOf p 0x33) OK done.length)))) ∧
  (∀ (t : Transfer) (data : List Byte), Accepts s p 0x40 → v = taken s p 0x40 → Device.transferOf (Device.refOf p 0x40) pl true = some t →
    exec (.memWrite p data) s = .next (into s (v.startTransfer { t with data := (data ++ List.replicate t.len 0).take t.len }))) ∧
  (∀ (t : Transfer) (o : ReadOutcome) (n : Nat), Accepts s p 0x41 → v = taken s p 0x41 →
    Device.transferOf (Device.refOf p 0x41) pl false = some t →
    exec (.memRead p o n) s = .next (into s (v.startTransfer { t with outcome := o, good := n }))) ∧
  (∀ (bundle b : List Byte) (k : Nat), Accepts s p 0x50 → v = taken s p 0x50 → k = field pl 0x10 1 → k ≤ 1 → k ≠ s.nv.boot →
    field pl 8 8 ≤ 2 ^ 23 → zeros pl 0x11 7 = true → b = part bundle 0 (field pl 8 8) → s.nv.bundleFault b = none →
    exec (.fwStage p bundle) s =
      .next { s with nv := s.nv.setSlot k b true, dev := v.replyFree (Device.refOf p 0x50) OK }) ∧
  (∀ (k : Nat) (u : State), Accepts s p 0x51 → v = taken s p 0x51 → k = field pl 0 1 → k ≤ 1 → zeros pl 1 7 = true → k ≠ s.nv.boot →
    s.nv.good k = true → v.cmd.activation = none → v.pwr.emergency = false →
    u = into s (v.onCmd fun c => { c with activation := some { slot := k, ref := Device.refOf p 0x51 } }) →
    exec (.fwActivate p) s = .next u.advanceActivation) ∧
  (Accepts s p 0x60 → v = taken s p 0x60 →
    exec (.calRead p) s = .next (into s ((v.setHost (field pl 0 8) s.nv.cal.bytes).replyFree (Device.refOf p 0x60) OK))) ∧
  (∀ (set_ : List Byte) (c : CalSet), Accepts s p 0x61 → v = taken s p 0x61 →
    c = { revision := BitVec.ofNat 16 (field set_ 0 2), flags := (BitVec.ofNat 16 (field set_ 2 2) &&& ~~~ 1) ||| 4,
          len := BitVec.ofNat 32 (field set_ 4 4), digest := digestAt set_ 8, spare := part set_ 40 24,
          body := part set_ 64 (calBytes - 64) } → c.intact = true → c.inRange = true →
    exec (.calWrite p set_) s = .next { s with nv := { s.nv with cal := c }, dev := v.replyFree (Device.refOf p 0x61) OK }) ∧
  (Accepts s p 0x62 → v = taken s p 0x62 → v.cmd.dstate = .ready → v.cmd.queue = [] → v.cmd.calRestore = none →
    exec (.calRestore p) s = .next (into s (v.onCmd fun c => { c with calRestore := some (Device.refOf p 0x62) }))) ∧
  (Accepts s p 0x70 → v = taken s p 0x70 → s.nv.lifecycle ≠ .test → s.nv.lifecycle ≠ .end_ → field pl 32 8 % 64 = 0 →
    exec (.attest p) s = .next (into s ((v.setHost (field pl 32 8) (report (into s v) (pl.take 32))).reply
      (Device.refOf p 0x70) OK reportLength)))

/-- A lifecycle request that is signed, allowed and well formed programs what it asks for, and the nonce is renewed after it (R415 to
R417); a RESET command begins the reset it names, while REFCLK_SYS runs (R314, R360, R361). -/
def Obligations.LifecyclePacketsComplete : Prop := ∀ (s u : State) (p : Pkt) (pl : List Byte), pl = Device.payloadOf p →
  (∀ (r : Request) (ref : PktRef), ref = Device.refOf p 0x71 → Accepts s p 0x71 → u = into s (taken s p 0x71) → r = requestOf pl →
    u.dev.cmd.dstate = .ready → u.dev.cmd.queue = [] → u.dev.cmd.activation = none → u.dev.cmd.calRestore = none →
    u.requestSigned pl = true → u.requestAllowed r = true → State.requestShaped r pl = true →
    let answered (n : Nv) : State := { u with nv := n, dev := u.dev.reply ref OK n.lifecycle.code }
    (r.op = some .advance → exec (.advance p) s = .next (u.accept ref r).renewNonce) ∧
    (r.op = some .installIdCert → exec (.installIdCert p) s = .next (answered { s.nv with idCert := r.data }).renewNonce) ∧
    (r.op = some .revokeRoot0 → exec (.revokeRoot0 p) s = .next (answered { s.nv with root0Revoked := true }).renewNonce) ∧
    (r.op = some .raiseMinSv → exec (.raiseMinSv p) s = .next (answered { s.nv with minSv := r.arg }).renewNonce)) ∧
  (Accepts s p 0x03 → s.refclk = true → u = into s (taken s p 0x03) →
    (leVal pl = 1 → exec (.hostColdReset p) s = .next (u.beginReset 2)) ∧
    (leVal pl = 0 → exec (.hostWarmReset p) s = .next (u.beginReset 3)))

/-! ## Jobs, firmware and the host link -/

/-- A chosen job enters STARTING (R326); JOB_START of a matched pair ends the job where memory is degraded, an error is latched or its
image cannot be loaded, and else takes it to RUNNING (R322); on a mismatched pair, whose behaviour R316 calls undefined, the model stops with
a fault, its own choice (log entry 21). A job whose units have come to rest is closed (R324), and a wipe that ends, once memory is trained
(log entry 82), lets what waited go on (R263), where Peak runs (R380). -/
def Obligations.JobEventsComplete : Prop := ∀ s : State, Live s →
  (∀ (d : JobDesc) (v : Device) (u : Nat → Device), s.dev.mayChoose = true → v = s.dev.decayAll → v.choose = some d →
    (∀ n, u n = (v.onCmd fun c =>
      { c with queue := c.queue.erase d, job := some { desc := d, startFrm := v.frm.count, startUs := v.clockUs, wipes := n } }).setDState
        .starting) →
    (d.rsid ≠ 0 → d.rsid = s.dev.cmd.retained → exec .jobChoose s = .next (into s (u 0))) ∧
    (d.rsid = 0 ∨ d.rsid ≠ s.dev.cmd.retained →
      (s.dev.wiping = true → exec .jobChoose s = .next (into s (u 2))) ∧
      (s.dev.wiping = false → exec .jobChoose s = .next (into s (u 1).wipeSet)))) ∧
  (∀ segs : List SegData, s.dev.mayLoad = true → s.dev.cmd.mismatch = true → exec (.jobStart segs) s = .fault .mismatchedPair) ∧
  (∀ (segs : List SegData) (j : Job) (v : Device × Bool), s.dev.mayLoad = true → s.dev.cmd.mismatch = false → s.dev.cmd.job = some j →
    v = s.dev.loadAll s.svc (j.desc.segs.zip (segs ++ List.replicate j.desc.segs.length none)) →
    ((∃ k, k < 8 ∧ s.dev.stackState k = 2) → exec (.jobStart segs) s = .next (into s (s.dev.endJob MEM_DEGRADED 0))) ∧
    ((∀ k, k < 8 → s.dev.stackState k ≠ 2) →
      (s.dev.flag R.GLB_ERR_STAT_LATCHED = true →
        exec (.jobStart segs) s = .next (into s (s.dev.endJob JOB_FATAL s.dev.err.latchCode))) ∧
      (s.dev.flag R.GLB_ERR_STAT_LATCHED = false →
        (v.1.jobEnding = true → exec (.jobStart segs) s = .next (into s v.1)) ∧
        (v.1.jobEnding = false →
          (v.2 = false → exec (.jobStart segs) s = .next (into s (v.1.endJob LOAD_ERROR 0))) ∧
          (v.2 = true → exec (.jobStart segs) s = .next (into s
            ((if j.desc.self = 0xFFFF then v.1 else v.1.setFld R.FAB_SELF_INDEX j.desc.self.toNat).latchModes.enterRunning j.desc))))))) ∧
  (∀ (j : Job) (kept : Bool) (v w : Device), s.dev.cmd.job = some j → j.phase = .ending false → s.dev.mayClose = true →
    kept = (j.desc.keep && j.desc.rsid != 0) →
    v = (if j.desc.self = 0xFFFF then s.dev.returnJoins else s.dev.returnJoins.departAll) →
    w = ((v.answerJob kept).refuseRest).wipeBetween →
    exec .endingExportDone s = .next (into s
      (((if kept then w else w.wipeSet).onJob fun j => { j with phase := .ending true }).clearJob).settle)) ∧
  (s.dev.wiping = true → s.dev.cmd.dstate ≠ .notReady → ∀ v, v = s.dev.setFld R.MEM_STAT_WIPING 0 →
    (s.dev.procs.q2.up = false → exec .wipeComplete s = .next (into s v.runTransfers)) ∧
    (s.dev.procs.q2.up = true →
      (s.dev.cmd.dstate ≠ .starting → exec .wipeComplete s = .next (into s v.chargeJob.runTransfers)) ∧
      (s.dev.cmd.dstate = .starting → exec .wipeComplete s = .next (into s v.startWipe.runTransfers)))) ∧
  exec .pcieLinkDown s = .next (into s (s.dev.onCmd fun c => { c with linkUp := false, linkWidth := 0, linkRate := 0 })) ∧
  (∀ w r : Byte, hostLink w r = true → exec (.pcieLinkUp w r) s =
    .next (into s (s.dev.onCmd fun c => { c with linkUp := true, linkWidth := w, linkRate := r }).flushAll)) ∧
  exec .pcieHotReset s = .next (into s ([0, 1, 2, 3].foldl (fun v r => v.stopRing r)
    (s.dev.onCmd fun c => { c with linkUp := false, linkWidth := 0, linkRate := 0 })))

/-- An activation goes past step 1 once it is quiet and loads once no processor restarts (R400); with all four processors ready for 1 s its
slot becomes the boot slot, and the bundle that runs the copy for a warm reset (R398); one that an emergency has kept waiting for more than 60 s is
abandoned. CAL_RESTORE stores the set it measured, once Crown and Peak are there (R384, R397). -/
def Obligations.FirmwareEventsComplete : Prop := ∀ (s : State) (a : Activation), Live s →
  (s.dev.cmd.activation = some a →
    (s.dev.quiet = true → a.loading = false → (∀ p, (s.dev.procs.get p).restarting = false) →
      exec .activationWaitExpiry s = .next (into s ((s.dev.onCmd fun c => { c with activation := some { a with passed := true } }).loadImages
        (s.nv.slot a.slot)))) ∧
    (a.passed = false → s.dev.pwr.emergency = true → 60000000 < s.dev.pwr.emergUs → exec .fwAbandoned s = .next (into s
      (((s.dev.onCmd fun c => { c with activation := none }).post 0x0607 1 (procUnit .peak) 0).replyFree a.ref FW_ABANDONED))) ∧
    (a.loading = true →
      (∀ p, (s.dev.procs.get p).up = true ∧ (s.dev.procs.get p).restarting = false ∧ (s.dev.procs.get p).activating = false ∧
        (s.dev.procs.get p).readyUs + 1000000 ≤ s.dev.clockUs) →
      ∀ (n : Nv) (u v : Device), n = { s.nv with boot := a.slot, noBoot := false } →
      u = { s.dev with store := s.dev.running } →
      v = ((u.onCmd fun c => { c with activation := none }).post 0x0608 1 (procUnit .peak) 0).reply a.ref OK
        (bundleVersion s.dev.running) → exec .fwActivated s = .next { s with nv := n, dev := v })) ∧
  (∀ ref : PktRef, s.dev.cmd.calRestore = some ref → s.dev.procs.q0.up = false ∨ s.dev.procs.q2.up = false →
    exec .calRestoreDone s = .next (into s (s.dev.onCmd fun c => { c with calDone := true }))) ∧
  (∀ (ref : PktRef) (c : CalSet) (n : Nv), s.dev.cmd.calRestore = some ref → s.dev.procs.q0.up = true → s.dev.procs.q2.up = true →
    c = { flags := 2, digest := Shake.digest (Config.recalibrated s.nv.draws), body := Config.recalibrated s.nv.draws } →
    n = { s.nv with draws := s.nv.draws + 1, cal := c } →
    exec .calRestoreDone s =
      .next { s with nv := n, dev := (s.dev.onCmd fun c => { c with calRestore := none, calDone := false }).replyFree ref OK })

/-! ## Registers -/

/-- Register accesses (R336 to R339, R341, R345, R347, R352, R354): a 32-bit write of a register of RW and RWI fields goes to its shadow and
its RWI fields, and a narrower one is discarded; a commit is posted, and a unit at its safe point applies it; a read completes with what
the register shows, a status write-back has its effect; accesses that find no register read zero and are recorded; the indirect window
takes an address, reads, writes and may time out; a parity sweep visits every copy. That an access at an offset that is not aligned is one
of the word it lies in is read from R337 (log entry 19), and STATUS_READ and COUNTER_LO_READ take any register (log entry 78). -/
def Obligations.RegisterCommandsComplete : Prop := ∀ (s : State) (off : Nat), Live s →
  (∀ v : W32, exec (.commitPost v) s = .next (into s ((s.dev.writeReserved s.svc R.GLB_COMMIT v).commitWrite v))) ∧
  (∀ (g : Fin 11) (d : Die) (u : Lm), s.dev.applyDue g.val d u.val = true →
    exec (.commitApply g d u) s = .next (into s (s.dev.applyUnit g.val d u.val))) ∧
  (∀ v : W64, (regAt (off / 4 * 4)).isSome = true →
    exec (.registerWrite off .b32 v) s = .next (into s (s.dev.regWrite s.svc (off / 4 * 4) (v.setWidth 32))) ∧
    exec (.registerWrite off .b16 v) s = .next (into s (s.dev.event R.GLB_STAT_WIDTH_ERR)) ∧
    exec (.registerWrite off .b8 v) s = .next (into s (s.dev.event R.GLB_STAT_WIDTH_ERR))) ∧
  (exec (.statusRead off .b32) s = .next ((s.busRead (off / 4 * 4)).2.complete ((s.busRead (off / 4 * 4)).1.setWidth 64)) ∧
    exec (.counterLoRead off) s = .next ((s.busRead (off / 4 * 4)).2.complete ((s.busRead (off / 4 * 4)).1.setWidth 64))) ∧
  (∀ v : W32, (regAt (off / 4 * 4)).isSome = true →
    exec (.statusWriteBack off v) s = .next (into s (s.dev.regWrite s.svc (off / 4 * 4) v))) ∧
  (∀ w : Bool, s.mapped (off / 4 * 4) w = false → ∃ t, exec (.unmappedAccess off w .b32) s = .next t ∧
    t.dev = (if w then s.dev.unmappedAccess (off / 4 * 4) else
      { s.dev.unmappedAccess (off / 4 * 4) with regs := { (s.dev.unmappedAccess (off / 4 * 4)).regs with readData := 0 } })) ∧
  (s.mapped (off / 4 * 4) true = false →
    exec (.unmappedAccess off true .b16) s = .next (into s ((s.dev.event R.GLB_STAT_WIDTH_ERR).unmappedAccess (off / 4 * 4))) ∧
    exec (.unmappedAccess off true .b8) s = .next (into s ((s.dev.event R.GLB_STAT_WIDTH_ERR).unmappedAccess (off / 4 * 4)))) ∧
  exec .paritySweep s = .next (into s ((s.dev.regs.live.map (·.1)).foldl Device.sweepReg s.dev)) ∧
  (∀ v : W32, exec (.indAddrWrite v) s = .next (into s
    (((s.dev.writeFields s.svc R.IND_ADDR v).setFld R.IND_STAT_TIMEOUT 0).setFld R.IND_STAT_SPACE_ERR 0))) ∧
  (∀ (v : W32) (u : Device), s.dev.windowWrite s.dev.indSpace s.dev.indOff v = some u →
    exec (.indDataWrite v) s = .next (into s u.indAdvance)) ∧
  (∀ (v : W32) (u : Device), s.dev.windowRead s.svc s.dev.indSpace s.dev.indOff = some (v, u) →
    exec .indDataRead s = .next ((into s u.indAdvance).complete (v.setWidth 64))) ∧
  (exec (.indTimeout true) s = .next (into s (s.dev.setFld R.IND_STAT_TIMEOUT 1)) ∧
    exec (.indTimeout false) s = .next ((into s (s.dev.setFld R.IND_STAT_TIMEOUT 1)).complete 0xFFFFFFFF))

/-! ## Errors, recovery and block resets -/

/-- Retiring frees HANDLED entries numbered at or before the value written, and with the overflow entry writes the lost count into BK10
again (R374, R375); a block reset of an idle block of a READY device
clears it and runs, and its end is reported (R366). A running processor that fails restarts, with an error for each failure in a row; the
third in a row enters HOLD (R378 to R381). One whose image verified and that reports ready runs again; one that has stayed up forgets its
failures; a lost REFCLK_SYS enters HOLD, on holdover (R431, R438). -/
def Obligations.RecoveryCommandsComplete : Prop := ∀ s : State, Live s →
  (∀ (q : W32) (v : Device), v = s.dev.onErr (fun x => { x with slots := x.slots.filter fun z => !(z.2.any fun e => Device.retired e q) }) →
    (((s.dev.err.slot 63).any fun e => Device.retired e q) = false → exec (.errRetire q) s = .next (into s v)) ∧
    (((s.dev.err.slot 63).any fun e => Device.retired e q) = true →
      exec (.errRetire q) s = .next (into s (v.setBk 10 (s.dev.fld R.GLB_ERR_LOST_COUNT))))) ∧
  (∀ (i : BitVec 4), s.dev.cmd.dstate = .ready →
    let ends (c : Instr) (k : Nat) : Prop := s.dev.blockIdle k i.toNat = true → exec c s =
      .next (into s { s.dev.clearBlock k i.toNat with blocks := s.dev.blocks ++ [(k, i.toNat)] })
    ends (.mittBlockReset i) 1 ∧ ends (.cuffBlockReset i) 2 ∧ ends (.gauntletBlockReset i) 3 ∧ ends (.palmBlockReset i) 4 ∧
    ends (.vectorBlockReset i) 5 ∧ ends (.visorBlockReset i) 6 ∧ ends (.washaPortReset i) 7 ∧ ends (.cxlPortReset i) 8) ∧
  (∀ k i : BitVec 4, (k.toNat, i.toNat) ∈ s.dev.blocks → exec (.blockResetDone k i) s =
    .next (into s ({ s.dev with blocks := s.dev.blocks.erase (k.toNat, i.toNat) }.event R.GLB_RST_STAT_BLK_DONE))) ∧
  ∀ (p : Proc) (x : ProcState) (v : Device), s.dev.cmd.dstate ≠ .hold → x = s.dev.procs.get (procIdx p) →
  v = (match x.fails with
    | 0 => (s.dev.post 0x0501 1 (procUnit p) 0).beginRestart p 1
    | 1 => (s.dev.post 0x0502 1 (procUnit p) 0).beginRestart p 2
    | _ => (s.dev.setProc (procIdx p) { x with up := false, restarting := false }).enterHold (procUnit p) 2 0x0503 0x0502) →
  (x.up = true ∨ x.activating = true →
    exec (.watchdogExpiry p) s = .next (into s v) ∧ exec (.processorFailure p) s = .next (into s v)) ∧
  (x.restarting = true → exec (.restartTimeout p) s = .next (into s v)) ∧
  (x.restarting = true → s.dev.images ≠ [] → ∀ ws : Waits, ∃ t, exec (.processorReady ⟨p, ws⟩) s = .next t ∧
    (s.dev.cmd.activation = none →
      t.dev.procs = s.dev.procs.set (procIdx p) { x with up := true, restarting := false, activating := false, readyUs := s.dev.clockUs })) ∧
  (x.up = true → exec (.fwStable p) s = .next (into s (s.dev.setProc (procIdx p) { x with fails := 0 }))) ∧
  (s.refclk = true → exec .refclkLost s =
    .next (into { s with refclk := false } ({ s.dev with holdover := some 0 }.enterHold 0x00C4 0 0x0801 0x0801))) ∧
  (s.refclk = false → exec .refclkLost s = .next s)

/-- An error that joins no entry and finds a free slot takes the lowest one with the next sequence number, is handled by its severity and
is copied into the Lining from severity 2 on, the entries staying numbered as they came until the number wraps; one that joins an entry
only counts (R368, R370, R373). -/
def Obligations.PostedErrors : Prop := ∀ (s : Device) (code unit : W16) (sev : Nat) (detail : W64),
  (∀ (i : Nat) (e : ErrEntry), s.err.joins code sev = some (i, e) →
    s.post code sev unit detail = s.onErr fun q => q.setSlot i (some { e with occ := satCount 16 (e.occ + 1) })) ∧
  (∀ (i : Nat) (v : Device), s.err.joins code sev = none → s.err.freeSlot = some i → v = s.create i (s.entryOf code sev unit detail) →
    s.post code sev unit detail = v.settle ∧ (s.err.slot i).isNone = true ∧ (∀ j, j < i → (s.err.slot j).isSome = true) ∧
    v.err.nextSeq = s.err.nextSeq + 1 ∧ (Numbered s.err → s.err.nextSeq + 1 ≠ 0 → Numbered v.err) ∧
    v.err.slot i = some { s.entryOf code sev unit detail with seq := s.err.nextSeq } ∧
    (sev ≤ 1 → v.lining = s.lining) ∧
    (2 ≤ sev → v.lining.readBytes 0x100 32 = { s.entryOf code sev unit detail with seq := s.err.nextSeq }.bytes))

/-- A severity of 2 or 3 that becomes ACTIVE ends the job that runs, with JOB_FATAL and its code (R371); its step stops, the Gauntlets and
the Palm queues are cleared and no join is left (R323, R324). -/
def Obligations.FatalErrorsEndTheJob : Prop := ∀ (s t : Device) (i : Nat) (e : ErrEntry) (j : Job), 2 ≤ e.sev → s.cmd.job = some j →
  (∀ w, j.phase ≠ .ending w) → t = s.act i e →
  (∃ k, t.cmd.job = some k ∧ k.phase = .ending false ∧ k.endStatus = JOB_FATAL ∧ k.errCode = e.code ∧ k.endFrm = s.frm.count) ∧
  t.frm.stepRun = false ∧ t.cmd.joins = [] ∧ (∀ d, (t.die d).gnt = {} ∧ (t.palm d).queue = []) ∧
  (s.cmd.dstate ≠ .hold → t.cmd.dstate = .ending)

/-! ## I3C and TAP -/

/-- The I3C commands (R401, R402): private writes set the index and, with data, the address register or what it addresses; private reads
return the register that the last index named; the addresses, lengths, identity and event enables are as the command says, and RSTACT is answered with NACK
for any action but 0x00. -/
def Obligations.I3cCommandsComplete : Prop := ∀ (s : State), I3cLive s →
  let moves (f : I3c → I3c) : State := into s { s.dev with i3c := f s.dev.i3c }
  let sets (f : I3c → I3c) : State := moves fun i => f { i with nack := false }
  let acked : State := sets id
  (∀ ix : Byte, exec (.i3cPrivateWrite ix none) s = .next (moves fun i => { i with index := ix })) ∧
  (∀ v : W32, exec (.i3cPrivateWrite 0 (some v)) s = .next (moves fun i => { i with
      index := 0, err := false, addr := if s.svc = 2 then v else v - v % 4 + i.addr % 4 }) ∧
    exec (.i3cPrivateWrite 1 (some v)) s = .next ((moves fun i => { i with index := 1 }).i3cWrite v) ∧
    (∀ ix : Byte, 2 ≤ ix.toNat → exec (.i3cPrivateWrite ix (some v)) s = .next (moves fun i => { i with index := ix }))) ∧
  (s.dev.i3c.index = 0 → exec .i3cPrivateRead s = .next (s.complete (s.dev.i3c.addr.setWidth 64))) ∧
  (s.dev.i3c.index = 1 → exec .i3cPrivateRead s = .next (s.i3cData.2.complete (s.i3cData.1.setWidth 64))) ∧
  (s.dev.i3c.index = 2 → exec .i3cPrivateRead s = .next (s.complete (if s.dev.i3c.err then 1 else 0))) ∧
  (∀ a : BitVec 7,
    (s.dev.i3c.dyn = none → exec (.entdaa a) s = .next (sets fun i => { i with dyn := some a }) ∧
      exec (.setdasa 0x4C a) s = .next (sets fun i => { i with dyn := some a })) ∧
    (s.dev.i3c.dyn ≠ none → exec (.setnewda a) s = .next (sets fun i => { i with dyn := some a }))) ∧
  exec .rstdaa s = .next (sets fun i => { i with dyn := none }) ∧
  exec .getpid s = .next (acked.complete (Config.i3cPid.setWidth 64)) ∧
  exec .getbcr s = .next (acked.complete (Config.i3cBcr.setWidth 64)) ∧
  exec .getdcr s = .next (acked.complete (Config.i3cDcr.setWidth 64)) ∧
  exec .getstatus s = .next (acked.complete ((Config.i3cStatus (s.dev.alert && s.dev.i3c.ibiOn)).setWidth 64)) ∧
  exec .getmwl s = .next (acked.complete (s.dev.i3c.mwl.setWidth 64)) ∧
  exec .getmrl s = .next (acked.complete (s.dev.i3c.mrl.setWidth 64)) ∧
  (∀ n : W16, exec (.setmwl n) s = .next (sets fun i => { i with mwl := n }) ∧
    exec (.setmrl n) s = .next (sets fun i => { i with mrl := n })) ∧
  (∀ e : Byte, (e.getLsbD 0 = true → exec (.enec e) s = .next (sets fun i => { i with ibiOn := true }) ∧
      exec (.disec e) s = .next (sets fun i => { i with ibiOn := false })) ∧
    (e.getLsbD 0 = false → exec (.enec e) s = .next acked ∧ exec (.disec e) s = .next acked)) ∧
  (∀ x : Byte, exec (.rstact x) s = .next (moves fun i => { i with nack := decide (x ≠ 0) }))

/-- The TAP's commands while VAUX is good (R414, R434 to R436): each instruction becomes current through a scan, which captures 0x01, with
what its data register captures; Test-Logic-Reset makes IDCODE current, as IEEE 1149.1 has it (presumed, log entry 27); a
Lumov test instruction where debug is permitted is noted, elsewhere it acts as BYPASS; a scan of the boundary register updates it under
EXTEST and SAMPLE/PRELOAD; an opcode that the table does not list acts as BYPASS. The instruction that is current says whether the I3C target
has its bus; none of them touches a register, a memory or the fuses. -/
def Obligations.TapCommandsComplete : Prop := ∀ (s : State), s.vaux = true →
  let held (ir : Byte) : Bool := ir == 0x00 || ir == 0x04 || ir == 0x08
  let now (ir : Byte) (c : W32) : State :=
    { s with tap := { s.tap with ir, captured := c, irCaptured := 0x01 }, dev := { s.dev with offBus := held ir } }
  let cells (ir : Byte) (b : BitVec 15) (c : Byte) : State :=
    { s with tap := { ir, boundary := b, captured := s.captureCells.setWidth 32, irCaptured := c },
             dev := { s.dev with freeCnt := s.dev.freeCnt + 1, offBus := held ir } }
  let scan (ir : Byte) (b : BitVec 15) : State := cells ir b 0x01
  exec .extest s = .next (scan 0x00 s.tap.boundary) ∧ (∀ b, exec (.samplePreload b) s = .next (scan 0x02 b)) ∧
  exec .idcode s = .next (now 0x01 0x1D900C3D) ∧ exec .testLogicReset s =
    .next { s with tap := { s.tap with ir := 0x01, captured := 0x1D900C3D }, dev := { s.dev with offBus := false } } ∧
  exec .clamp s = .next (now 0x04 0) ∧ exec .highz s = .next (now 0x08 0) ∧
  exec (.bypass 0xFF) s = .next (now 0xFF 0) ∧
  (∀ op : Byte, op.toNat < 0x80 → op.toNat ∉ [0x00, 0x01, 0x02, 0x04, 0x08] → exec (.bypass op) s = .next (now op 0)) ∧
  (∀ op : Byte, 0x80 ≤ op.toNat → op ≠ 0xFF →
    (s.nv.debug = true → exec (.lumovTestInstruction op) s =
      .next { s with tap := { s.tap with ir := op, captured := 0, irCaptured := 0x01 }, dev := { s.dev with testLoaded := true, offBus := false } }) ∧
    (s.nv.debug = false → exec (.lumovTestInstruction op) s = .next (now op 0) ∧ exec (.bypass op) s = .next (now op 0))) ∧
  (∀ b : BitVec 15, s.tap.ir = 0x00 ∨ s.tap.ir = 0x02 → exec (.boundaryRegisterUpdate b) s = .next (cells s.tap.ir b s.tap.irCaptured))

/-! ## Memory -/

/-- What memory reports (R234, R235, R241, R242, R254, R257 to R260): a good read changes nothing, a corrected and an uncorrectable one
are recorded; the scrub reads its line and moves on; a stack trains or, between jobs, retrains; a port is enumerated, goes down or reports an event, which waits while Bonnet restarts (R384). -/
def Obligations.MemoryEventsComplete : Prop := ∀ s : State, Live s →
  (∀ (a : Nat) (r : Requester), s.dev.stackState (stackOf a) ≠ 2 → a < 2 ^ 40 →
    exec (.burstRead false a .good r) s = .next s ∧
    (∀ l, exec (.burstRead false a (.corrected l) r) s = .next (into s (s.dev.correctedRead a l false (Device.unitOf r)))) ∧
    exec (.burstRead false a .uncorrectable r) s = .next (into s
      (s.dev.uncorrectable (s.dev.logItem false a 2 false (Device.unitOf r)) (Device.severityOf r)))) ∧
  (s.dev.flag R.MEM_SCRUB_CTL_EN = true → s.dev.procs.q3.up = true → s.dev.flag R.MEM_STAT_TRAINED = true →
    s.dev.unmapped false (256 * s.dev.mem.scrubLine) = false → exec (.patrolScrub .good) s = .next (into s s.dev.nextLine)) ∧
  (∀ (k : Fin 8) (l : List (Fin 32 × List (Fin 74))) (v : Device), s.dev.stackState k.val = 0 → s.dev.procs.q3.up = true →
    v = (s.dev.recordLanes k.val l).stackTrained k.val l → (∃ j, j < 8 ∧ v.stackState j = 0) →
    exec (.stackTrainingDone k l) s = .next (into s v)) ∧
  (∀ k : Fin 8,
    (s.dev.stackState k.val = 3 → s.dev.procs.q3.up = true →
      exec (.stackRetrain k true) s = .next (into s ((s.dev.recordLanes k.val []).stackTrained k.val []))) ∧
    (s.dev.flag R.MEM_CTL_RETRAIN_IDLE = true → s.dev.cmd.dstate = .ready ∨ s.dev.cmd.dstate = .starting → s.dev.stackState k.val = 1 →
      0 < s.dev.stackMarks k.val true → s.dev.procs.q3.up = true → (∀ j, j < 8 → s.dev.stackState j ≠ 3) →
      exec (.stackRetrain k false) s = .next (into s (s.dev.setFld (R.MEM_STACK_STATE.nth k.val) 3)))) ∧
  (∀ (p : Fin 2) (cap : Nat) (w : BitVec 5) (r : BitVec 2), s.dev.portDown p.val = true → s.dev.cmd.job = none → s.dev.procs.q3.up = true →
    (w = 4 ∨ w = 8 ∨ w = 16) → r ≠ 0 → exec (.cxlEnumerate p cap w r) s = .next (into s
      (((((s.dev.setFld (R.MEM_FAR_CAP_CAP.nth p.val) (min (cap / 2 ^ 28) 16384)).setFld (R.MEM_FAR_STAT_WIDTH.nth p.val) w.toNat).setFld
        (R.MEM_FAR_STAT_RATE.nth p.val) r.toNat).setFld (R.MEM_FAR_STAT_TRUNC.nth p.val) (b2n (decide (cap / 2 ^ 28 > 16384)))).wipePort p.val))) ∧
  (∀ (p : Fin 2) (v : Device), s.dev.portDown p.val = false →
    v = (((s.dev.setFld (R.MEM_FAR_STAT_WIDTH.nth p.val) 0).setFld (R.MEM_FAR_STAT_RATE.nth p.val) 0).event
      (R.MEM_FAR_STAT_DOWN.nth p.val)).post 0x0305 2 (unitCode 0x0A (4 + p.val)) (BitVec.ofNat 64 p.val) →
    exec (.memFarDown p) s = .next (into s v) ∧ exec (.refclkCxlLost p) s = .next (into s v) ∧
    (∀ a : Nat, (s.dev.procs.q3.up = true → exec (.memFarEvent p a) s = .next (into s ((s.dev.memLog
      { addr := a, kind := 5, place := 0x80 + p.val, unit := unitCode 0x0A (4 + p.val) }).post 0x0307 1 (unitCode 0x0A (4 + p.val))
        (BitVec.ofNat 64 a)))) ∧
      (s.dev.procs.q3.up = false → exec (.memFarEvent p a) s =
        .next (into s { s.dev with mem := { s.dev.mem with bonnetHeld := s.dev.mem.bonnetHeld ++ [(p, a)] } }))))

/-- The near interleave loses no address (R237): two addresses of the near windows with the same window, stack, channel, pseudo-channel
and byte in it are one address, and the byte lies within the 2 GiB of a pseudo-channel. -/
def Obligations.NearMapIsOneToOne : Prop := ∀ a b : Nat, a < 2 ^ 40 → b < 2 ^ 40 →
  pseudoAddr a < 2 ^ 31 ∧
  (stackOf a = stackOf b → channelOf a = channelOf b → pseudoOf a = pseudoOf b → pseudoAddr a = pseudoAddr b → a = b)

/-! ## Power, resets and supplies -/

/-- Power commands (R235, R385 to R393): a sample brings the diodes of the moment, with the offsets of the calibration set (places: the
model's choice, log entry 36), and takes or takes back the causes TJ and THERM; a microsecond moves the bucket by PL_SUST less the power
within its range, and the clock, and takes or takes back the causes of the power and of VIN; a cause that arises gives the clamp control
and is an emergency; the clamp halves or raises each die's duty by the safe limits and hands back when it may; Crown's loop moves its
duties as R389 gives; the stacks' temperatures are taken. The model's choices besides: the clamp's duties start from the duties in force (log
entry 43), a current above 20 A counts as 20 A (log entry 184), and the duty goes up in each microsecond after the hundredth (log entry
68). -/
def Obligations.PowerCommandsComplete : Prop := ∀ s : State, Live s →
  (∀ (t : List Int) (v : Device), v = s.dev.onPwr (fun p => { p with diodes := t.mapIdx s.dev.corrected }) →
    (v.deviceHot ≤ 105 * 16 → exec (.sensorSample t) s = .next (into s
      (((v.setCause 3 false).setCause 6 false).onPwr fun p => { p with thermN := false }))) ∧
    (105 * 16 < v.deviceHot → v.deviceHot < 110 * 16 → exec (.sensorSample t) s = .next (into s
      (((v.setCause 3 true).setCause 6 false).onPwr fun p => { p with thermN := false }))) ∧
    (110 * 16 ≤ v.deviceHot → v.deviceHot < 115 * 16 →
      exec (.sensorSample t) s = .next (into s ((v.setCause 3 true).setCause 6 false))) ∧
    (115 * 16 ≤ v.deviceHot → exec (.sensorSample t) s = .next (into s ((v.setCause 3 true).setCause 6 true)))) ∧
  (∀ (v u : Device) (i : Nat), 1 ≤ i → i < v.pwr.causes.length → i < 7 → v.hasCause i = false → u = v.setCause i true →
    u.hasCause i = true ∧ u.pwr.clamp = true ∧ u.pwr.emergency = true ∧ u.pwr.calmUs = 0 ∧ (i = 6 → u.pwr.thermN = true) ∧
    (v.pwr.clamp = false → ∀ d, u.pwr.clampDuty.get d = v.duty d)) ∧
  (∀ (vin cur : List Nat) (volts amps bad : List Nat) (p sust : Nat),
    volts = vin.mapIdx (fun i x => (s.dev.corrected (80 + i) x).toNat) →
    amps = cur.mapIdx (fun i x => min 2000 (s.dev.corrected (84 + i) x).toNat) →
    p = ((volts.zip amps).map fun x => x.1 * x.2).sum → sust = s.dev.fld R.PWR_PL_SUST_VALUE * 10000 →
    bad = ((volts.zip s.dev.pwr.vinBad).map fun x => if x.1 < 3800 ∨ 4600 < x.1 then x.2 + 1 else 0) →
    ∃ t, exec (.bucketUpdate vin cur) s = .next t ∧ t.dev.clockUs = s.dev.clockUs + 1 ∧ t.dev.pwr.power = p ∧
      t.dev.pwr.recent = (p :: s.dev.pwr.recent).take 100 ∧
      t.dev.pwr.bucket = min (s.dev.pwr.bucket + sust - p) (s.dev.bucketMax * 10 ^ 7) ∧ t.dev.pwr.vinBad = bad ∧
      (s.dev.pwr.causes.length = 7 →
        (t.dev.hasCause 1 = true ↔ s.dev.fld R.PWR_PL_PEAK_VALUE * 10000 < p) ∧
        (t.dev.hasCause 2 = true ↔ sust < p ∧ t.dev.pwr.bucket = 0) ∧ (t.dev.hasCause 5 = true ↔ ∃ n ∈ bad, 10 ≤ n))) ∧
  (s.dev.pwr.clamp = true → ∃ t, exec .clampEnforce s = .next t ∧ ∀ (d : Die) (beyond : Prop),
    (beyond ↔ (1000 * 10000 < s.dev.pwr.power ∨ 95 * 16 < s.dev.dieHot d ∨ 85 < s.dev.stackTemp (2 * d.val) ∨
      85 < s.dev.stackTemp (2 * d.val + 1))) →
    (beyond → t.dev.pwr.clampDuty.get d = max 16 (s.dev.pwr.clampDuty.get d / 2)) ∧
    (¬ beyond → s.dev.pwr.lowUs.get d + 1 < 100 → t.dev.pwr.clampDuty.get d = s.dev.pwr.clampDuty.get d) ∧
    (¬ beyond → 100 ≤ s.dev.pwr.lowUs.get d + 1 → t.dev.pwr.clampDuty.get d = min 256 (s.dev.pwr.clampDuty.get d + 8))) ∧
  (s.dev.pwr.clamp = true → (∀ c ∈ s.dev.pwr.causes, c = false) → 1000 ≤ s.dev.pwr.calmUs → s.dev.procs.q0.up = true →
    s.dev.pwr.thermN = false → ∃ t, exec .clampHandback s = .next t ∧ t.dev.pwr.clamp = false ∧ t.dev.pwr.emergency = false ∧
      ∀ d, t.dev.pwr.th.get d = s.dev.duty d) ∧
  (s.dev.procs.q0.up = true → ∀ tj stk avg room : Int,
    tj = s.dev.fld R.PWR_TJ_TARGET_VALUE * 16 - (if s.dev.calUse.factory then 0 else 32) → stk = s.dev.fld R.PWR_STK_TARGET_VALUE →
    avg = s.dev.pwr.recent.sum / max 1 s.dev.pwr.recent.length / 10000 →
    room = (if s.dev.bucketMax / 2 < s.dev.pwr.bucket / 10 ^ 7 then ((s.dev.fld R.PWR_PL_PEAK_VALUE * 98 / 100 : Nat) : Int)
      else (s.dev.fld R.PWR_PL_SUST_VALUE : Int)) - avg →
    ∃ t, exec .crownLoop s = .next t ∧ (t.dev.pwr.pw : Int) = max 16 (min (s.dev.pwr.pw + Int.tdiv room 4) 256) ∧
      ∀ (d : Die) (e : Int), e = min (tj - s.dev.dieHot d)
          ((stk - max (s.dev.stackTemp (2 * d.val) : Int) (s.dev.stackTemp (2 * d.val + 1))) * 16) →
        (t.dev.pwr.th.get d : Int) = max 16 (min (s.dev.pwr.th.get d + Int.tdiv e 4) 256)) ∧
  (∀ ts : List Byte, s.dev.procs.q3.up = true → exec (.bonnetLoop ts) s = .next (into s
    (let v := (List.range 8).foldl (fun v k => v.setFld (R.MEM_STACK_TEMP.nth k) (ts.getD k 0).toNat) s.dev
     v.setCause 4 ((List.range 8).any fun k => decide (v.stackTemp k > 95)))))

/-- The duty in force on each die is the smallest of Crown's thermal duty for that die, Crown's power duty and the clamp's duty (zero
under THERM) while the clamp is in control; PWR_DUTYd reads it; the count of throttled microseconds takes one more for a die whose duty
is below 256 and none for another, up to its largest value (R387). -/
def Obligations.DutyInForce : Prop := ∀ (s : State) (d : Die),
  (s.dev.pwr.clamp = false → s.dev.duty d = min (s.dev.pwr.th.get d) s.dev.pwr.pw) ∧
  (s.dev.pwr.clamp = true → s.dev.duty d = min (if s.dev.pwr.causes.getD 6 false then 0 else s.dev.pwr.clampDuty.get d)
    (min (s.dev.pwr.th.get d) s.dev.pwr.pw)) ∧
  (s.dev.duty d < 2 ^ 32 → ∀ m, (s.regValue (R.PWR_DUTY + 4 * d.val) m).toNat = s.dev.duty d) ∧
  (s.dev.countThrottled.fld (R.PWR_THR_US_VALUE.nth d.val) =
    if s.dev.duty d < 256 then satCount 32 (s.dev.fld (R.PWR_THR_US_VALUE.nth d.val) + 1) else s.dev.fld (R.PWR_THR_US_VALUE.nth d.val))

/-- Supplies, RESET_N and the release (R359, R360, R364, R398, R409, R410, R424, R425, R431): a RESET_N that REFCLK_SYS recognises, an
input that shuts down and a lost VAUX put the device into reset; power comes up row by row (log entry 178); the release, for which RESET_N
is high and REFCLK_SYS runs, frees it; after a warm reset the processors start from the verified copies, else the boot chain runs, which
falls back to the other slot, which is no fallback to report where the last reset left no boot slot (log entry 51; deduced); lost clocks of the host link and of a fabric die take theirs down. The empty Lining of a VAUX loss is the
model's choice (log entry 57), that a warm reset without a verified
copy runs the boot chain is another (log entry 135), and that the shutdown itself records the power-on reset is read from the rules (log
entry 136). -/
def Obligations.SupplyCommandsComplete : Prop := ∀ s : State,
  (s.rails = true → s.refclk = true → s.tap.holds = false →
    exec .resetNAssert s = .next ({ s with resetHigh := false }.beginReset 1)) ∧
  (s.rails = false ∨ s.refclk = false → s.tap.holds = false → exec .resetNAssert s = .next { s with resetHigh := false }) ∧
  (s.rails = true → exec .vinShutdown s = .next { s.beginReset 0 with rails := false }) ∧
  exec .vauxLoss s = .next { s with
    vaux := false, rails := false, tap := {}, dev := { s.dev.inResetFrom 0 with lining := [], offBus := false } } ∧
  (s.vaux = false → exec .powerOn s = .next { s with vaux := true, tap := {}, dev := { s.dev with offBus := false } }) ∧
  (s.vaux = true → exec .powerOn s = .next { s with rails := true }) ∧
  (∀ x : Release, s.dev.inReset = true → s.tap.holds = false →
    (s.resetHigh = false → x.high = false → ∃ t, exec (.resetRelease x) s = .next t ∧ t.dev.inReset = true) ∧
    (s.vaux = true → s.rails = true → s.resetHigh = true ∨ x.high = true → s.refclk = true ∨ x.clock = true →
      ∃ t, exec (.resetRelease x) s = .next t ∧ t.dev.inReset = false ∧ t.dev.pwr.clamp = true ∧ t.dev.wiping = true ∧
        t.nv.draws ≥ s.nv.draws + 1 ∧ (s.dev.cause ≠ 3 ∨ s.dev.store = [] → t.dev.booting = true) ∧
        (s.refclk = true → s.dev.cause = 3 → s.dev.store ≠ [] → t.dev.booting = false ∧
          ∀ p : Fin 4, (t.dev.procs.get p).up = true ∧ (t.dev.procs.get p).code = image s.dev.store p.val))) ∧
  (Live s → s.dev.booting = true →
    (s.nv.verifies s.nv.boot = true → exec .bootVerify s = .next (s.bootSlot s.nv.boot)) ∧
    (s.nv.verifies s.nv.boot = false → s.nv.verifies (otherSlot s.nv.boot) = true → ∀ t, t = s.bootSlot (otherSlot s.nv.boot) →
      (s.nv.noBoot = false → exec .bootVerify s = .next (into t
        (({ t.dev with fellBack := true }.event R.SEC_STAT_BOOT_FALLBACK).post 0x0701 1 (unitCode 0x15 4) 0))) ∧
      (s.nv.noBoot = true → exec .bootVerify s = .next t)) ∧
    (s.nv.verifies s.nv.boot = false → s.nv.verifies (otherSlot s.nv.boot) = false → exec .bootVerify s = .next s.bootFailed)) ∧
  (s.dev.inReset = false → exec .refclkPcieLost s = .next (into s (s.dev.onCmd fun c => { c with linkUp := false, linkWidth := 0, linkRate := 0 })) ∧
    ∀ (n : Fin 2) (ws : Waits), ∃ t, exec (.refclkWashaLost ⟨n, ws⟩) s = .next t ∧ ∀ i, i < 8 → (t.dev.port (8 * n.val + i)).up = false)

/-- A device reset (R359, R361) leaves every fuse, the TAP and the queue of commands; it is recorded first in the Lining and counted in
BK8, which it keeps; every register is at its reset value; near, far, tile and scratch memory are clear; no job, no command, no error and
no commit is left. -/
def Obligations.ResetClears : Prop := ∀ (s : State) (cause : Nat), let t := s.beginReset cause
  t.nv = s.nv ∧ t.tap = s.tap ∧ t.pending = s.pending ∧ t.dev.inReset = true ∧ t.dev.cause = cause ∧
  t.dev.bk 8 = (s.dev.bk 8 + 1) % 2 ^ 32 ∧ t.dev.lining.readBytes 0x10 16 = resetEntry s.dev cause ∧
  (∀ n, n ≠ 8 → t.dev.bk n = s.dev.bk n) ∧
  (∀ off, t.dev.regs.liveAt off = resetCopy off ∧ t.dev.regs.shadowAt off = resetCopy off) ∧
  (∀ sp a, (t.dev.memory sp).read a = 0) ∧
  t.dev.cmd.dstate = .notReady ∧ t.dev.cmd.job = none ∧ t.dev.cmd.queue = [] ∧ t.dev.err.depth = 0 ∧ t.dev.regs.commits = [] ∧
  t.dev.frm.count = 0 ∧ (2 ≤ cause → t.dev.cmd.linkUp = s.dev.cmd.linkUp) ∧ (cause < 2 → t.dev.cmd.linkUp = false)

/-! ## Formats of the spec -/

/-- R37 and R38: the magnitudes of FP4 E2M1 by the low three bits of the code, in halves, with bit 3 its sign; those of FP6 E2M3 in
eighths and of FP6 E3M2 in sixteenths, by the exponent and fraction fields. -/
def Obligations.SmallFloatMagnitudes : Prop :=
  (∀ c : Nat, c < 8 → ∃ m e : Nat,
    FloatFmt.e2m1.decode c = .fin false m ((e : Int) - 1) ∧ FloatFmt.e2m1.decode (c + 8) = .fin true m ((e : Int) - 1) ∧
      m * 2 ^ e = [0, 1, 2, 3, 4, 6, 8, 12].getD c 0) ∧
  (∀ e f : Nat, e < 4 → f < 8 → ∃ m k : Nat, FloatFmt.e2m3.decode (8 * e + f) = .fin false m ((k : Int) - 3) ∧
    m * 2 ^ k = ([[0, 1, 2, 3, 4, 5, 6, 7], [8, 9, 10, 11, 12, 13, 14, 15], [16, 18, 20, 22, 24, 26, 28, 30],
      [32, 36, 40, 44, 48, 52, 56, 60]].getD e []).getD f 0) ∧
  (∀ e f : Nat, e < 8 → f < 4 → ∃ m k : Nat, FloatFmt.e3m2.decode (4 * e + f) = .fin false m ((k : Int) - 4) ∧
    m * 2 ^ k = ([[0, 1, 2, 3], [4, 5, 6, 7], [8, 10, 12, 14], [16, 20, 24, 28], [32, 40, 48, 56], [64, 80, 96, 112],
      [128, 160, 192, 224], [256, 320, 384, 448]].getD e []).getD f 0)

/-- R56: maximum and minimum of two operands are the canonical quiet NaN where either is NaN, else the larger or the smaller of the two by
value, an infinity beyond every number, and -0 below +0. -/
def Obligations.MaximumAndMinimum : Prop :=
  let value (neg : Bool) (m : Nat) (e : Int) : ℚ := (if neg then -1 else 1) * m * (2 : ℚ) ^ e
  (∀ (f : FloatFmt) (r : Rnd), f.ieee r .nan = f.nanCode) ∧
  (∀ x : Val, Val.max2 .nan x = .nan ∧ Val.max2 x .nan = .nan ∧ Val.min2 .nan x = .nan ∧ Val.min2 x .nan = .nan) ∧
  (∀ x : Val, x ≠ .nan → Val.max2 (.inf false) x = .inf false ∧ Val.max2 x (.inf false) = .inf false ∧
    Val.max2 (.inf true) x = x ∧ Val.max2 x (.inf true) = x ∧ Val.min2 (.inf true) x = .inf true ∧ Val.min2 x (.inf true) = .inf true ∧
    Val.min2 (.inf false) x = x ∧ Val.min2 x (.inf false) = x) ∧
  (∀ (a b : Bool) (m n : Nat) (e f : Int),
    (value b n f < value a m e → Val.max2 (.fin a m e) (.fin b n f) = .fin a m e ∧ Val.min2 (.fin a m e) (.fin b n f) = .fin b n f) ∧
    (value a m e < value b n f → Val.max2 (.fin a m e) (.fin b n f) = .fin b n f ∧ Val.min2 (.fin a m e) (.fin b n f) = .fin a m e) ∧
    (value a m e = value b n f → a = b →
      (Val.max2 (.fin a m e) (.fin b n f) = .fin a m e ∨ Val.max2 (.fin a m e) (.fin b n f) = .fin b n f) ∧
      (Val.min2 (.fin a m e) (.fin b n f) = .fin a m e ∨ Val.min2 (.fin a m e) (.fin b n f) = .fin b n f))) ∧
  (∀ e f : Int, Val.max2 (.fin true 0 e) (.fin false 0 f) = .fin false 0 f ∧ Val.max2 (.fin false 0 f) (.fin true 0 e) = .fin false 0 f ∧
    Val.min2 (.fin true 0 e) (.fin false 0 f) = .fin true 0 e ∧ Val.min2 (.fin false 0 f) (.fin true 0 e) = .fin true 0 e)

/-- R308: a reply is 32 bytes, with the packet's sequence number, opcode, status code, job ID, result, phase and interim bits and
cookie at their places. -/
def Obligations.ReplyLayout : Prop := ∀ (x : Reply) (phase : Bool), let b := Device.replyBytes x phase
  b.length = 32 ∧ field b 0x00 4 = x.ref.seq.toNat ∧ field b 0x04 2 = x.ref.op.toNat ∧ field b 0x06 2 = x.status % 2 ^ 16 ∧
  field b 0x08 8 = x.ref.job.toNat ∧ field b 0x10 6 = x.result % 2 ^ 48 ∧ field b 0x16 2 = b2n phase + 2 * b2n x.interim ∧
  field b 0x18 8 = x.ref.cookie.toNat
end

