-- ==== Sys2Proof/Laws/Memory.lean ====
section
/-! SUPPORT. Sparse data and memories: what a write changes, and that every operation keeps the canonical form. -/

namespace Sys2Proof.Machine

namespace Sparse

variable {α : Type}

@[simp] theorem get_nil (d : α) (k : Nat) : get d k [] = d := rfl

variable [DecidableEq α]

/-- A key below every listed one reads as unlisted. -/
theorem get_below {d : α} {k : Nat} : ∀ {lo : Nat} {m : Sparse α}, wfFrom d lo m = true → k < lo → get d k m = d
  | _, [], _, _ => rfl
  | lo, (a, v) :: rest, h, hk => by
    simp only [wfFrom, Bool.and_eq_true, decide_eq_true_eq] at h
    have : k ≠ a := by omega
    simp only [get, this, if_false]
    exact get_below h.2 (by omega)

/-- A larger lower bound implies a smaller one. -/
theorem wfFrom_mono {d : α} {lo lo' : Nat} (hl : lo' ≤ lo) : ∀ {m : Sparse α}, wfFrom d lo m = true → wfFrom d lo' m = true
  | [], _ => rfl
  | (a, v) :: rest, h => by
    simp only [wfFrom, Bool.and_eq_true, decide_eq_true_eq] at h ⊢
    exact ⟨⟨by omega, h.1.2⟩, h.2⟩

theorem wfFrom_cons {d v : α} {lo a : Nat} {m : Sparse α} :
    wfFrom d lo ((a, v) :: m) = true ↔ lo ≤ a ∧ v ≠ d ∧ wfFrom d (a + 1) m = true := by
  simp [wfFrom, and_assoc]

/-- Dropping keys keeps the canonical form. -/
theorem keep_wfFrom {d : α} (p : Nat → Bool) : ∀ {lo : Nat} {m : Sparse α}, wfFrom d lo m = true → wfFrom d lo (keep p m) = true
  | _, [], _ => rfl
  | lo, (a, v) :: rest, h => by
    rw [wfFrom_cons] at h
    have ih := keep_wfFrom p h.2.2
    unfold keep at ih ⊢
    rw [List.filter_cons]
    split
    · exact wfFrom_cons.2 ⟨h.1, h.2.1, ih⟩
    · exact wfFrom_mono (by omega) ih

theorem keep_wf {d : α} (p : Nat → Bool) {m : Sparse α} (h : wf d m = true) : wf d (keep p m) = true := keep_wfFrom p h

omit [DecidableEq α] in
/-- A kept key reads as before, a dropped one as unlisted. -/
theorem get_keep {d : α} (p : Nat → Bool) (k : Nat) : ∀ (m : Sparse α), get d k (keep p m) = if p k then get d k m else d
  | [] => by simp [keep]
  | (a, v) :: rest => by
    have ih := get_keep (d := d) p k rest
    unfold keep at ih ⊢
    rw [List.filter_cons]
    by_cases hk : k = a
    · subst hk
      by_cases hp : p k = true
      · simp [hp, get]
      · simp only [hp, Bool.false_eq_true, if_false] at ih ⊢
        exact ih
    · by_cases hp : p a = true
      · simp only [hp, if_true, get, hk, if_false]; exact ih
      · simp only [hp, Bool.false_eq_true, if_false, get, hk]; exact ih

/-- Parts whose keys lie one behind the other stay canonical together. -/
theorem append_wfFrom {d : α} {mid : Nat} {n : Sparse α} (hn : wfFrom d mid n = true) :
    ∀ {lo : Nat} {m : Sparse α}, wfFrom d lo m = true → lo ≤ mid → (∀ c ∈ m, c.1 < mid) → wfFrom d lo (m ++ n) = true
  | lo, [], _, hl, _ => wfFrom_mono hl hn
  | lo, (a, v) :: rest, h, _, hb => by
    rw [wfFrom_cons] at h
    have ha : a < mid := hb (a, v) (by simp)
    rw [List.cons_append, wfFrom_cons]
    exact ⟨h.1, h.2.1, append_wfFrom hn h.2.2 (by omega) fun c hc => hb c (by simp [hc])⟩

omit [DecidableEq α] in
theorem get_append {d : α} {k : Nat} {n : Sparse α} : ∀ {m : Sparse α}, (∀ c ∈ m, c.1 ≠ k) → get d k (m ++ n) = get d k n
  | [], _ => rfl
  | (a, v) :: rest, h => by
    have : k ≠ a := fun e => h (a, v) (by simp) e.symm
    simp only [List.cons_append, get, this, if_false]
    exact get_append fun c hc => h c (by simp [hc])

omit [DecidableEq α] in
theorem get_append_left {d : α} {k : Nat} {n : Sparse α} (hn : get d k n = d) : ∀ (m : Sparse α), get d k (m ++ n) = get d k m
  | [] => hn
  | (a, v) :: rest => by
    simp only [List.cons_append, get]
    split
    · rfl
    · exact get_append_left hn rest

omit [DecidableEq α] in
theorem mem_keep {p : Nat → Bool} {m : Sparse α} {c : Nat × α} (h : c ∈ keep p m) : p c.1 = true := (List.mem_filter.1 h).2

/-- Keys at or above a bound may be taken to start there. -/
theorem wfFrom_of_ge {d : α} {lo b : Nat} : ∀ {m : Sparse α}, wfFrom d lo m = true → (∀ c ∈ m, b ≤ c.1) → wfFrom d b m = true
  | [], _, _ => rfl
  | (a, v) :: rest, h, hb => by
    rw [wfFrom_cons] at h ⊢
    exact ⟨hb (a, v) (by simp), h.2⟩

omit [DecidableEq α] in
theorem get_unlisted {d : α} {k : Nat} : ∀ {m : Sparse α}, (∀ c ∈ m, c.1 ≠ k) → get d k m = d
  | [], _ => rfl
  | (a, v) :: rest, h => by
    have : k ≠ a := fun e => h (a, v) (by simp) e.symm
    simp only [get, this, if_false]
    exact get_unlisted fun c hc => h c (by simp [hc])

theorem cell_wfFrom {d v : α} {k : Nat} : wfFrom d k (cell d k v) = true := by
  unfold cell
  split
  · rfl
  · rename_i hv; exact wfFrom_cons.2 ⟨Nat.le_refl _, hv, rfl⟩

theorem mem_cell {d v : α} {k : Nat} {c : Nat × α} (h : c ∈ cell d k v) : c.1 = k := by
  unfold cell at h
  split at h
  · simp at h
  · simp only [List.mem_singleton] at h; rw [h]

theorem get_cell {d v : α} {k : Nat} : get d k (cell d k v) = v := by
  unfold cell
  split
  · rename_i hv; simp [hv]
  · simp [get]

/-- A write keeps the canonical form. -/
theorem put_wf {d v : α} {k : Nat} {m : Sparse α} (h : wf d m = true) : wf d (put d k v m) = true := by
  unfold put wf at *
  have hi : wfFrom d (k + 1) (keep (fun a => decide (k < a)) m) = true :=
    wfFrom_of_ge (keep_wfFrom _ h) fun c hc => by simpa using mem_keep hc
  have mid : wfFrom d k (cell d k v ++ keep (fun a => decide (k < a)) m) = true :=
    append_wfFrom hi cell_wfFrom (by omega) fun c hc => by have := mem_cell hc; omega
  rw [List.append_assoc]
  exact append_wfFrom mid (keep_wfFrom _ h) (Nat.zero_le _) fun c hc => by simpa using mem_keep hc

/-- A written key reads as what was written. -/
@[simp] theorem get_put_self {d v : α} {k : Nat} {m : Sparse α} : get d k (put d k v m) = v := by
  unfold put
  rw [List.append_assoc, get_append fun c hc => ?_, get_append_left, get_cell]
  · rw [get_keep]; simp
  · have := mem_keep hc; simp at this; omega

/-- Every other key reads as before. -/
theorem get_put_ne {d v : α} {k j : Nat} (hj : j ≠ k) {m : Sparse α} : get d j (put d k v m) = get d j m := by
  unfold put
  rcases Nat.lt_or_gt_of_ne hj with h | h
  · rw [get_append_left (by rw [get_keep]; simp; omega), get_append_left (get_unlisted fun c hc => by have := mem_cell hc; omega),
      get_keep]
    simp [h]
  · rw [List.append_assoc, get_append fun c hc => by have := mem_keep hc; simp at this; omega,
      get_append fun c hc => by have := mem_cell hc; omega, get_keep]
    simp [h]

end Sparse

namespace Memory

open Sparse

@[simp] theorem read_nil (a : Nat) : Memory.read [] a = 0 := rfl

theorem mem_cellsOf : ∀ {bs : List Byte} {a : Nat} {c : Nat × Byte}, c ∈ cellsOf a bs → a ≤ c.1 ∧ c.1 < a + bs.length
  | [], _, _, h => by simp [cellsOf] at h
  | b :: bs, a, c, h => by
    have tail (h : c ∈ cellsOf (a + 1) bs) : a ≤ c.1 ∧ c.1 < a + (b :: bs).length := by
      have := mem_cellsOf h
      simp only [List.length_cons]; omega
    simp only [cellsOf] at h
    split at h
    · exact tail h
    · rcases List.mem_cons.1 h with rfl | h
      · simp
      · exact tail h

theorem cellsOf_wfFrom : ∀ (bs : List Byte) (a : Nat), wfFrom (0 : Byte) a (cellsOf a bs) = true
  | [], _ => rfl
  | b :: bs, a => by
    have ih := cellsOf_wfFrom bs (a + 1)
    simp only [cellsOf]
    split
    · exact wfFrom_mono (by omega) ih
    · rename_i hb; exact wfFrom_cons.2 ⟨Nat.le_refl _, hb, ih⟩

theorem get_cellsOf : ∀ (bs : List Byte) (a i : Nat), i < bs.length → get (0 : Byte) (a + i) (cellsOf a bs) = bs.getD i 0
  | [], _, _, h => by simp at h
  | b :: bs, a, i, h => by
    have out : get (0 : Byte) a (cellsOf (a + 1) bs) = 0 := get_below (cellsOf_wfFrom bs (a + 1)) (by omega)
    cases i with
    | zero =>
      simp only [cellsOf, Nat.add_zero, List.getD_cons_zero]
      split
      · rename_i hb; rw [out, hb]
      · simp [Sparse.get]
    | succ i =>
      have ih := get_cellsOf bs (a + 1) i (by simpa using h)
      have e : a + (i + 1) = a + 1 + i := by omega
      simp only [cellsOf, List.getD_cons_succ, e]
      split
      · exact ih
      · have : a + 1 + i ≠ a := by omega
        simp only [Sparse.get, this, if_false]; exact ih

/-- A write keeps the canonical form. -/
theorem writeBytes_wf {m : Memory} (h : m.wf = true) (a : Nat) (bs : List Byte) : (m.writeBytes a bs).wf = true := by
  unfold writeBytes
  unfold Memory.wf Sparse.wf at *
  have hi : wfFrom (0 : Byte) (a + bs.length) (keep (fun k => decide (a + bs.length ≤ k)) m) = true :=
    wfFrom_of_ge (keep_wfFrom _ h) fun c hc => by simpa using mem_keep hc
  have mid : wfFrom (0 : Byte) a (cellsOf a bs ++ keep (fun k => decide (a + bs.length ≤ k)) m) = true :=
    append_wfFrom hi (cellsOf_wfFrom bs a) (by omega) fun c hc => (mem_cellsOf hc).2
  rw [List.append_assoc]
  exact append_wfFrom mid (keep_wfFrom _ h) (Nat.zero_le _) fun c hc => by simpa using mem_keep hc

/-- A byte inside the stored range reads as what was stored. -/
theorem read_writeBytes {m : Memory} {a i : Nat} {bs : List Byte} (hi : i < bs.length) :
    (m.writeBytes a bs).read (a + i) = bs.getD i 0 := by
  unfold Memory.read writeBytes
  rw [List.append_assoc, get_append fun c hc => ?_, get_append_left, get_cellsOf bs a i hi]
  · rw [get_keep, if_neg]; simp; omega
  · have := mem_keep hc; simp at this; omega

/-- Every byte outside it reads as before. -/
theorem read_writeBytes_out {m : Memory} {a k : Nat} {bs : List Byte} (hk : k < a ∨ a + bs.length ≤ k) :
    (m.writeBytes a bs).read k = m.read k := by
  have c0 : get (0 : Byte) k (cellsOf a bs) = 0 := get_unlisted fun c hc e => by
    have := mem_cellsOf hc; omega
  have lo := get_keep (d := (0 : Byte)) (fun j => decide (j < a)) k m
  have hi := get_keep (d := (0 : Byte)) (fun j => decide (a + bs.length ≤ j)) k m
  unfold Memory.read writeBytes
  rw [List.append_assoc]
  rcases hk with hk | hk
  · have hn : ¬ a + bs.length ≤ k := by omega
    simp only [hk, decide_true, if_true] at lo
    simp only [hn, decide_false, Bool.false_eq_true, if_false] at hi
    rw [get_append_left, lo]
    rw [get_append_left hi, c0]
  · have hn : ¬ k < a := by omega
    simp only [hk, decide_true, if_true] at hi
    rw [get_append fun c hc => ?_, get_append fun c hc => ?_, hi]
    · have := mem_cellsOf hc; omega
    · have := mem_keep hc; simp at this; omega

theorem clear_wf {m : Memory} (h : m.wf = true) (a n : Nat) : (m.clear a n).wf = true := keep_wf _ h

/-- A cleared byte reads as zero, every other one as before. -/
theorem read_clear (m : Memory) (a n k : Nat) : (m.clear a n).read k = if k < a ∨ a + n ≤ k then m.read k else 0 := by
  unfold Memory.read clear
  rw [get_keep]; simp

theorem writeLE_wf {m : Memory} (h : m.wf = true) (a n v : Nat) : (m.writeLE a n v).wf = true := writeBytes_wf h _ _

@[simp] theorem leBytes_length : ∀ (n v : Nat), (leBytes n v).length = n
  | 0, _ => rfl
  | n + 1, v => by simp [leBytes, leBytes_length n]

theorem read_writeLE_out {m : Memory} {a n v k : Nat} (hk : k < a ∨ a + n ≤ k) : (m.writeLE a n v).read k = m.read k :=
  read_writeBytes_out (by simpa using hk)

end Memory

/-- The little-endian bytes of a value give it back. -/
theorem leVal_leBytes : ∀ (n v : Nat), leVal (leBytes n v) = v % 256 ^ n
  | 0, v => by simp [leBytes, leVal, Nat.mod_one]
  | n + 1, v => by
    have e : (256 : Nat) ^ (n + 1) = 256 * 256 ^ n := by rw [Nat.pow_succ]; omega
    simp only [leBytes, leVal, leVal_leBytes n, BitVec.toNat_ofNat, e, Nat.mod_mul]

namespace Memory

theorem readBytes_length (m : Memory) : ∀ (a n : Nat), (m.readBytes a n).length = n
  | _, 0 => rfl
  | a, n + 1 => by simp [readBytes, readBytes_length m (a + 1) n]

/-- A range with the bytes of a list reads as that list. -/
theorem readBytes_eq {m : Memory} : ∀ {a : Nat} {bs : List Byte}, (∀ i, i < bs.length → m.read (a + i) = bs.getD i 0) →
    m.readBytes a bs.length = bs
  | _, [], _ => rfl
  | a, b :: bs, h => by
    have h0 : m.read a = b := by simpa using h 0 (by simp)
    have ih : m.readBytes (a + 1) bs.length = bs := readBytes_eq fun i hi => by
      have := h (i + 1) (by simpa using hi)
      simpa [Nat.add_assoc, Nat.add_comm 1] using this
    simp [readBytes, h0, ih]

/-- What was stored is read back. -/
theorem readBytes_writeBytes (m : Memory) (a : Nat) (bs : List Byte) : (m.writeBytes a bs).readBytes a bs.length = bs :=
  readBytes_eq fun _ hi => read_writeBytes hi

theorem readLE_writeLE (m : Memory) (a n v : Nat) : (m.writeLE a n v).readLE a n = v % 256 ^ n := by
  have h := readBytes_writeBytes m a (leBytes n v)
  rw [leBytes_length] at h
  rw [readLE, writeLE, h, leVal_leBytes]

/-- A range read as before where every byte does. -/
theorem readBytes_congr {m m' : Memory} : ∀ {a n : Nat}, (∀ i, i < n → m.read (a + i) = m'.read (a + i)) →
    m.readBytes a n = m'.readBytes a n
  | _, 0, _ => rfl
  | a, n + 1, h => by
    have h0 : m.read a = m'.read a := by simpa using h 0 (by omega)
    have ih : m.readBytes (a + 1) n = m'.readBytes (a + 1) n := readBytes_congr fun i hi => by
      have := h (i + 1) (by omega)
      simpa [Nat.add_assoc, Nat.add_comm 1] using this
    simp [readBytes, h0, ih]

theorem readLE_writeBytes_out {m : Memory} {a k n : Nat} {bs : List Byte} (h : k + n ≤ a ∨ a + bs.length ≤ k) :
    (m.writeBytes a bs).readLE k n = m.readLE k n := by
  unfold readLE
  rw [readBytes_congr fun i hi => read_writeBytes_out (by omega)]

theorem renamed_wf (f : Nat → Nat) (m : Memory) : Memory.wf (Device.renamed f m) = true := by
  unfold Device.renamed
  have : ∀ (l : Memory) (z : Memory), Memory.wf z = true → Memory.wf (l.foldl (fun z c => Sparse.put 0 (f c.1) c.2 z) z) = true := by
    intro l
    induction l with
    | nil => exact fun _ h => h
    | cons c l ih => exact fun z h => ih _ (Sparse.put_wf h)
  exact this m [] rfl

/-- An overlay keeps the canonical form. -/
theorem overlay_wf (p : Nat → Bool) (new : Memory) {old : Memory} (h : old.wf = true) :
    Memory.wf (Sparse.overlay 0 p new old) = true := by
  have : ∀ (l z : Memory), Memory.wf z = true → Memory.wf (l.foldr (fun c z => Sparse.put 0 c.1 c.2 z) z) = true := by
    intro l
    induction l with
    | nil => exact fun _ h => h
    | cons c l ih => exact fun z h => Sparse.put_wf (ih z h)
  exact this _ _ (Sparse.keep_wf _ h)

/-- What an overlay reads as: the new data where the predicate holds, the old elsewhere. -/
theorem read_overlay (p : Nat → Bool) (new old : Memory) (k : Nat) :
    Memory.read (Sparse.overlay 0 p new old) k = if p k then new.read k else old.read k := by
  have puts : ∀ (l z : Memory), Sparse.get 0 k (l.foldr (fun c z => Sparse.put 0 c.1 c.2 z) z)
      = if l.any (fun c => c.1 == k) then Sparse.get 0 k l else Sparse.get 0 k z := by
    intro l z
    induction l with
    | nil => simp
    | cons c l ih =>
      obtain ⟨a, v⟩ := c
      by_cases h : k = a
      · subst h; simp [Sparse.get]
      · simp only [List.foldr_cons, Sparse.get_put_ne h, ih, List.any_cons, Sparse.get, if_neg h]
        simp [Ne.symm h]
  have hit : ∀ l : Memory, l.any (fun c => c.1 == k) = false → Sparse.get (0 : Byte) k l = 0 := by
    intro l hl
    refine Sparse.get_unlisted fun c hc => ?_
    have := List.any_eq_false.1 hl c hc
    simpa using this
  unfold Memory.read Sparse.overlay
  rw [puts]
  by_cases hp : p k = true
  · split
    · rw [Sparse.get_keep, if_pos hp]
    · rename_i hn
      have h0 := hit _ (Bool.eq_false_iff.2 hn)
      rw [Sparse.get_keep, if_pos hp] at h0
      rw [Sparse.get_keep, h0]
      simp [hp]
  · rw [if_neg hp, if_neg (by
      intro ha
      obtain ⟨c, hc, e⟩ := List.any_eq_true.1 ha
      have := Sparse.mem_keep hc
      rw [show c.1 = k by simpa using e] at this
      exact hp this), Sparse.get_keep]
    simp [hp]

/-- Far memory after a write, not interleaved: a place that no decoder covers keeps its byte (R255). -/
theorem read_setMemory_far {s : Device} (h : s.mem.ilv = false) (m : Memory) (k : Nat) :
    (s.setMemory .far m).mem.far.read k = if s.farCovered k then m.read k else s.mem.far.read k := by
  simp only [Device.setMemory, h]
  exact read_overlay _ _ _ _

end Memory

end Sys2Proof.Machine
end

