-- ==== Sys2Proof/Laws/Access.lean ====
section
/-! SUPPORT. What the shared operations of memory accesses and ports can do, said once. -/

namespace Sys2Proof.Machine.Device

/-- A unit whose addresses can all be accessed does its work. -/
theorem accessing_good {s : Device} {unit : W16} {xs : List (Space × Nat × Nat)} (f : Device → Device) (h : s.bad xs = none) :
    s.accessing unit xs f = f s := by simp [accessing, h]

/-- A unit does its work, or its access fails and it does nothing else. -/
theorem accessing_cases (s : Device) (unit : W16) (xs : List (Space × Nat × Nat)) (f : Device → Device) :
    s.bad xs = none ∧ s.accessing unit xs f = f s ∨
      ∃ far a, s.bad xs = some (far, a) ∧ s.accessing unit xs f = s.failAccess far a unit 2 := by
  cases h : s.bad xs with
  | none => exact .inl ⟨rfl, accessing_good f h⟩
  | some x => exact .inr ⟨x.1, x.2, rfl, by simp [accessing, h]⟩

/-- A port that is written reads as written, and every other port reads as before. -/
@[simp] theorem port_setPort_self (s : Device) (p : Nat) (x : PortSt) : (s.setPort p x).port p = x := Sparse.get_put_self
theorem port_setPort_ne (s : Device) {p q : Nat} (x : PortSt) (h : q ≠ p) : (s.setPort p x).port q = s.port q := Sparse.get_put_ne h

end Sys2Proof.Machine.Device
end

