-- ==== Sys2Proof/Laws/State.lean ====
section
/-! SUPPORT. What each named update of the state does to each field: one lemma per field per update. -/

namespace Sys2Proof.Machine

/-! ## Four of a kind -/

@[simp] theorem Quad.get_set_self {α : Type} (q : Quad α) (i : Fin 4) (x : α) : (q.set i x).get i = x := by
  match i with
  | 0 | 1 | 2 | 3 => rfl

theorem Quad.get_set_ne {α : Type} (q : Quad α) {i j : Fin 4} (x : α) (h : j ≠ i) : (q.set i x).get j = q.get j := by
  match i, j with
  | 0, 0 | 1, 1 | 2, 2 | 3, 3 => exact absurd rfl h
  | 0, 1 | 0, 2 | 0, 3 | 1, 0 | 1, 2 | 1, 3 | 2, 0 | 2, 1 | 2, 3 | 3, 0 | 3, 1 | 3, 2 => rfl

@[simp] theorem Quad.get_all {α : Type} (x : α) (i : Fin 4) : (Quad.all x).get i = x := by
  match i with
  | 0 | 1 | 2 | 3 => rfl

@[simp] theorem Quad.get_map {α β : Type} (f : α → β) (q : Quad α) (i : Fin 4) : (q.map f).get i = f (q.get i) := by
  match i with
  | 0 | 1 | 2 | 3 => rfl

namespace Device

@[simp] theorem die_setDie_self (s : Device) (d : Die) (x : DieState) : (s.setDie d x).die d = x := Quad.get_set_self _ _ _
theorem die_setDie_ne (s : Device) {d e : Die} (x : DieState) (h : e ≠ d) : (s.setDie d x).die e = s.die e := Quad.get_set_ne _ _ h
@[simp] theorem die_onDie_self (s : Device) (d : Die) (f : DieState → DieState) : (s.onDie d f).die d = f (s.die d) :=
  Quad.get_set_self _ _ _
theorem die_onDie_ne (s : Device) {d e : Die} (f : DieState → DieState) (h : e ≠ d) : (s.onDie d f).die e = s.die e :=
  Quad.get_set_ne _ _ h

/-! ## setFld -/

@[simp] theorem setFld_regs (s : Device) (f : Fld) (x : Nat) : (setFld s f x).regs = s.regs.setFld f x := rfl
@[simp] theorem setFld_err (s : Device) (f : Fld) (x : Nat) : (setFld s f x).err = s.err := rfl
@[simp] theorem setFld_frm (s : Device) (f : Fld) (x : Nat) : (setFld s f x).frm = s.frm := rfl
@[simp] theorem setFld_cmd (s : Device) (f : Fld) (x : Nat) : (setFld s f x).cmd = s.cmd := rfl
@[simp] theorem setFld_dies (s : Device) (f : Fld) (x : Nat) : (setFld s f x).dies = s.dies := rfl
@[simp] theorem setFld_mem (s : Device) (f : Fld) (x : Nat) : (setFld s f x).mem = s.mem := rfl
@[simp] theorem setFld_fab (s : Device) (f : Fld) (x : Nat) : (setFld s f x).fab = s.fab := rfl
@[simp] theorem setFld_pwr (s : Device) (f : Fld) (x : Nat) : (setFld s f x).pwr = s.pwr := rfl
@[simp] theorem setFld_lining (s : Device) (f : Fld) (x : Nat) : (setFld s f x).lining = s.lining := rfl
@[simp] theorem setFld_inReset (s : Device) (f : Fld) (x : Nat) : (setFld s f x).inReset = s.inReset := rfl
@[simp] theorem setFld_holdover (s : Device) (f : Fld) (x : Nat) : (setFld s f x).holdover = s.holdover := rfl
@[simp] theorem setFld_cause (s : Device) (f : Fld) (x : Nat) : (setFld s f x).cause = s.cause := rfl
@[simp] theorem setFld_hostMem (s : Device) (f : Fld) (x : Nat) : (setFld s f x).hostMem = s.hostMem := rfl
@[simp] theorem setFld_clockUs (s : Device) (f : Fld) (x : Nat) : (setFld s f x).clockUs = s.clockUs := rfl
@[simp] theorem setFld_freeCnt (s : Device) (f : Fld) (x : Nat) : (setFld s f x).freeCnt = s.freeCnt := rfl
@[simp] theorem setFld_detLatched (s : Device) (f : Fld) (x : Nat) : (setFld s f x).detLatched = s.detLatched := rfl
@[simp] theorem setFld_procs (s : Device) (f : Fld) (x : Nat) : (setFld s f x).procs = s.procs := rfl
@[simp] theorem setFld_restarts (s : Device) (f : Fld) (x : Nat) : (setFld s f x).restarts = s.restarts := rfl
@[simp] theorem setFld_lastProc (s : Device) (f : Fld) (x : Nat) : (setFld s f x).lastProc = s.lastProc := rfl
@[simp] theorem setFld_booting (s : Device) (f : Fld) (x : Nat) : (setFld s f x).booting = s.booting := rfl
@[simp] theorem setFld_images (s : Device) (f : Fld) (x : Nat) : (setFld s f x).images = s.images := rfl
@[simp] theorem setFld_running (s : Device) (f : Fld) (x : Nat) : (setFld s f x).running = s.running := rfl
@[simp] theorem setFld_store (s : Device) (f : Fld) (x : Nat) : (setFld s f x).store = s.store := rfl
@[simp] theorem setFld_keys (s : Device) (f : Fld) (x : Nat) : (setFld s f x).keys = s.keys := rfl
@[simp] theorem setFld_fellBack (s : Device) (f : Fld) (x : Nat) : (setFld s f x).fellBack = s.fellBack := rfl
@[simp] theorem setFld_calUse (s : Device) (f : Fld) (x : Nat) : (setFld s f x).calUse = s.calUse := rfl
@[simp] theorem setFld_nonce (s : Device) (f : Fld) (x : Nat) : (setFld s f x).nonce = s.nonce := rfl
@[simp] theorem setFld_testLoaded (s : Device) (f : Fld) (x : Nat) : (setFld s f x).testLoaded = s.testLoaded := rfl
@[simp] theorem setFld_i3c (s : Device) (f : Fld) (x : Nat) : (setFld s f x).i3c = s.i3c := rfl
@[simp] theorem setFld_blocks (s : Device) (f : Fld) (x : Nat) : (setFld s f x).blocks = s.blocks := rfl

/-! ## event -/

@[simp] theorem event_regs (s : Device) (f : Fld) : (event s f).regs = s.regs.event f := rfl
@[simp] theorem event_err (s : Device) (f : Fld) : (event s f).err = s.err := rfl
@[simp] theorem event_frm (s : Device) (f : Fld) : (event s f).frm = s.frm := rfl
@[simp] theorem event_cmd (s : Device) (f : Fld) : (event s f).cmd = s.cmd := rfl
@[simp] theorem event_dies (s : Device) (f : Fld) : (event s f).dies = s.dies := rfl
@[simp] theorem event_mem (s : Device) (f : Fld) : (event s f).mem = s.mem := rfl
@[simp] theorem event_fab (s : Device) (f : Fld) : (event s f).fab = s.fab := rfl
@[simp] theorem event_pwr (s : Device) (f : Fld) : (event s f).pwr = s.pwr := rfl
@[simp] theorem event_lining (s : Device) (f : Fld) : (event s f).lining = s.lining := rfl
@[simp] theorem event_inReset (s : Device) (f : Fld) : (event s f).inReset = s.inReset := rfl
@[simp] theorem event_holdover (s : Device) (f : Fld) : (event s f).holdover = s.holdover := rfl
@[simp] theorem event_cause (s : Device) (f : Fld) : (event s f).cause = s.cause := rfl
@[simp] theorem event_hostMem (s : Device) (f : Fld) : (event s f).hostMem = s.hostMem := rfl
@[simp] theorem event_clockUs (s : Device) (f : Fld) : (event s f).clockUs = s.clockUs := rfl
@[simp] theorem event_freeCnt (s : Device) (f : Fld) : (event s f).freeCnt = s.freeCnt := rfl
@[simp] theorem event_detLatched (s : Device) (f : Fld) : (event s f).detLatched = s.detLatched := rfl
@[simp] theorem event_procs (s : Device) (f : Fld) : (event s f).procs = s.procs := rfl
@[simp] theorem event_restarts (s : Device) (f : Fld) : (event s f).restarts = s.restarts := rfl
@[simp] theorem event_lastProc (s : Device) (f : Fld) : (event s f).lastProc = s.lastProc := rfl
@[simp] theorem event_booting (s : Device) (f : Fld) : (event s f).booting = s.booting := rfl
@[simp] theorem event_images (s : Device) (f : Fld) : (event s f).images = s.images := rfl
@[simp] theorem event_running (s : Device) (f : Fld) : (event s f).running = s.running := rfl
@[simp] theorem event_store (s : Device) (f : Fld) : (event s f).store = s.store := rfl
@[simp] theorem event_keys (s : Device) (f : Fld) : (event s f).keys = s.keys := rfl
@[simp] theorem event_fellBack (s : Device) (f : Fld) : (event s f).fellBack = s.fellBack := rfl
@[simp] theorem event_calUse (s : Device) (f : Fld) : (event s f).calUse = s.calUse := rfl
@[simp] theorem event_nonce (s : Device) (f : Fld) : (event s f).nonce = s.nonce := rfl
@[simp] theorem event_testLoaded (s : Device) (f : Fld) : (event s f).testLoaded = s.testLoaded := rfl
@[simp] theorem event_i3c (s : Device) (f : Fld) : (event s f).i3c = s.i3c := rfl
@[simp] theorem event_blocks (s : Device) (f : Fld) : (event s f).blocks = s.blocks := rfl

/-! ## eventCount -/

@[simp] theorem eventCount_regs (s : Device) (f : Fld) : (eventCount s f).regs = s.regs.eventCount f := rfl
@[simp] theorem eventCount_err (s : Device) (f : Fld) : (eventCount s f).err = s.err := rfl
@[simp] theorem eventCount_frm (s : Device) (f : Fld) : (eventCount s f).frm = s.frm := rfl
@[simp] theorem eventCount_cmd (s : Device) (f : Fld) : (eventCount s f).cmd = s.cmd := rfl
@[simp] theorem eventCount_dies (s : Device) (f : Fld) : (eventCount s f).dies = s.dies := rfl
@[simp] theorem eventCount_mem (s : Device) (f : Fld) : (eventCount s f).mem = s.mem := rfl
@[simp] theorem eventCount_fab (s : Device) (f : Fld) : (eventCount s f).fab = s.fab := rfl
@[simp] theorem eventCount_pwr (s : Device) (f : Fld) : (eventCount s f).pwr = s.pwr := rfl
@[simp] theorem eventCount_lining (s : Device) (f : Fld) : (eventCount s f).lining = s.lining := rfl
@[simp] theorem eventCount_inReset (s : Device) (f : Fld) : (eventCount s f).inReset = s.inReset := rfl
@[simp] theorem eventCount_holdover (s : Device) (f : Fld) : (eventCount s f).holdover = s.holdover := rfl
@[simp] theorem eventCount_cause (s : Device) (f : Fld) : (eventCount s f).cause = s.cause := rfl
@[simp] theorem eventCount_hostMem (s : Device) (f : Fld) : (eventCount s f).hostMem = s.hostMem := rfl
@[simp] theorem eventCount_clockUs (s : Device) (f : Fld) : (eventCount s f).clockUs = s.clockUs := rfl
@[simp] theorem eventCount_freeCnt (s : Device) (f : Fld) : (eventCount s f).freeCnt = s.freeCnt := rfl
@[simp] theorem eventCount_detLatched (s : Device) (f : Fld) : (eventCount s f).detLatched = s.detLatched := rfl
@[simp] theorem eventCount_procs (s : Device) (f : Fld) : (eventCount s f).procs = s.procs := rfl
@[simp] theorem eventCount_restarts (s : Device) (f : Fld) : (eventCount s f).restarts = s.restarts := rfl
@[simp] theorem eventCount_lastProc (s : Device) (f : Fld) : (eventCount s f).lastProc = s.lastProc := rfl
@[simp] theorem eventCount_booting (s : Device) (f : Fld) : (eventCount s f).booting = s.booting := rfl
@[simp] theorem eventCount_images (s : Device) (f : Fld) : (eventCount s f).images = s.images := rfl
@[simp] theorem eventCount_running (s : Device) (f : Fld) : (eventCount s f).running = s.running := rfl
@[simp] theorem eventCount_store (s : Device) (f : Fld) : (eventCount s f).store = s.store := rfl
@[simp] theorem eventCount_keys (s : Device) (f : Fld) : (eventCount s f).keys = s.keys := rfl
@[simp] theorem eventCount_fellBack (s : Device) (f : Fld) : (eventCount s f).fellBack = s.fellBack := rfl
@[simp] theorem eventCount_calUse (s : Device) (f : Fld) : (eventCount s f).calUse = s.calUse := rfl
@[simp] theorem eventCount_nonce (s : Device) (f : Fld) : (eventCount s f).nonce = s.nonce := rfl
@[simp] theorem eventCount_testLoaded (s : Device) (f : Fld) : (eventCount s f).testLoaded = s.testLoaded := rfl
@[simp] theorem eventCount_i3c (s : Device) (f : Fld) : (eventCount s f).i3c = s.i3c := rfl
@[simp] theorem eventCount_blocks (s : Device) (f : Fld) : (eventCount s f).blocks = s.blocks := rfl

/-! ## count -/

@[simp] theorem count_regs (s : Device) (f : Fld) (n : Nat) : (count s f n).regs = s.regs.count f n := rfl
@[simp] theorem count_err (s : Device) (f : Fld) (n : Nat) : (count s f n).err = s.err := rfl
@[simp] theorem count_frm (s : Device) (f : Fld) (n : Nat) : (count s f n).frm = s.frm := rfl
@[simp] theorem count_cmd (s : Device) (f : Fld) (n : Nat) : (count s f n).cmd = s.cmd := rfl
@[simp] theorem count_dies (s : Device) (f : Fld) (n : Nat) : (count s f n).dies = s.dies := rfl
@[simp] theorem count_mem (s : Device) (f : Fld) (n : Nat) : (count s f n).mem = s.mem := rfl
@[simp] theorem count_fab (s : Device) (f : Fld) (n : Nat) : (count s f n).fab = s.fab := rfl
@[simp] theorem count_pwr (s : Device) (f : Fld) (n : Nat) : (count s f n).pwr = s.pwr := rfl
@[simp] theorem count_lining (s : Device) (f : Fld) (n : Nat) : (count s f n).lining = s.lining := rfl
@[simp] theorem count_inReset (s : Device) (f : Fld) (n : Nat) : (count s f n).inReset = s.inReset := rfl
@[simp] theorem count_holdover (s : Device) (f : Fld) (n : Nat) : (count s f n).holdover = s.holdover := rfl
@[simp] theorem count_cause (s : Device) (f : Fld) (n : Nat) : (count s f n).cause = s.cause := rfl
@[simp] theorem count_hostMem (s : Device) (f : Fld) (n : Nat) : (count s f n).hostMem = s.hostMem := rfl
@[simp] theorem count_clockUs (s : Device) (f : Fld) (n : Nat) : (count s f n).clockUs = s.clockUs := rfl
@[simp] theorem count_freeCnt (s : Device) (f : Fld) (n : Nat) : (count s f n).freeCnt = s.freeCnt := rfl
@[simp] theorem count_detLatched (s : Device) (f : Fld) (n : Nat) : (count s f n).detLatched = s.detLatched := rfl
@[simp] theorem count_procs (s : Device) (f : Fld) (n : Nat) : (count s f n).procs = s.procs := rfl
@[simp] theorem count_restarts (s : Device) (f : Fld) (n : Nat) : (count s f n).restarts = s.restarts := rfl
@[simp] theorem count_lastProc (s : Device) (f : Fld) (n : Nat) : (count s f n).lastProc = s.lastProc := rfl
@[simp] theorem count_booting (s : Device) (f : Fld) (n : Nat) : (count s f n).booting = s.booting := rfl
@[simp] theorem count_images (s : Device) (f : Fld) (n : Nat) : (count s f n).images = s.images := rfl
@[simp] theorem count_running (s : Device) (f : Fld) (n : Nat) : (count s f n).running = s.running := rfl
@[simp] theorem count_store (s : Device) (f : Fld) (n : Nat) : (count s f n).store = s.store := rfl
@[simp] theorem count_keys (s : Device) (f : Fld) (n : Nat) : (count s f n).keys = s.keys := rfl
@[simp] theorem count_fellBack (s : Device) (f : Fld) (n : Nat) : (count s f n).fellBack = s.fellBack := rfl
@[simp] theorem count_calUse (s : Device) (f : Fld) (n : Nat) : (count s f n).calUse = s.calUse := rfl
@[simp] theorem count_nonce (s : Device) (f : Fld) (n : Nat) : (count s f n).nonce = s.nonce := rfl
@[simp] theorem count_testLoaded (s : Device) (f : Fld) (n : Nat) : (count s f n).testLoaded = s.testLoaded := rfl
@[simp] theorem count_i3c (s : Device) (f : Fld) (n : Nat) : (count s f n).i3c = s.i3c := rfl
@[simp] theorem count_blocks (s : Device) (f : Fld) (n : Nat) : (count s f n).blocks = s.blocks := rfl

/-! ## setDie -/

@[simp] theorem setDie_regs (s : Device) (d : Die) (x : DieState) : (setDie s d x).regs = s.regs := rfl
@[simp] theorem setDie_err (s : Device) (d : Die) (x : DieState) : (setDie s d x).err = s.err := rfl
@[simp] theorem setDie_frm (s : Device) (d : Die) (x : DieState) : (setDie s d x).frm = s.frm := rfl
@[simp] theorem setDie_cmd (s : Device) (d : Die) (x : DieState) : (setDie s d x).cmd = s.cmd := rfl
@[simp] theorem setDie_dies (s : Device) (d : Die) (x : DieState) : (setDie s d x).dies = s.dies.set d x := rfl
@[simp] theorem setDie_mem (s : Device) (d : Die) (x : DieState) : (setDie s d x).mem = s.mem := rfl
@[simp] theorem setDie_fab (s : Device) (d : Die) (x : DieState) : (setDie s d x).fab = s.fab := rfl
@[simp] theorem setDie_pwr (s : Device) (d : Die) (x : DieState) : (setDie s d x).pwr = s.pwr := rfl
@[simp] theorem setDie_lining (s : Device) (d : Die) (x : DieState) : (setDie s d x).lining = s.lining := rfl
@[simp] theorem setDie_inReset (s : Device) (d : Die) (x : DieState) : (setDie s d x).inReset = s.inReset := rfl
@[simp] theorem setDie_holdover (s : Device) (d : Die) (x : DieState) : (setDie s d x).holdover = s.holdover := rfl
@[simp] theorem setDie_cause (s : Device) (d : Die) (x : DieState) : (setDie s d x).cause = s.cause := rfl
@[simp] theorem setDie_hostMem (s : Device) (d : Die) (x : DieState) : (setDie s d x).hostMem = s.hostMem := rfl
@[simp] theorem setDie_clockUs (s : Device) (d : Die) (x : DieState) : (setDie s d x).clockUs = s.clockUs := rfl
@[simp] theorem setDie_freeCnt (s : Device) (d : Die) (x : DieState) : (setDie s d x).freeCnt = s.freeCnt := rfl
@[simp] theorem setDie_detLatched (s : Device) (d : Die) (x : DieState) : (setDie s d x).detLatched = s.detLatched := rfl
@[simp] theorem setDie_procs (s : Device) (d : Die) (x : DieState) : (setDie s d x).procs = s.procs := rfl
@[simp] theorem setDie_restarts (s : Device) (d : Die) (x : DieState) : (setDie s d x).restarts = s.restarts := rfl
@[simp] theorem setDie_lastProc (s : Device) (d : Die) (x : DieState) : (setDie s d x).lastProc = s.lastProc := rfl
@[simp] theorem setDie_booting (s : Device) (d : Die) (x : DieState) : (setDie s d x).booting = s.booting := rfl
@[simp] theorem setDie_images (s : Device) (d : Die) (x : DieState) : (setDie s d x).images = s.images := rfl
@[simp] theorem setDie_running (s : Device) (d : Die) (x : DieState) : (setDie s d x).running = s.running := rfl
@[simp] theorem setDie_store (s : Device) (d : Die) (x : DieState) : (setDie s d x).store = s.store := rfl
@[simp] theorem setDie_keys (s : Device) (d : Die) (x : DieState) : (setDie s d x).keys = s.keys := rfl
@[simp] theorem setDie_fellBack (s : Device) (d : Die) (x : DieState) : (setDie s d x).fellBack = s.fellBack := rfl
@[simp] theorem setDie_calUse (s : Device) (d : Die) (x : DieState) : (setDie s d x).calUse = s.calUse := rfl
@[simp] theorem setDie_nonce (s : Device) (d : Die) (x : DieState) : (setDie s d x).nonce = s.nonce := rfl
@[simp] theorem setDie_testLoaded (s : Device) (d : Die) (x : DieState) : (setDie s d x).testLoaded = s.testLoaded := rfl
@[simp] theorem setDie_i3c (s : Device) (d : Die) (x : DieState) : (setDie s d x).i3c = s.i3c := rfl
@[simp] theorem setDie_blocks (s : Device) (d : Die) (x : DieState) : (setDie s d x).blocks = s.blocks := rfl

/-! ## onDie -/

@[simp] theorem onDie_regs (s : Device) (d : Die) (f : DieState → DieState) : (onDie s d f).regs = s.regs := rfl
@[simp] theorem onDie_err (s : Device) (d : Die) (f : DieState → DieState) : (onDie s d f).err = s.err := rfl
@[simp] theorem onDie_frm (s : Device) (d : Die) (f : DieState → DieState) : (onDie s d f).frm = s.frm := rfl
@[simp] theorem onDie_cmd (s : Device) (d : Die) (f : DieState → DieState) : (onDie s d f).cmd = s.cmd := rfl
@[simp] theorem onDie_dies (s : Device) (d : Die) (f : DieState → DieState) : (onDie s d f).dies = s.dies.set d (f (s.dies.get d)) := rfl
@[simp] theorem onDie_mem (s : Device) (d : Die) (f : DieState → DieState) : (onDie s d f).mem = s.mem := rfl
@[simp] theorem onDie_fab (s : Device) (d : Die) (f : DieState → DieState) : (onDie s d f).fab = s.fab := rfl
@[simp] theorem onDie_pwr (s : Device) (d : Die) (f : DieState → DieState) : (onDie s d f).pwr = s.pwr := rfl
@[simp] theorem onDie_lining (s : Device) (d : Die) (f : DieState → DieState) : (onDie s d f).lining = s.lining := rfl
@[simp] theorem onDie_inReset (s : Device) (d : Die) (f : DieState → DieState) : (onDie s d f).inReset = s.inReset := rfl
@[simp] theorem onDie_holdover (s : Device) (d : Die) (f : DieState → DieState) : (onDie s d f).holdover = s.holdover := rfl
@[simp] theorem onDie_cause (s : Device) (d : Die) (f : DieState → DieState) : (onDie s d f).cause = s.cause := rfl
@[simp] theorem onDie_hostMem (s : Device) (d : Die) (f : DieState → DieState) : (onDie s d f).hostMem = s.hostMem := rfl
@[simp] theorem onDie_clockUs (s : Device) (d : Die) (f : DieState → DieState) : (onDie s d f).clockUs = s.clockUs := rfl
@[simp] theorem onDie_freeCnt (s : Device) (d : Die) (f : DieState → DieState) : (onDie s d f).freeCnt = s.freeCnt := rfl
@[simp] theorem onDie_detLatched (s : Device) (d : Die) (f : DieState → DieState) : (onDie s d f).detLatched = s.detLatched := rfl
@[simp] theorem onDie_procs (s : Device) (d : Die) (f : DieState → DieState) : (onDie s d f).procs = s.procs := rfl
@[simp] theorem onDie_restarts (s : Device) (d : Die) (f : DieState → DieState) : (onDie s d f).restarts = s.restarts := rfl
@[simp] theorem onDie_lastProc (s : Device) (d : Die) (f : DieState → DieState) : (onDie s d f).lastProc = s.lastProc := rfl
@[simp] theorem onDie_booting (s : Device) (d : Die) (f : DieState → DieState) : (onDie s d f).booting = s.booting := rfl
@[simp] theorem onDie_images (s : Device) (d : Die) (f : DieState → DieState) : (onDie s d f).images = s.images := rfl
@[simp] theorem onDie_running (s : Device) (d : Die) (f : DieState → DieState) : (onDie s d f).running = s.running := rfl
@[simp] theorem onDie_store (s : Device) (d : Die) (f : DieState → DieState) : (onDie s d f).store = s.store := rfl
@[simp] theorem onDie_keys (s : Device) (d : Die) (f : DieState → DieState) : (onDie s d f).keys = s.keys := rfl
@[simp] theorem onDie_fellBack (s : Device) (d : Die) (f : DieState → DieState) : (onDie s d f).fellBack = s.fellBack := rfl
@[simp] theorem onDie_calUse (s : Device) (d : Die) (f : DieState → DieState) : (onDie s d f).calUse = s.calUse := rfl
@[simp] theorem onDie_nonce (s : Device) (d : Die) (f : DieState → DieState) : (onDie s d f).nonce = s.nonce := rfl
@[simp] theorem onDie_testLoaded (s : Device) (d : Die) (f : DieState → DieState) : (onDie s d f).testLoaded = s.testLoaded := rfl
@[simp] theorem onDie_i3c (s : Device) (d : Die) (f : DieState → DieState) : (onDie s d f).i3c = s.i3c := rfl
@[simp] theorem onDie_blocks (s : Device) (d : Die) (f : DieState → DieState) : (onDie s d f).blocks = s.blocks := rfl

/-! ## setHost -/

@[simp] theorem setHost_regs (s : Device) (a : Nat) (bs : List Byte) : (setHost s a bs).regs = s.regs := rfl
@[simp] theorem setHost_err (s : Device) (a : Nat) (bs : List Byte) : (setHost s a bs).err = s.err := rfl
@[simp] theorem setHost_frm (s : Device) (a : Nat) (bs : List Byte) : (setHost s a bs).frm = s.frm := rfl
@[simp] theorem setHost_cmd (s : Device) (a : Nat) (bs : List Byte) : (setHost s a bs).cmd = s.cmd := rfl
@[simp] theorem setHost_dies (s : Device) (a : Nat) (bs : List Byte) : (setHost s a bs).dies = s.dies := rfl
@[simp] theorem setHost_mem (s : Device) (a : Nat) (bs : List Byte) : (setHost s a bs).mem = s.mem := rfl
@[simp] theorem setHost_fab (s : Device) (a : Nat) (bs : List Byte) : (setHost s a bs).fab = s.fab := rfl
@[simp] theorem setHost_pwr (s : Device) (a : Nat) (bs : List Byte) : (setHost s a bs).pwr = s.pwr := rfl
@[simp] theorem setHost_lining (s : Device) (a : Nat) (bs : List Byte) : (setHost s a bs).lining = s.lining := rfl
@[simp] theorem setHost_inReset (s : Device) (a : Nat) (bs : List Byte) : (setHost s a bs).inReset = s.inReset := rfl
@[simp] theorem setHost_holdover (s : Device) (a : Nat) (bs : List Byte) : (setHost s a bs).holdover = s.holdover := rfl
@[simp] theorem setHost_cause (s : Device) (a : Nat) (bs : List Byte) : (setHost s a bs).cause = s.cause := rfl
@[simp] theorem setHost_hostMem (s : Device) (a : Nat) (bs : List Byte) : (setHost s a bs).hostMem = s.hostMem.writeBytes a bs := rfl
@[simp] theorem setHost_clockUs (s : Device) (a : Nat) (bs : List Byte) : (setHost s a bs).clockUs = s.clockUs := rfl
@[simp] theorem setHost_freeCnt (s : Device) (a : Nat) (bs : List Byte) : (setHost s a bs).freeCnt = s.freeCnt := rfl
@[simp] theorem setHost_detLatched (s : Device) (a : Nat) (bs : List Byte) : (setHost s a bs).detLatched = s.detLatched := rfl
@[simp] theorem setHost_procs (s : Device) (a : Nat) (bs : List Byte) : (setHost s a bs).procs = s.procs := rfl
@[simp] theorem setHost_restarts (s : Device) (a : Nat) (bs : List Byte) : (setHost s a bs).restarts = s.restarts := rfl
@[simp] theorem setHost_lastProc (s : Device) (a : Nat) (bs : List Byte) : (setHost s a bs).lastProc = s.lastProc := rfl
@[simp] theorem setHost_booting (s : Device) (a : Nat) (bs : List Byte) : (setHost s a bs).booting = s.booting := rfl
@[simp] theorem setHost_images (s : Device) (a : Nat) (bs : List Byte) : (setHost s a bs).images = s.images := rfl
@[simp] theorem setHost_running (s : Device) (a : Nat) (bs : List Byte) : (setHost s a bs).running = s.running := rfl
@[simp] theorem setHost_store (s : Device) (a : Nat) (bs : List Byte) : (setHost s a bs).store = s.store := rfl
@[simp] theorem setHost_keys (s : Device) (a : Nat) (bs : List Byte) : (setHost s a bs).keys = s.keys := rfl
@[simp] theorem setHost_fellBack (s : Device) (a : Nat) (bs : List Byte) : (setHost s a bs).fellBack = s.fellBack := rfl
@[simp] theorem setHost_calUse (s : Device) (a : Nat) (bs : List Byte) : (setHost s a bs).calUse = s.calUse := rfl
@[simp] theorem setHost_nonce (s : Device) (a : Nat) (bs : List Byte) : (setHost s a bs).nonce = s.nonce := rfl
@[simp] theorem setHost_testLoaded (s : Device) (a : Nat) (bs : List Byte) : (setHost s a bs).testLoaded = s.testLoaded := rfl
@[simp] theorem setHost_i3c (s : Device) (a : Nat) (bs : List Byte) : (setHost s a bs).i3c = s.i3c := rfl
@[simp] theorem setHost_blocks (s : Device) (a : Nat) (bs : List Byte) : (setHost s a bs).blocks = s.blocks := rfl

/-! ## setLining -/

@[simp] theorem setLining_regs (s : Device) (a : Nat) (bs : List Byte) : (setLining s a bs).regs = s.regs := rfl
@[simp] theorem setLining_err (s : Device) (a : Nat) (bs : List Byte) : (setLining s a bs).err = s.err := rfl
@[simp] theorem setLining_frm (s : Device) (a : Nat) (bs : List Byte) : (setLining s a bs).frm = s.frm := rfl
@[simp] theorem setLining_cmd (s : Device) (a : Nat) (bs : List Byte) : (setLining s a bs).cmd = s.cmd := rfl
@[simp] theorem setLining_dies (s : Device) (a : Nat) (bs : List Byte) : (setLining s a bs).dies = s.dies := rfl
@[simp] theorem setLining_mem (s : Device) (a : Nat) (bs : List Byte) : (setLining s a bs).mem = s.mem := rfl
@[simp] theorem setLining_fab (s : Device) (a : Nat) (bs : List Byte) : (setLining s a bs).fab = s.fab := rfl
@[simp] theorem setLining_pwr (s : Device) (a : Nat) (bs : List Byte) : (setLining s a bs).pwr = s.pwr := rfl
@[simp] theorem setLining_lining (s : Device) (a : Nat) (bs : List Byte) : (setLining s a bs).lining = s.lining.writeBytes a bs := rfl
@[simp] theorem setLining_inReset (s : Device) (a : Nat) (bs : List Byte) : (setLining s a bs).inReset = s.inReset := rfl
@[simp] theorem setLining_holdover (s : Device) (a : Nat) (bs : List Byte) : (setLining s a bs).holdover = s.holdover := rfl
@[simp] theorem setLining_cause (s : Device) (a : Nat) (bs : List Byte) : (setLining s a bs).cause = s.cause := rfl
@[simp] theorem setLining_hostMem (s : Device) (a : Nat) (bs : List Byte) : (setLining s a bs).hostMem = s.hostMem := rfl
@[simp] theorem setLining_clockUs (s : Device) (a : Nat) (bs : List Byte) : (setLining s a bs).clockUs = s.clockUs := rfl
@[simp] theorem setLining_freeCnt (s : Device) (a : Nat) (bs : List Byte) : (setLining s a bs).freeCnt = s.freeCnt := rfl
@[simp] theorem setLining_detLatched (s : Device) (a : Nat) (bs : List Byte) : (setLining s a bs).detLatched = s.detLatched := rfl
@[simp] theorem setLining_procs (s : Device) (a : Nat) (bs : List Byte) : (setLining s a bs).procs = s.procs := rfl
@[simp] theorem setLining_restarts (s : Device) (a : Nat) (bs : List Byte) : (setLining s a bs).restarts = s.restarts := rfl
@[simp] theorem setLining_lastProc (s : Device) (a : Nat) (bs : List Byte) : (setLining s a bs).lastProc = s.lastProc := rfl
@[simp] theorem setLining_booting (s : Device) (a : Nat) (bs : List Byte) : (setLining s a bs).booting = s.booting := rfl
@[simp] theorem setLining_images (s : Device) (a : Nat) (bs : List Byte) : (setLining s a bs).images = s.images := rfl
@[simp] theorem setLining_running (s : Device) (a : Nat) (bs : List Byte) : (setLining s a bs).running = s.running := rfl
@[simp] theorem setLining_store (s : Device) (a : Nat) (bs : List Byte) : (setLining s a bs).store = s.store := rfl
@[simp] theorem setLining_keys (s : Device) (a : Nat) (bs : List Byte) : (setLining s a bs).keys = s.keys := rfl
@[simp] theorem setLining_fellBack (s : Device) (a : Nat) (bs : List Byte) : (setLining s a bs).fellBack = s.fellBack := rfl
@[simp] theorem setLining_calUse (s : Device) (a : Nat) (bs : List Byte) : (setLining s a bs).calUse = s.calUse := rfl
@[simp] theorem setLining_nonce (s : Device) (a : Nat) (bs : List Byte) : (setLining s a bs).nonce = s.nonce := rfl
@[simp] theorem setLining_testLoaded (s : Device) (a : Nat) (bs : List Byte) : (setLining s a bs).testLoaded = s.testLoaded := rfl
@[simp] theorem setLining_i3c (s : Device) (a : Nat) (bs : List Byte) : (setLining s a bs).i3c = s.i3c := rfl
@[simp] theorem setLining_blocks (s : Device) (a : Nat) (bs : List Byte) : (setLining s a bs).blocks = s.blocks := rfl

/-! ## raise -/

@[simp] theorem raise_regs (s : Device) (v : Nat) : (raise s v).regs = s.regs := rfl
@[simp] theorem raise_err (s : Device) (v : Nat) : (raise s v).err = s.err := rfl
@[simp] theorem raise_frm (s : Device) (v : Nat) : (raise s v).frm = s.frm := rfl
@[simp] theorem raise_cmd (s : Device) (v : Nat) : (raise s v).cmd = { s.cmd with msix := Sparse.put 0 v (Sparse.get 0 v s.cmd.msix + 1) s.cmd.msix } := rfl
@[simp] theorem raise_dies (s : Device) (v : Nat) : (raise s v).dies = s.dies := rfl
@[simp] theorem raise_mem (s : Device) (v : Nat) : (raise s v).mem = s.mem := rfl
@[simp] theorem raise_fab (s : Device) (v : Nat) : (raise s v).fab = s.fab := rfl
@[simp] theorem raise_pwr (s : Device) (v : Nat) : (raise s v).pwr = s.pwr := rfl
@[simp] theorem raise_lining (s : Device) (v : Nat) : (raise s v).lining = s.lining := rfl
@[simp] theorem raise_inReset (s : Device) (v : Nat) : (raise s v).inReset = s.inReset := rfl
@[simp] theorem raise_holdover (s : Device) (v : Nat) : (raise s v).holdover = s.holdover := rfl
@[simp] theorem raise_cause (s : Device) (v : Nat) : (raise s v).cause = s.cause := rfl
@[simp] theorem raise_hostMem (s : Device) (v : Nat) : (raise s v).hostMem = s.hostMem := rfl
@[simp] theorem raise_clockUs (s : Device) (v : Nat) : (raise s v).clockUs = s.clockUs := rfl
@[simp] theorem raise_freeCnt (s : Device) (v : Nat) : (raise s v).freeCnt = s.freeCnt := rfl
@[simp] theorem raise_detLatched (s : Device) (v : Nat) : (raise s v).detLatched = s.detLatched := rfl
@[simp] theorem raise_procs (s : Device) (v : Nat) : (raise s v).procs = s.procs := rfl
@[simp] theorem raise_restarts (s : Device) (v : Nat) : (raise s v).restarts = s.restarts := rfl
@[simp] theorem raise_lastProc (s : Device) (v : Nat) : (raise s v).lastProc = s.lastProc := rfl
@[simp] theorem raise_booting (s : Device) (v : Nat) : (raise s v).booting = s.booting := rfl
@[simp] theorem raise_images (s : Device) (v : Nat) : (raise s v).images = s.images := rfl
@[simp] theorem raise_running (s : Device) (v : Nat) : (raise s v).running = s.running := rfl
@[simp] theorem raise_store (s : Device) (v : Nat) : (raise s v).store = s.store := rfl
@[simp] theorem raise_keys (s : Device) (v : Nat) : (raise s v).keys = s.keys := rfl
@[simp] theorem raise_fellBack (s : Device) (v : Nat) : (raise s v).fellBack = s.fellBack := rfl
@[simp] theorem raise_calUse (s : Device) (v : Nat) : (raise s v).calUse = s.calUse := rfl
@[simp] theorem raise_nonce (s : Device) (v : Nat) : (raise s v).nonce = s.nonce := rfl
@[simp] theorem raise_testLoaded (s : Device) (v : Nat) : (raise s v).testLoaded = s.testLoaded := rfl
@[simp] theorem raise_i3c (s : Device) (v : Nat) : (raise s v).i3c = s.i3c := rfl
@[simp] theorem raise_blocks (s : Device) (v : Nat) : (raise s v).blocks = s.blocks := rfl

/-! ## onJob -/

@[simp] theorem onJob_regs (s : Device) (f : Job → Job) : (onJob s f).regs = s.regs := rfl
@[simp] theorem onJob_err (s : Device) (f : Job → Job) : (onJob s f).err = s.err := rfl
@[simp] theorem onJob_frm (s : Device) (f : Job → Job) : (onJob s f).frm = s.frm := rfl
@[simp] theorem onJob_cmd (s : Device) (f : Job → Job) : (onJob s f).cmd = { s.cmd with job := s.cmd.job.map f } := rfl
@[simp] theorem onJob_dies (s : Device) (f : Job → Job) : (onJob s f).dies = s.dies := rfl
@[simp] theorem onJob_mem (s : Device) (f : Job → Job) : (onJob s f).mem = s.mem := rfl
@[simp] theorem onJob_fab (s : Device) (f : Job → Job) : (onJob s f).fab = s.fab := rfl
@[simp] theorem onJob_pwr (s : Device) (f : Job → Job) : (onJob s f).pwr = s.pwr := rfl
@[simp] theorem onJob_lining (s : Device) (f : Job → Job) : (onJob s f).lining = s.lining := rfl
@[simp] theorem onJob_inReset (s : Device) (f : Job → Job) : (onJob s f).inReset = s.inReset := rfl
@[simp] theorem onJob_holdover (s : Device) (f : Job → Job) : (onJob s f).holdover = s.holdover := rfl
@[simp] theorem onJob_cause (s : Device) (f : Job → Job) : (onJob s f).cause = s.cause := rfl
@[simp] theorem onJob_hostMem (s : Device) (f : Job → Job) : (onJob s f).hostMem = s.hostMem := rfl
@[simp] theorem onJob_clockUs (s : Device) (f : Job → Job) : (onJob s f).clockUs = s.clockUs := rfl
@[simp] theorem onJob_freeCnt (s : Device) (f : Job → Job) : (onJob s f).freeCnt = s.freeCnt := rfl
@[simp] theorem onJob_detLatched (s : Device) (f : Job → Job) : (onJob s f).detLatched = s.detLatched := rfl
@[simp] theorem onJob_procs (s : Device) (f : Job → Job) : (onJob s f).procs = s.procs := rfl
@[simp] theorem onJob_restarts (s : Device) (f : Job → Job) : (onJob s f).restarts = s.restarts := rfl
@[simp] theorem onJob_lastProc (s : Device) (f : Job → Job) : (onJob s f).lastProc = s.lastProc := rfl
@[simp] theorem onJob_booting (s : Device) (f : Job → Job) : (onJob s f).booting = s.booting := rfl
@[simp] theorem onJob_images (s : Device) (f : Job → Job) : (onJob s f).images = s.images := rfl
@[simp] theorem onJob_running (s : Device) (f : Job → Job) : (onJob s f).running = s.running := rfl
@[simp] theorem onJob_store (s : Device) (f : Job → Job) : (onJob s f).store = s.store := rfl
@[simp] theorem onJob_keys (s : Device) (f : Job → Job) : (onJob s f).keys = s.keys := rfl
@[simp] theorem onJob_fellBack (s : Device) (f : Job → Job) : (onJob s f).fellBack = s.fellBack := rfl
@[simp] theorem onJob_calUse (s : Device) (f : Job → Job) : (onJob s f).calUse = s.calUse := rfl
@[simp] theorem onJob_nonce (s : Device) (f : Job → Job) : (onJob s f).nonce = s.nonce := rfl
@[simp] theorem onJob_testLoaded (s : Device) (f : Job → Job) : (onJob s f).testLoaded = s.testLoaded := rfl
@[simp] theorem onJob_i3c (s : Device) (f : Job → Job) : (onJob s f).i3c = s.i3c := rfl
@[simp] theorem onJob_blocks (s : Device) (f : Job → Job) : (onJob s f).blocks = s.blocks := rfl

/-! ## onCmd -/

@[simp] theorem onCmd_regs (s : Device) (f : Command → Command) : (onCmd s f).regs = s.regs := rfl
@[simp] theorem onCmd_err (s : Device) (f : Command → Command) : (onCmd s f).err = s.err := rfl
@[simp] theorem onCmd_frm (s : Device) (f : Command → Command) : (onCmd s f).frm = s.frm := rfl
@[simp] theorem onCmd_cmd (s : Device) (f : Command → Command) : (onCmd s f).cmd = f s.cmd := rfl
@[simp] theorem onCmd_dies (s : Device) (f : Command → Command) : (onCmd s f).dies = s.dies := rfl
@[simp] theorem onCmd_mem (s : Device) (f : Command → Command) : (onCmd s f).mem = s.mem := rfl
@[simp] theorem onCmd_fab (s : Device) (f : Command → Command) : (onCmd s f).fab = s.fab := rfl
@[simp] theorem onCmd_pwr (s : Device) (f : Command → Command) : (onCmd s f).pwr = s.pwr := rfl
@[simp] theorem onCmd_lining (s : Device) (f : Command → Command) : (onCmd s f).lining = s.lining := rfl
@[simp] theorem onCmd_inReset (s : Device) (f : Command → Command) : (onCmd s f).inReset = s.inReset := rfl
@[simp] theorem onCmd_holdover (s : Device) (f : Command → Command) : (onCmd s f).holdover = s.holdover := rfl
@[simp] theorem onCmd_cause (s : Device) (f : Command → Command) : (onCmd s f).cause = s.cause := rfl
@[simp] theorem onCmd_hostMem (s : Device) (f : Command → Command) : (onCmd s f).hostMem = s.hostMem := rfl
@[simp] theorem onCmd_clockUs (s : Device) (f : Command → Command) : (onCmd s f).clockUs = s.clockUs := rfl
@[simp] theorem onCmd_freeCnt (s : Device) (f : Command → Command) : (onCmd s f).freeCnt = s.freeCnt := rfl
@[simp] theorem onCmd_detLatched (s : Device) (f : Command → Command) : (onCmd s f).detLatched = s.detLatched := rfl
@[simp] theorem onCmd_procs (s : Device) (f : Command → Command) : (onCmd s f).procs = s.procs := rfl
@[simp] theorem onCmd_restarts (s : Device) (f : Command → Command) : (onCmd s f).restarts = s.restarts := rfl
@[simp] theorem onCmd_lastProc (s : Device) (f : Command → Command) : (onCmd s f).lastProc = s.lastProc := rfl
@[simp] theorem onCmd_booting (s : Device) (f : Command → Command) : (onCmd s f).booting = s.booting := rfl
@[simp] theorem onCmd_images (s : Device) (f : Command → Command) : (onCmd s f).images = s.images := rfl
@[simp] theorem onCmd_running (s : Device) (f : Command → Command) : (onCmd s f).running = s.running := rfl
@[simp] theorem onCmd_store (s : Device) (f : Command → Command) : (onCmd s f).store = s.store := rfl
@[simp] theorem onCmd_keys (s : Device) (f : Command → Command) : (onCmd s f).keys = s.keys := rfl
@[simp] theorem onCmd_fellBack (s : Device) (f : Command → Command) : (onCmd s f).fellBack = s.fellBack := rfl
@[simp] theorem onCmd_calUse (s : Device) (f : Command → Command) : (onCmd s f).calUse = s.calUse := rfl
@[simp] theorem onCmd_nonce (s : Device) (f : Command → Command) : (onCmd s f).nonce = s.nonce := rfl
@[simp] theorem onCmd_testLoaded (s : Device) (f : Command → Command) : (onCmd s f).testLoaded = s.testLoaded := rfl
@[simp] theorem onCmd_i3c (s : Device) (f : Command → Command) : (onCmd s f).i3c = s.i3c := rfl
@[simp] theorem onCmd_blocks (s : Device) (f : Command → Command) : (onCmd s f).blocks = s.blocks := rfl

/-! ## onErr -/

@[simp] theorem onErr_regs (s : Device) (f : ErrQueue → ErrQueue) : (onErr s f).regs = s.regs := rfl
@[simp] theorem onErr_err (s : Device) (f : ErrQueue → ErrQueue) : (onErr s f).err = f s.err := rfl
@[simp] theorem onErr_frm (s : Device) (f : ErrQueue → ErrQueue) : (onErr s f).frm = s.frm := rfl
@[simp] theorem onErr_cmd (s : Device) (f : ErrQueue → ErrQueue) : (onErr s f).cmd = s.cmd := rfl
@[simp] theorem onErr_dies (s : Device) (f : ErrQueue → ErrQueue) : (onErr s f).dies = s.dies := rfl
@[simp] theorem onErr_mem (s : Device) (f : ErrQueue → ErrQueue) : (onErr s f).mem = s.mem := rfl
@[simp] theorem onErr_fab (s : Device) (f : ErrQueue → ErrQueue) : (onErr s f).fab = s.fab := rfl
@[simp] theorem onErr_pwr (s : Device) (f : ErrQueue → ErrQueue) : (onErr s f).pwr = s.pwr := rfl
@[simp] theorem onErr_lining (s : Device) (f : ErrQueue → ErrQueue) : (onErr s f).lining = s.lining := rfl
@[simp] theorem onErr_inReset (s : Device) (f : ErrQueue → ErrQueue) : (onErr s f).inReset = s.inReset := rfl
@[simp] theorem onErr_holdover (s : Device) (f : ErrQueue → ErrQueue) : (onErr s f).holdover = s.holdover := rfl
@[simp] theorem onErr_cause (s : Device) (f : ErrQueue → ErrQueue) : (onErr s f).cause = s.cause := rfl
@[simp] theorem onErr_hostMem (s : Device) (f : ErrQueue → ErrQueue) : (onErr s f).hostMem = s.hostMem := rfl
@[simp] theorem onErr_clockUs (s : Device) (f : ErrQueue → ErrQueue) : (onErr s f).clockUs = s.clockUs := rfl
@[simp] theorem onErr_freeCnt (s : Device) (f : ErrQueue → ErrQueue) : (onErr s f).freeCnt = s.freeCnt := rfl
@[simp] theorem onErr_detLatched (s : Device) (f : ErrQueue → ErrQueue) : (onErr s f).detLatched = s.detLatched := rfl
@[simp] theorem onErr_procs (s : Device) (f : ErrQueue → ErrQueue) : (onErr s f).procs = s.procs := rfl
@[simp] theorem onErr_restarts (s : Device) (f : ErrQueue → ErrQueue) : (onErr s f).restarts = s.restarts := rfl
@[simp] theorem onErr_lastProc (s : Device) (f : ErrQueue → ErrQueue) : (onErr s f).lastProc = s.lastProc := rfl
@[simp] theorem onErr_booting (s : Device) (f : ErrQueue → ErrQueue) : (onErr s f).booting = s.booting := rfl
@[simp] theorem onErr_images (s : Device) (f : ErrQueue → ErrQueue) : (onErr s f).images = s.images := rfl
@[simp] theorem onErr_running (s : Device) (f : ErrQueue → ErrQueue) : (onErr s f).running = s.running := rfl
@[simp] theorem onErr_store (s : Device) (f : ErrQueue → ErrQueue) : (onErr s f).store = s.store := rfl
@[simp] theorem onErr_keys (s : Device) (f : ErrQueue → ErrQueue) : (onErr s f).keys = s.keys := rfl
@[simp] theorem onErr_fellBack (s : Device) (f : ErrQueue → ErrQueue) : (onErr s f).fellBack = s.fellBack := rfl
@[simp] theorem onErr_calUse (s : Device) (f : ErrQueue → ErrQueue) : (onErr s f).calUse = s.calUse := rfl
@[simp] theorem onErr_nonce (s : Device) (f : ErrQueue → ErrQueue) : (onErr s f).nonce = s.nonce := rfl
@[simp] theorem onErr_testLoaded (s : Device) (f : ErrQueue → ErrQueue) : (onErr s f).testLoaded = s.testLoaded := rfl
@[simp] theorem onErr_i3c (s : Device) (f : ErrQueue → ErrQueue) : (onErr s f).i3c = s.i3c := rfl
@[simp] theorem onErr_blocks (s : Device) (f : ErrQueue → ErrQueue) : (onErr s f).blocks = s.blocks := rfl

/-! ## onFab -/

@[simp] theorem onFab_regs (s : Device) (f : Fabric → Fabric) : (onFab s f).regs = s.regs := rfl
@[simp] theorem onFab_err (s : Device) (f : Fabric → Fabric) : (onFab s f).err = s.err := rfl
@[simp] theorem onFab_frm (s : Device) (f : Fabric → Fabric) : (onFab s f).frm = s.frm := rfl
@[simp] theorem onFab_cmd (s : Device) (f : Fabric → Fabric) : (onFab s f).cmd = s.cmd := rfl
@[simp] theorem onFab_dies (s : Device) (f : Fabric → Fabric) : (onFab s f).dies = s.dies := rfl
@[simp] theorem onFab_mem (s : Device) (f : Fabric → Fabric) : (onFab s f).mem = s.mem := rfl
@[simp] theorem onFab_fab (s : Device) (f : Fabric → Fabric) : (onFab s f).fab = f s.fab := rfl
@[simp] theorem onFab_pwr (s : Device) (f : Fabric → Fabric) : (onFab s f).pwr = s.pwr := rfl
@[simp] theorem onFab_lining (s : Device) (f : Fabric → Fabric) : (onFab s f).lining = s.lining := rfl
@[simp] theorem onFab_inReset (s : Device) (f : Fabric → Fabric) : (onFab s f).inReset = s.inReset := rfl
@[simp] theorem onFab_holdover (s : Device) (f : Fabric → Fabric) : (onFab s f).holdover = s.holdover := rfl
@[simp] theorem onFab_cause (s : Device) (f : Fabric → Fabric) : (onFab s f).cause = s.cause := rfl
@[simp] theorem onFab_hostMem (s : Device) (f : Fabric → Fabric) : (onFab s f).hostMem = s.hostMem := rfl
@[simp] theorem onFab_clockUs (s : Device) (f : Fabric → Fabric) : (onFab s f).clockUs = s.clockUs := rfl
@[simp] theorem onFab_freeCnt (s : Device) (f : Fabric → Fabric) : (onFab s f).freeCnt = s.freeCnt := rfl
@[simp] theorem onFab_detLatched (s : Device) (f : Fabric → Fabric) : (onFab s f).detLatched = s.detLatched := rfl
@[simp] theorem onFab_procs (s : Device) (f : Fabric → Fabric) : (onFab s f).procs = s.procs := rfl
@[simp] theorem onFab_restarts (s : Device) (f : Fabric → Fabric) : (onFab s f).restarts = s.restarts := rfl
@[simp] theorem onFab_lastProc (s : Device) (f : Fabric → Fabric) : (onFab s f).lastProc = s.lastProc := rfl
@[simp] theorem onFab_booting (s : Device) (f : Fabric → Fabric) : (onFab s f).booting = s.booting := rfl
@[simp] theorem onFab_images (s : Device) (f : Fabric → Fabric) : (onFab s f).images = s.images := rfl
@[simp] theorem onFab_running (s : Device) (f : Fabric → Fabric) : (onFab s f).running = s.running := rfl
@[simp] theorem onFab_store (s : Device) (f : Fabric → Fabric) : (onFab s f).store = s.store := rfl
@[simp] theorem onFab_keys (s : Device) (f : Fabric → Fabric) : (onFab s f).keys = s.keys := rfl
@[simp] theorem onFab_fellBack (s : Device) (f : Fabric → Fabric) : (onFab s f).fellBack = s.fellBack := rfl
@[simp] theorem onFab_calUse (s : Device) (f : Fabric → Fabric) : (onFab s f).calUse = s.calUse := rfl
@[simp] theorem onFab_nonce (s : Device) (f : Fabric → Fabric) : (onFab s f).nonce = s.nonce := rfl
@[simp] theorem onFab_testLoaded (s : Device) (f : Fabric → Fabric) : (onFab s f).testLoaded = s.testLoaded := rfl
@[simp] theorem onFab_i3c (s : Device) (f : Fabric → Fabric) : (onFab s f).i3c = s.i3c := rfl
@[simp] theorem onFab_blocks (s : Device) (f : Fabric → Fabric) : (onFab s f).blocks = s.blocks := rfl

/-! ## onFrm -/

@[simp] theorem onFrm_regs (s : Device) (f : Frame → Frame) : (onFrm s f).regs = s.regs := rfl
@[simp] theorem onFrm_err (s : Device) (f : Frame → Frame) : (onFrm s f).err = s.err := rfl
@[simp] theorem onFrm_frm (s : Device) (f : Frame → Frame) : (onFrm s f).frm = f s.frm := rfl
@[simp] theorem onFrm_cmd (s : Device) (f : Frame → Frame) : (onFrm s f).cmd = s.cmd := rfl
@[simp] theorem onFrm_dies (s : Device) (f : Frame → Frame) : (onFrm s f).dies = s.dies := rfl
@[simp] theorem onFrm_mem (s : Device) (f : Frame → Frame) : (onFrm s f).mem = s.mem := rfl
@[simp] theorem onFrm_fab (s : Device) (f : Frame → Frame) : (onFrm s f).fab = s.fab := rfl
@[simp] theorem onFrm_pwr (s : Device) (f : Frame → Frame) : (onFrm s f).pwr = s.pwr := rfl
@[simp] theorem onFrm_lining (s : Device) (f : Frame → Frame) : (onFrm s f).lining = s.lining := rfl
@[simp] theorem onFrm_inReset (s : Device) (f : Frame → Frame) : (onFrm s f).inReset = s.inReset := rfl
@[simp] theorem onFrm_holdover (s : Device) (f : Frame → Frame) : (onFrm s f).holdover = s.holdover := rfl
@[simp] theorem onFrm_cause (s : Device) (f : Frame → Frame) : (onFrm s f).cause = s.cause := rfl
@[simp] theorem onFrm_hostMem (s : Device) (f : Frame → Frame) : (onFrm s f).hostMem = s.hostMem := rfl
@[simp] theorem onFrm_clockUs (s : Device) (f : Frame → Frame) : (onFrm s f).clockUs = s.clockUs := rfl
@[simp] theorem onFrm_freeCnt (s : Device) (f : Frame → Frame) : (onFrm s f).freeCnt = s.freeCnt := rfl
@[simp] theorem onFrm_detLatched (s : Device) (f : Frame → Frame) : (onFrm s f).detLatched = s.detLatched := rfl
@[simp] theorem onFrm_procs (s : Device) (f : Frame → Frame) : (onFrm s f).procs = s.procs := rfl
@[simp] theorem onFrm_restarts (s : Device) (f : Frame → Frame) : (onFrm s f).restarts = s.restarts := rfl
@[simp] theorem onFrm_lastProc (s : Device) (f : Frame → Frame) : (onFrm s f).lastProc = s.lastProc := rfl
@[simp] theorem onFrm_booting (s : Device) (f : Frame → Frame) : (onFrm s f).booting = s.booting := rfl
@[simp] theorem onFrm_images (s : Device) (f : Frame → Frame) : (onFrm s f).images = s.images := rfl
@[simp] theorem onFrm_running (s : Device) (f : Frame → Frame) : (onFrm s f).running = s.running := rfl
@[simp] theorem onFrm_store (s : Device) (f : Frame → Frame) : (onFrm s f).store = s.store := rfl
@[simp] theorem onFrm_keys (s : Device) (f : Frame → Frame) : (onFrm s f).keys = s.keys := rfl
@[simp] theorem onFrm_fellBack (s : Device) (f : Frame → Frame) : (onFrm s f).fellBack = s.fellBack := rfl
@[simp] theorem onFrm_calUse (s : Device) (f : Frame → Frame) : (onFrm s f).calUse = s.calUse := rfl
@[simp] theorem onFrm_nonce (s : Device) (f : Frame → Frame) : (onFrm s f).nonce = s.nonce := rfl
@[simp] theorem onFrm_testLoaded (s : Device) (f : Frame → Frame) : (onFrm s f).testLoaded = s.testLoaded := rfl
@[simp] theorem onFrm_i3c (s : Device) (f : Frame → Frame) : (onFrm s f).i3c = s.i3c := rfl
@[simp] theorem onFrm_blocks (s : Device) (f : Frame → Frame) : (onFrm s f).blocks = s.blocks := rfl

/-! ## onPwr -/

@[simp] theorem onPwr_regs (s : Device) (f : Power → Power) : (onPwr s f).regs = s.regs := rfl
@[simp] theorem onPwr_err (s : Device) (f : Power → Power) : (onPwr s f).err = s.err := rfl
@[simp] theorem onPwr_frm (s : Device) (f : Power → Power) : (onPwr s f).frm = s.frm := rfl
@[simp] theorem onPwr_cmd (s : Device) (f : Power → Power) : (onPwr s f).cmd = s.cmd := rfl
@[simp] theorem onPwr_dies (s : Device) (f : Power → Power) : (onPwr s f).dies = s.dies := rfl
@[simp] theorem onPwr_mem (s : Device) (f : Power → Power) : (onPwr s f).mem = s.mem := rfl
@[simp] theorem onPwr_fab (s : Device) (f : Power → Power) : (onPwr s f).fab = s.fab := rfl
@[simp] theorem onPwr_pwr (s : Device) (f : Power → Power) : (onPwr s f).pwr = f s.pwr := rfl
@[simp] theorem onPwr_lining (s : Device) (f : Power → Power) : (onPwr s f).lining = s.lining := rfl
@[simp] theorem onPwr_inReset (s : Device) (f : Power → Power) : (onPwr s f).inReset = s.inReset := rfl
@[simp] theorem onPwr_holdover (s : Device) (f : Power → Power) : (onPwr s f).holdover = s.holdover := rfl
@[simp] theorem onPwr_cause (s : Device) (f : Power → Power) : (onPwr s f).cause = s.cause := rfl
@[simp] theorem onPwr_hostMem (s : Device) (f : Power → Power) : (onPwr s f).hostMem = s.hostMem := rfl
@[simp] theorem onPwr_clockUs (s : Device) (f : Power → Power) : (onPwr s f).clockUs = s.clockUs := rfl
@[simp] theorem onPwr_freeCnt (s : Device) (f : Power → Power) : (onPwr s f).freeCnt = s.freeCnt := rfl
@[simp] theorem onPwr_detLatched (s : Device) (f : Power → Power) : (onPwr s f).detLatched = s.detLatched := rfl
@[simp] theorem onPwr_procs (s : Device) (f : Power → Power) : (onPwr s f).procs = s.procs := rfl
@[simp] theorem onPwr_restarts (s : Device) (f : Power → Power) : (onPwr s f).restarts = s.restarts := rfl
@[simp] theorem onPwr_lastProc (s : Device) (f : Power → Power) : (onPwr s f).lastProc = s.lastProc := rfl
@[simp] theorem onPwr_booting (s : Device) (f : Power → Power) : (onPwr s f).booting = s.booting := rfl
@[simp] theorem onPwr_images (s : Device) (f : Power → Power) : (onPwr s f).images = s.images := rfl
@[simp] theorem onPwr_running (s : Device) (f : Power → Power) : (onPwr s f).running = s.running := rfl
@[simp] theorem onPwr_store (s : Device) (f : Power → Power) : (onPwr s f).store = s.store := rfl
@[simp] theorem onPwr_keys (s : Device) (f : Power → Power) : (onPwr s f).keys = s.keys := rfl
@[simp] theorem onPwr_fellBack (s : Device) (f : Power → Power) : (onPwr s f).fellBack = s.fellBack := rfl
@[simp] theorem onPwr_calUse (s : Device) (f : Power → Power) : (onPwr s f).calUse = s.calUse := rfl
@[simp] theorem onPwr_nonce (s : Device) (f : Power → Power) : (onPwr s f).nonce = s.nonce := rfl
@[simp] theorem onPwr_testLoaded (s : Device) (f : Power → Power) : (onPwr s f).testLoaded = s.testLoaded := rfl
@[simp] theorem onPwr_i3c (s : Device) (f : Power → Power) : (onPwr s f).i3c = s.i3c := rfl
@[simp] theorem onPwr_blocks (s : Device) (f : Power → Power) : (onPwr s f).blocks = s.blocks := rfl

/-! ## setProc -/

@[simp] theorem setProc_regs (s : Device) (p : Fin 4) (x : ProcState) : (setProc s p x).regs = s.regs := rfl
@[simp] theorem setProc_err (s : Device) (p : Fin 4) (x : ProcState) : (setProc s p x).err = s.err := rfl
@[simp] theorem setProc_frm (s : Device) (p : Fin 4) (x : ProcState) : (setProc s p x).frm = s.frm := rfl
@[simp] theorem setProc_cmd (s : Device) (p : Fin 4) (x : ProcState) : (setProc s p x).cmd = s.cmd := rfl
@[simp] theorem setProc_dies (s : Device) (p : Fin 4) (x : ProcState) : (setProc s p x).dies = s.dies := rfl
@[simp] theorem setProc_mem (s : Device) (p : Fin 4) (x : ProcState) : (setProc s p x).mem = s.mem := rfl
@[simp] theorem setProc_fab (s : Device) (p : Fin 4) (x : ProcState) : (setProc s p x).fab = s.fab := rfl
@[simp] theorem setProc_pwr (s : Device) (p : Fin 4) (x : ProcState) : (setProc s p x).pwr = s.pwr := rfl
@[simp] theorem setProc_lining (s : Device) (p : Fin 4) (x : ProcState) : (setProc s p x).lining = s.lining := rfl
@[simp] theorem setProc_inReset (s : Device) (p : Fin 4) (x : ProcState) : (setProc s p x).inReset = s.inReset := rfl
@[simp] theorem setProc_holdover (s : Device) (p : Fin 4) (x : ProcState) : (setProc s p x).holdover = s.holdover := rfl
@[simp] theorem setProc_cause (s : Device) (p : Fin 4) (x : ProcState) : (setProc s p x).cause = s.cause := rfl
@[simp] theorem setProc_hostMem (s : Device) (p : Fin 4) (x : ProcState) : (setProc s p x).hostMem = s.hostMem := rfl
@[simp] theorem setProc_clockUs (s : Device) (p : Fin 4) (x : ProcState) : (setProc s p x).clockUs = s.clockUs := rfl
@[simp] theorem setProc_freeCnt (s : Device) (p : Fin 4) (x : ProcState) : (setProc s p x).freeCnt = s.freeCnt := rfl
@[simp] theorem setProc_detLatched (s : Device) (p : Fin 4) (x : ProcState) : (setProc s p x).detLatched = s.detLatched := rfl
@[simp] theorem setProc_procs (s : Device) (p : Fin 4) (x : ProcState) : (setProc s p x).procs = s.procs.set p x := rfl
@[simp] theorem setProc_restarts (s : Device) (p : Fin 4) (x : ProcState) : (setProc s p x).restarts = s.restarts := rfl
@[simp] theorem setProc_lastProc (s : Device) (p : Fin 4) (x : ProcState) : (setProc s p x).lastProc = s.lastProc := rfl
@[simp] theorem setProc_booting (s : Device) (p : Fin 4) (x : ProcState) : (setProc s p x).booting = s.booting := rfl
@[simp] theorem setProc_images (s : Device) (p : Fin 4) (x : ProcState) : (setProc s p x).images = s.images := rfl
@[simp] theorem setProc_running (s : Device) (p : Fin 4) (x : ProcState) : (setProc s p x).running = s.running := rfl
@[simp] theorem setProc_store (s : Device) (p : Fin 4) (x : ProcState) : (setProc s p x).store = s.store := rfl
@[simp] theorem setProc_keys (s : Device) (p : Fin 4) (x : ProcState) : (setProc s p x).keys = s.keys := rfl
@[simp] theorem setProc_fellBack (s : Device) (p : Fin 4) (x : ProcState) : (setProc s p x).fellBack = s.fellBack := rfl
@[simp] theorem setProc_calUse (s : Device) (p : Fin 4) (x : ProcState) : (setProc s p x).calUse = s.calUse := rfl
@[simp] theorem setProc_nonce (s : Device) (p : Fin 4) (x : ProcState) : (setProc s p x).nonce = s.nonce := rfl
@[simp] theorem setProc_testLoaded (s : Device) (p : Fin 4) (x : ProcState) : (setProc s p x).testLoaded = s.testLoaded := rfl
@[simp] theorem setProc_i3c (s : Device) (p : Fin 4) (x : ProcState) : (setProc s p x).i3c = s.i3c := rfl
@[simp] theorem setProc_blocks (s : Device) (p : Fin 4) (x : ProcState) : (setProc s p x).blocks = s.blocks := rfl

end Device

end Sys2Proof.Machine
end

