-- ==== Sys2Proof/Laws/Errors.lean ====
section
/-! SUPPORT. What posting an error, ending a job and replying leave alone, whatever they set off: a property that speaks of nothing they
write is kept by them all. -/

namespace Sys2Proof.Machine.Device

/-- A property of the device that the writes of an error, of the end of a job and of a reply keep: registers, error queue, command
block, Lining, host memory, free values, I3C, whether a step runs, and the units stopped (R323, R370 to R375). -/
structure Deaf (P : Device → Prop) : Prop where
  regs : ∀ s x, P s → P { s with regs := x }
  err : ∀ s x, P s → P { s with err := x }
  cmd : ∀ s x, P s → P { s with cmd := x }
  lining : ∀ s x, P s → P { s with lining := x }
  host : ∀ s x, P s → P { s with hostMem := x }
  free : ∀ s x, P s → P { s with freeCnt := x }
  i3c : ∀ s x, P s → P { s with i3c := x }
  step : ∀ s x y, P s → P { s with frm := { s.frm with stepRun := x, overran := y } }
  stop : ∀ s, P s → P s.stopUnits

namespace Deaf

variable {P : Device → Prop} (h : Deaf P)
include h

theorem setFld {s : Device} (f : Fld) (x : Nat) : P s → P (s.setFld f x) := h.regs _ _
theorem event {s : Device} (f : Fld) : P s → P (s.event f) := h.regs _ _
theorem eventCount {s : Device} (f : Fld) : P s → P (s.eventCount f) := h.regs _ _
theorem count {s : Device} (f : Fld) (n : Nat) : P s → P (s.count f n) := h.regs _ _
theorem onErr {s : Device} (f : ErrQueue → ErrQueue) : P s → P (s.onErr f) := h.err _ _
theorem onCmd {s : Device} (f : Command → Command) : P s → P (s.onCmd f) := h.cmd _ _
theorem onRing {s : Device} (r : Fin 4) (f : Ring → Ring) : P s → P (s.onRing r f) := h.cmd _ _
theorem onJob {s : Device} (f : Job → Job) : P s → P (s.onJob f) := h.cmd _ _
theorem raise {s : Device} (v : Nat) : P s → P (s.raise v) := h.cmd _ _
theorem setHost {s : Device} (a : Nat) (bs : List Byte) : P s → P (s.setHost a bs) := h.host _ _
theorem setLining {s : Device} (a : Nat) (bs : List Byte) : P s → P (s.setLining a bs) := h.lining _ _
theorem freeWord {s : Device} : P s → P s.freeWord.2 := h.free _ _

theorem setDState {s : Device} (d : DState) (hs : P s) : P (s.setDState d) := by
  unfold Device.setDState; split
  · exact hs
  · exact h.raise _ (h.cmd _ _ hs)

omit h in
theorem foldl {α : Type} (f : Device → α → Device) (hf : ∀ s x, P s → P (f s x)) (l : List α) {s : Device} (hs : P s) :
    P (l.foldl f s) := by
  induction l generalizing s with
  | nil => exact hs
  | cons x l ih => exact ih (hf _ _ hs)

theorem writeReply {s : Device} (r : Fin 4) (hs : P s) : P (s.writeReply r) := by
  unfold Device.writeReply
  split
  · exact hs
  · split
    · exact hs
    · dsimp only
      repeat' split
      all_goals first
        | exact h.event _ (h.raise _ (h.onRing _ _ (h.setHost _ _ hs)))
        | exact h.raise _ (h.onRing _ _ (h.setHost _ _ hs))
        | exact h.event _ (h.onRing _ _ (h.setHost _ _ hs))
        | exact h.onRing _ _ (h.setHost _ _ hs)

theorem flushN (r : Fin 4) : ∀ (n : Nat) {s : Device}, P s → P (Device.flushN r n s)
  | 0, _, hs => hs
  | n + 1, _, hs => flushN r n (h.writeReply r hs)

theorem flush {s : Device} (r : Fin 4) (hs : P s) : P (s.flush r) := h.flushN r _ hs

theorem queueReply {s : Device} (ref : PktRef) (st n : Nat) (hs : P s) : P (s.queueReply ref st n) := by
  unfold Device.queueReply; split
  · exact hs
  · exact h.flush _ (h.onRing _ _ hs)

theorem reply {s : Device} (ref : PktRef) (st n : Nat) (hs : P s) : P (s.reply ref st n) := h.queueReply _ _ _ (h.onRing _ _ hs)

theorem replyFree {s : Device} (ref : PktRef) (st : Nat) (hs : P s) : P (s.replyFree ref st) := h.reply _ _ _ (h.freeWord hs)

theorem interim {s : Device} (ref : PktRef) (st n : Nat) (hs : P s) : P (s.interim ref st n) := h.flush _ (h.onRing _ _ hs)

theorem returnJoins {s : Device} (hs : P s) : P s.returnJoins :=
  Deaf.foldl _ (fun _ _ hs => h.replyFree _ _ hs) _ (h.onJob _ (h.onCmd _ hs))

theorem endJob {s : Device} (st code : W16) (hs : P s) : P (s.endJob st code) := by
  unfold Device.endJob
  split
  · exact hs
  · split
    · exact hs
    · exact h.returnJoins (h.setDState _ (h.stop _ (h.step _ _ _ (h.onJob _ hs))))

theorem finish {s : Device} (i : Nat) (e : ErrEntry) : P s → P (s.finish i e) := h.onErr _

theorem act {s : Device} (i : Nat) (e : ErrEntry) (hs : P s) : P (s.act i e) := by
  unfold Device.act
  split
  · exact h.finish _ _ hs
  · dsimp only
    have a : P ((s.onErr fun q => q.setSlot i (some { e with state := .active })).endJob JOB_FATAL e.code) :=
      h.endJob _ _ (h.onErr _ hs)
    repeat' split
    all_goals first
      | exact h.finish _ _ (h.onErr _ (h.setFld _ _ a))
      | exact h.onErr _ (h.setFld _ _ a)
      | exact h.finish _ _ a
      | exact a

theorem settleOnce {s : Device} (hs : P s) : P s.settleOnce := by
  unfold Device.settleOnce
  repeat' split
  all_goals first
    | exact h.finish _ _ hs
    | exact h.act _ _ (h.onErr _ hs)
    | exact h.act _ _ hs
    | exact hs

theorem settleN : ∀ (n : Nat) {s : Device}, P s → P (Device.settleN n s)
  | 0, _, hs => hs
  | n + 1, _, hs => settleN n (h.settleOnce hs)

theorem settle {s : Device} (hs : P s) : P s.settle := h.settleN _ hs

theorem alerting {s : Device} (f : Device → Device) (hs : P (f s)) : P (s.alerting f) := by
  unfold Device.alerting; dsimp only
  split
  · exact h.i3c _ _ hs
  · exact hs

theorem create {s : Device} (i : Nat) (e : ErrEntry) (hs : P s) : P (s.create i e) := by
  unfold Device.create
  dsimp only
  split
  · exact h.setLining _ _ (h.onJob _ (h.raise _ (h.event _ (h.alerting _ (h.onErr _ hs)))))
  · exact h.onJob _ (h.raise _ (h.event _ (h.alerting _ (h.onErr _ hs))))

theorem lose {s : Device} (code unit : W16) (hs : P s) : P (s.lose code unit) := by
  unfold Device.lose
  dsimp only
  split
  · exact h.onErr _ (h.count _ _ hs)
  · exact h.setLining _ _ (h.create _ _ (h.count _ _ hs))

/-- Posting an error keeps what is deaf to it (R370 to R374). -/
theorem post {s : Device} (code : W16) (sev : Nat) (unit : W16) (detail : W64) (hs : P s) : P (s.post code sev unit detail) := by
  unfold Device.post
  split
  · exact h.onErr _ hs
  · dsimp only
    split
    · exact h.settle (h.create _ _ hs)
    · exact h.settle (h.lose _ _ hs)

theorem postIllegal {s : Device} (unit : W16) (a : W64) : P s → P (s.postIllegal unit a) := h.post _ _ _ _

theorem configFault {s : Device} (off cause : Nat) (hs : P s) : P (s.configFault off cause) :=
  h.post _ _ _ _ (h.setFld _ _ (h.setFld _ _ (h.event _ hs)))

end Deaf

/-- The parts of the device that an error, the end of a job and a reply never change: memories, fabric, power, processors, the
reset, the clock, the frame's count and step. -/
def kept (s : Device) : MemSys × Fabric × Power × Quad ProcState × Bool × Nat × W64 × W32 × Quad (Memory × Memory) :=
  (s.mem, s.fab, s.pwr, s.procs, s.inReset, s.clockUs, s.frm.count, s.frm.step, s.dies.map fun d => (d.tile, d.scratch))

/-- Having certain such parts is deaf to errors. -/
theorem kept_deaf (u : Device) : Deaf fun s => s.kept = u.kept :=
  ⟨fun _ _ h => h, fun _ _ h => h, fun _ _ h => h, fun _ _ h => h, fun _ _ h => h, fun _ _ h => h, fun _ _ h => h,
    fun _ _ _ h => h, fun _ h => h⟩

/-- What `kept` keeps holds for every memory of the device. -/
theorem memory_of_kept {s t : Device} (h : s.kept = t.kept) (sp : Space) : s.memory sp = t.memory sp := by
  unfold kept at h
  simp only [Prod.mk.injEq] at h
  obtain ⟨hm, -, -, -, -, -, -, -, hd⟩ := h
  have hd' : ∀ d : Die, ((s.die d).tile, (s.die d).scratch) = ((t.die d).tile, (t.die d).scratch) := by
    intro d
    have := congrArg (fun q => Quad.get q d) hd
    simpa [die] using this
  cases sp with
  | tile d => exact (Prod.mk.injEq .. ▸ hd' d).1
  | scratch d => exact (Prod.mk.injEq .. ▸ hd' d).2
  | near => simp [memory, hm]
  | far => simp [memory, hm]

/-- Posting an error changes no memory. -/
theorem memory_post (s : Device) (code : W16) (sev : Nat) (unit : W16) (detail : W64) (sp : Space) :
    (s.post code sev unit detail).memory sp = s.memory sp :=
  memory_of_kept ((kept_deaf s).post code sev unit detail rfl) sp

end Sys2Proof.Machine.Device
end

