-- ==== Sys2Proof/Laws/Ops.lean ====
section
/-! SUPPORT. What each shared wrapper of a meaning can do, said once: the state it answers, and what it leaves alone. -/

namespace Sys2Proof.Machine

/-- A device command answers a state that differs in the device alone. -/
theorem onDev_next (s : State) (f : Device → Device) : ∃ v, onDev s f = .next { s with dev := v } := by
  unfold onDev; split
  · exact ⟨s.dev, rfl⟩
  · exact ⟨f s.dev, rfl⟩

/-- While the core logic runs a device command has its effect. -/
theorem onDev_live {s : State} (f : Device → Device) (h : s.dev.halted = false) : onDev s f = .next { s with dev := f s.dev } := by
  simp [onDev, h]

/-- In a reset, or without clocks, a device command does nothing (R360, R431). -/
theorem onDev_halted {s : State} (f : Device → Device) (h : s.dev.halted = true) : onDev s f = .next s := by
  simp [onDev, h]

/-- An instruction of a die answers a state that differs in the device alone. -/
theorem issue_next (s : State) (d : Die) (f : Device → Device) : ∃ v, issue s d f = .next { s with dev := v } := onDev_next _ _

/-- Where the die issues, an instruction has its effect. -/
theorem issue_live {s : State} {d : Die} (f : Device → Device) (h : s.dev.halted = false) (hi : s.dev.issues d = true) :
    issue s d f = .next { s with dev := f s.dev } := by
  simp [issue, onDev, h, hi]

/-- Where it does not, the instruction waits: nothing changes. -/
theorem issue_silent {s : State} {d : Die} (f : Device → Device) (hi : s.dev.issues d = false) : issue s d f = .next s := by
  unfold issue onDev
  split
  · rfl
  · simp [hi]

/-- An instruction of an engine that waits at no PRUN has its effect at once (R199). -/
theorem issueInOrder_free {s : Device} {i : Issuer} (op : EngineOp) (h : ∀ g ∈ (s.palm i.die).held, g.engine ≠ i.engine) :
    s.issueInOrder i op = s.perform i op := by
  have : ((s.palm i.die).held.any fun g => g.engine == i.engine) = false := by
    simpa using h
  simp [Device.issueInOrder, this]

/-- The same of the command that carries it. -/
theorem issueOp_free {s : State} {i : Issuer} (op : EngineOp) (hl : s.dev.halted = false) (hi : s.dev.issues i.die = true)
    (h : ∀ g ∈ (s.dev.palm i.die).held, g.engine ≠ i.engine) : issueOp s i op = .next { s with dev := s.dev.perform i op } := by
  simp [issueOp, issue_live _ hl hi, issueInOrder_free op h]

/-- A bus access while the core logic runs. -/
theorem onBus_live {s : State} (f : State → State) (h : s.dev.halted = false) : onBus s f = .next (f s) := by
  simp [onBus, h]

theorem onBus_cases {s t : State} {f : State → State} (h : onBus s f = .next t) : t = s ∨ t = f s := by
  unfold onBus at h
  split at h
  · exact .inl (by injection h with h; exact h.symm)
  · exact .inr (by injection h with h; exact h.symm)

/-- Where the lanes of a die are not stopped, work on them has its effect (R386). -/
theorem onLanes_live {s : State} {d : Die} (f : Device → Device) (h : s.dev.halted = false) (hd : s.dev.duty d ≠ 0) :
    onLanes s d f = .next { s with dev := f s.dev } := by
  simp [onLanes, onDev, h, hd]

/-- The management domain runs outside a reset, with or without REFCLK_SYS (R431). -/
theorem onManagement_live {s : State} (f : Device → Device) (h : s.dev.inReset = false) :
    onManagement s f = .next { s with dev := f s.dev } := by
  simp [onManagement, h]

/-- What the TAP's current instruction says of the I3C target's bus touches nothing else (R436). -/
@[simp] theorem State.busHeld_nv (s : State) : s.busHeld.nv = s.nv := rfl
@[simp] theorem State.busHeld_tap (s : State) : s.busHeld.tap = s.tap := rfl
@[simp] theorem State.busHeld_pending (s : State) : s.busHeld.pending = s.pending := rfl
@[simp] theorem State.busHeld_offBus (s : State) : s.busHeld.dev.offBus = s.tap.holds := rfl
@[simp] theorem State.busHeld_regs (s : State) : s.busHeld.dev.regs = s.dev.regs := rfl

theorem onI3c_live {s : State} (f : State → State) (h : s.dev.inReset = false) (hb : s.dev.booting = false) (hp : s.tap.holds = false) :
    onI3c s f = .next (f s) := by
  simp [onI3c, h, hb, hp]

theorem onI3c_cases {s t : State} {f : State → State} (h : onI3c s f = .next t) : t = s ∨ t = f s := by
  unfold onI3c at h
  split at h
  · exact .inl (by injection h with h; exact h.symm)
  · exact .inr (by injection h with h; exact h.symm)

theorem onPacket_live {s : State} {p : Pkt} {op : Nat} (body : PktRef → List Byte → State → State) (h : s.dev.halted = false) :
    onPacket p op s body = .next (s.packet p op body) := by
  simp [onPacket, h]

theorem onPacket_cases {s t : State} {p : Pkt} {op : Nat} {body : PktRef → List Byte → State → State}
    (h : onPacket p op s body = .next t) : t = s ∨ t = s.packet p op body := by
  unfold onPacket at h
  split at h
  · exact .inl (by injection h with h; exact h.symm)
  · exact .inr (by injection h with h; exact h.symm)

theorem onTap_live {s : State} (f : State → State) (h : s.vaux = true) : onTap s f = .next (f s).busHeld := by
  simp [onTap, h]

theorem onTap_cases {s t : State} {f : State → State} (h : onTap s f = .next t) : t = s ∨ t = (f s).busHeld := by
  unfold onTap at h
  split at h
  · exact .inr (by injection h with h; exact h.symm)
  · exact .inl (by injection h with h; exact h.symm)

/-- A packet keeps what its body keeps: anything of the state that changes of the device alone do not touch. -/
theorem State.packet_keeps {α : Type} (π : State → α) (hd : ∀ (t : State) (f : Device → Device), π (t.onDevice f) = π t)
    {t : State} {p : Pkt} {op : Nat} {body : PktRef → List Byte → State → State} (hb : ∀ ref pl u, π (body ref pl u) = π u) :
    π (t.packet p op body) = π t := by
  unfold State.packet
  dsimp only
  split
  · split
    · exact hd _ _
    · rfl
  · split
    · exact hd _ _
    · split
      · exact hd _ _
      · split
        · rw [hd, hd]
        · split
          · rw [hd, hd]
          · split
            · rw [hd, hd, hd]
            · rw [hb, hd, hd, hd]

end Sys2Proof.Machine
end

