-- ==== Sys2Proof/Tests/Slice0.lean ====
section
/-! SUPPORT. Tests: ill-formed commands that the checks refuse, values worked out from the manual, and a witness of the hypotheses of
each statement. -/

set_option Elab.async false

open Sys2Proof Sys2Proof.Machine Sys2Proof.Safety

namespace Sys2Proof.Tests

/-! ## Well-formed commands -/

/-- The first tile-memory byte behind the 160 MiB of a die (R1). -/
def outside : TDesc := { space := .tile 1, addr := 160 * 2 ^ 20 }

theorem test_wf_mma : (Instr.mma 0 { a := outside }).wf = false ∧ (Instr.mma 0 {}).wf = true := by decide
theorem test_wf_mmaFx : (Instr.mmaFx 0 { b := outside }).wf = false := by decide
theorem test_wf_convert : (Instr.vcvt 0 { src := outside }).wf = false ∧ (Instr.vcvtB 0 { dst := outside }).wf = false := by decide
theorem test_wf_split : (Instr.vsplitF 0 {} {} outside).wf = false ∧ (Instr.vsplitI 0 {} outside {}).wf = false := by decide
theorem test_wf_max : (Instr.vmax 0 {} outside).wf = false ∧ (Instr.vectorFp32Add {} {} outside).wf = false := by decide
theorem test_wf_applyF : (Instr.applyF 0 {} 0 0 {} {} outside).wf = false := by decide
theorem test_wf_stack : (Instr.hpush 0 { src := outside }).wf = false ∧
    (Instr.hpop 0 { dst := .scratch 2, addr := 24 * 2 ^ 20 }).wf = false := by decide
/-- One FP32 element in the last bytes of a die's scratch, and one a byte further on (R1). -/
theorem test_wf_extent : (WellFormed.tdesc { space := .scratch 0, addr := 24 * 2 ^ 20 - 4, rows := 1, cols := 1, pitch := 1 },
    WellFormed.tdesc { space := .scratch 0, addr := 24 * 2 ^ 20 - 3, rows := 1, cols := 1, pitch := 1 }) = (true, false) := by decide +kernel
theorem test_wf_adders : (Instr.runpack {} 0 outside 0).wf = false ∧ (Instr.madd {} {} 0 0 outside 0 false).wf = false ∧
    (Instr.memorySideAdd .i64s 0 [] 0 0).wf = false ∧ (Instr.memorySideAdd .i64s (2 ^ 40) [1] 0 0).wf = false := by decide
theorem test_wf_lines : (Instr.lineArrival 0 0 0 0 (.line 0 [1])).wf = false ∧
    (Instr.lineArrival 0 0 0 0 (.tapRow 0 false 0 [1] 0 0 0)).wf = false := by decide
theorem test_wf_packet : (Instr.nop { payload := List.replicate 4097 0 }).wf = false ∧ (Instr.nop { strange := some 0x10 }).wf = false ∧
    (Instr.nop { strange := some 0x04 }).wf = true := by decide +kernel
theorem test_wf_flit : (Instr.flit 0 { payload := [] }).wf = false := by decide
/-- R299: x8 at 32 GT/s; a width of 16, and 3 GT/s, are none of the link's. -/
theorem test_wf_hostLink : (Instr.pcieLinkUp 8 12).wf = true ∧ (Instr.pcieLinkUp 16 12).wf = false ∧ (Instr.pcieLinkUp 8 4).wf = false := by
  decide
theorem test_wf_calWrite : (Instr.calWrite {} []).wf = false := by decide
theorem test_wf_offset : (Instr.registerWrite (2 ^ 28) .b32 0).wf = false ∧ (Instr.statusRead (2 ^ 28 - 4) .b32).wf = true := by decide
theorem test_wf_sensors : (Instr.bonnetLoop []).wf = false ∧ (Instr.sensorSample []).wf = false ∧
    (Instr.bucketUpdate [1, 2, 3] [1, 2, 3, 4]).wf = false := by decide
theorem test_wf_release : (Instr.resetRelease { badLining := [10] }).wf = false ∧ (Instr.resetRelease { badLining := [9] }).wf = true := by decide
theorem test_wf_tap : (Instr.lumovTestInstruction 0xFF).wf = false ∧ (Instr.lumovTestInstruction 0x7F).wf = false ∧
    (Instr.bypass 0x08).wf = false := by decide

/-! ## Small states -/

/-- Some fields in force at values other than their reset values. -/
def regs (l : List (Fld × Nat)) : RegFile := l.foldl (fun r x => r.setFld x.1 x.2) {}

/-- A device in RUNNING, its clamp off, its frame timer started and its processors up. -/
def alive : Device :=
  { inReset := false, frm := { started := true, stepRun := true }, pwr := { clamp := false, causes := List.replicate 7 false },
    cmd := { dstate := .running, linkUp := true, handshake := true, job := some { phase := .running, desc := { id := 7, self := 0xFFFF } } },
    procs := Quad.all { up := true } }

def run : State := { dev := alive }
theorem free_run (e : Engine) : Free run 0 e := ⟨⟨rfl, by decide +kernel⟩, fun _ h => nomatch h⟩
/-- The same with no job, in READY. -/
def idle : State := { dev := { alive with cmd := { alive.cmd with dstate := .ready, job := none } } }

/-! ## Values of the manual -/

/-- R37's table at both signs. -/
theorem test_e2m1 : FloatFmt.e2m1.decode 7 = .fin false 3 1 ∧ FloatFmt.e2m1.decode 9 = .fin true 1 (-1) := by decide
/-- The worked address of R237: h = 0x64 in window 2, stack M4. -/
theorem test_nearMap : nearHash 0x0081_2345_6A40 = 0x64 ∧ stackOf 0x0081_2345_6A40 = 4 := by decide
/-- Palm words written out bit by bit from R203 and R204: FADD V3 = V1 + V2, LDS S5 from parameter 7, a guarded MOV. -/
theorem test_palmWords : decodePalm 0x0000000000204310 = some (.fadd, { d := 3, a := 1, b := 2 }) ∧
    decodePalm 0x0007000000000507 = some (.lds, { d := 5, imm := 7 }) ∧
    decodePalm 0x3F80001A000FC446 = some (.mov, { d := 4, a := 63, g := 2, gn := true, ge := true, imm := 0x3F80 }) ∧
    decodePalm 0x0D = none ∧ decodePalm 0x0000080000000000 = none := by decide +kernel
/-- The first bytes of SHAKE256 of the empty message as FIPS 202's examples print them: 46 b9 dd 2b (log entry 7). -/
theorem test_shake256 : (Shake.digest []).toNat % 2 ^ 32 = 0x2BDDB946 := by decide +kernel
/-- The TAP's identification register (R434) and the handler-free reset of the TAP. -/
theorem test_idcode : (match exec .idcode State.reset with | .next t => t.tap.captured | _ => 0) = 0x1D900C3D := by decide +kernel
/-- R24: a tick counts. -/
theorem test_tick : (match exec (.frameTick {}) idle with | .next t => (t.dev.frm.count, t.dev.frm.tickOut) | _ => (0, false)) = (1, true) := by
  decide +kernel
/-- R316: a mismatched pair stops at the start of a job. -/
theorem test_mismatch : (match exec (.jobStart []) { dev := { alive with cmd := { alive.cmd with dstate := .starting, mismatch := true } } } with
    | .fault .mismatchedPair => true | _ => false) = true := by decide +kernel


/-! ## The hypotheses of each statement can be met -/

theorem test_meets_QueueAndFusesKept : ∃ t, exec .tickOutLow run = .next t := ⟨_, rfl⟩
theorem fuses_ok : FuseInv run.nv := ⟨by decide, by decide, by decide⟩
theorem test_meets_FuseInvKept : ∃ t, FuseInv run.nv ∧ step { run with pending := [.tickOutLow] } = .next t := ⟨_, fuses_ok, rfl⟩
theorem test_meets_DutiesKept : ∃ t, DutyInv run.dev.pwr ∧ step { run with pending := [.crownLoop] } = .next t :=
  ⟨_, ⟨by decide, by decide, by decide⟩, rfl⟩
theorem errors_ok : ErrInv run.dev.err := ⟨rfl, by decide, by decide⟩
theorem test_meets_ErrorQueueKept : ∃ t, ErrInv run.dev.err ∧ step { run with pending := [.errRetire 1] } = .next t := ⟨_, errors_ok, rfl⟩
theorem memories_ok : MemInv run.dev := by
  refine ⟨fun d => ?_, fun d => ?_, ⟨rfl, fun _ _ => rfl⟩, rfl, rfl, rfl, fun p => ?_⟩
  · fin_cases d <;> exact ⟨rfl, fun _ _ => rfl⟩
  · fin_cases d <;> exact ⟨rfl, fun _ _ => rfl⟩
  · fin_cases p <;> rfl
theorem test_meets_MemoriesKeepForm : ∃ t, MemInv run.dev ∧ step { run with pending := [.hpush 0 {}] } = .next t := ⟨_, memories_ok, rfl⟩
theorem test_meets_SilentDieDoesNothing : idle.dev.issues 3 = false ∧ (∀ r, (idle.dev.palm 3).run = some r → r.stopping = false) ∧
    (run.dev.onPwr fun p => { p with clamp := true, clampDuty := Quad.all 0 }).duty 3 = 0 :=
  ⟨by decide, fun _ h => (nomatch h), by decide +kernel⟩

/-! ### Mitts -/

def mm : Mma := { af := 1, bf := 1, o := { rows := 128, cols := 128 } }
def withMitt (m : Mitt) : State := { dev := alive.onMitt 0 0 fun _ => m }
def jobTile : Tile := { af := .bf16, bf := .bf16, rows := 128, cols := 128 }

theorem test_meets_MmaCompletes :
    (Free run 0 mm.engine ∧ ((run.dev.mitt 0 0).jobs.any fun j => Device.goesBefore j (.mma mm)) = false ∧ Fmt.ofCode mm.af = some .bf16 ∧
      run.dev.outranked 0 mm = false ∧ run.dev.mmaLegal 0 mm .bf16 .bf16 = true ∧
      run.dev.abandonedWork mm = false ∧ run.dev.bad (TDescOps.ranges mm.a .bf16 ++ TDescOps.ranges mm.b .bf16) = none ∧
      run.dev.odescLegal mm .bf16 = true ∧ run.dev.openVerdict 0 mm .bf16 = .run) ∧
    (Issues (withMitt { tiles := [jobTile] }) 0 ∧ (withMitt { tiles := [jobTile] }).dev.outranked 0 { mm with cont := true } = false ∧ (withMitt { tiles := [jobTile] }).dev.mmaLegal 0 { mm with cont := true } .bf16 .bf16 = true ∧
      (withMitt { tiles := [jobTile] }).dev.contVerdict 0 { mm with cont := true } .bf16 .bf16 = .run) :=
  ⟨⟨free_run _, by decide +kernel⟩, ⟨rfl, by decide +kernel⟩, by decide +kernel, by decide +kernel⟩

/-- A mitt with an MDRAIN that waits for its open tile. -/
def pass : MmaFx := {}
def waitingWork : State := withMitt { tiles := [jobTile], jobs := [.mdrain 0 0] }

theorem test_meets_TileCommandsComplete :
    (Issues (withMitt { profN := true }) 0 ∧ (withMitt { profN := true }).dev.fxLegal 0 pass = true ∧ pass.ksplit = 0 ∧
      Device.fxFits ((withMitt { profN := true }).dev.mitt 0 0) pass = true ∧
      Device.fxFits ((withMitt { profN := true, tiles := [{}] }).dev.mitt 0 0) pass = false ∧
      (withMitt { profN := true, nextPass := 1 }).dev.bad (TDescOps.ranges {} .i16 ++ TDescOps.ranges {} .i16) = none) ∧
    (FreeFor (withMitt { tiles := [jobTile] }) {} ∧ Device.tileOf ((withMitt { tiles := [jobTile] }).dev.mitt 0 0) 0 = some jobTile ∧
      Device.noSuchTile ((withMitt { tiles := [jobTile] }).dev.mitt 0 0) 0 = false ∧ jobTile.purpose = .job) ∧
    (Device.fxFits ((withMitt { profN := true, fx := [(pass, 0)] }).dev.mitt 0 0) pass = true) ∧
    (Device.tapId ((withMitt { taps := [{}] }).dev.mitt 0 0) = some 0 ∧ Device.tapNext ((withMitt { taps := [{}] }).dev.mitt 0 0) = some {} ∧
      (withMitt { taps := [{}] }).dev.fxFirst 0 0 = false) ∧
    (waitingWork.dev.fxFirst 0 0 = false ∧ Device.tapNext (waitingWork.dev.mitt 0 0) = none ∧
      waitingWork.dev.readyOn 0 0 ≠ [] ∧ run.dev.readyOn 0 0 = []) :=
  ⟨⟨⟨rfl, by decide +kernel⟩, by decide +kernel⟩, ⟨⟨⟨rfl, by decide +kernel⟩, by decide +kernel⟩, by decide +kernel⟩, by decide +kernel,
    by decide +kernel, by decide +kernel⟩

/-- A closed tile with one row and one column, whose drain writes one FP32 element to near memory. -/
def tiny : Tile := { rows := 1, cols := 1, o := { rows := 1, cols := 1, pitch := 1 }, slots := [{}], closed := true }
def twoParts : State := { dev := (alive.onMitt 0 0 fun _ => { tiles := [{ tiny with parts := 2 }] }).onMitt 0 1 fun _ =>
  { tiles := [{ tiny with parts := 2, part := 1 }] } }

theorem test_meets_TileEventsComplete : Live run ∧
    (Device.tileOf ((withMitt { drains := [0], tiles := [tiny] }).dev.mitt 0 0) 0 = some tiny ∧ Device.drainable tiny = true ∧ Device.allCombined tiny = true ∧
      Fmt.ofCode tiny.o.fmt = some .fp32 ∧
      (withMitt { drains := [0], tiles := [tiny] }).dev.bad (TDescOps.ranges { tiny.o with rows := tiny.rows, cols := tiny.cols } .fp32) = none ∧
      (((((withMitt { drains := [0], tiles := [tiny] }).dev.drainJob 0 0 tiny).freeSlot 0 0 0).palm 0).held = [])) ∧
    (((((withMitt { profN := true, drains := [0], tiles := [{ tiny with kind := .i64, purpose := .fx { rows := 1, cols := 1 } }] }).dev.drainPass
      0 { tiny with kind := .i64, purpose := .fx { rows := 1, cols := 1 } } { rows := 1, cols := 1 }).freeSlot 0 0 0).palm 0).held = []) ∧
    run.dev.foldHolds 0 (TapDesc.key {}) 0 = false ∧
    (Device.tileOf (twoParts.dev.mitt 0 0) 0 = some { tiny with parts := 2 } ∧
      Device.tileOf (twoParts.dev.mitt 0 1) 0 = some { tiny with parts := 2, part := 1 } ∧ Device.lastLevel 0 2 1 = 0 ∧
      Device.lastLevel 1 2 1 = 0) ∧
    ((withMitt { switching := true }).dev.mitt 0 0).switching = true ∧
    (∀ c, c = ({ alive with dies := alive.dies.set 0 { cuff := { h1 := { state := .issuing } } } } : Device).cuff 0 →
      c.h1.state = .issuing ∧ c.h1.left = 0 ∧ c.held = []) :=
  ⟨rfl, by decide +kernel, by decide +kernel, by decide +kernel, by decide +kernel, by decide +kernel, fun _ h => by subst h; decide +kernel⟩

theorem test_meets_TileCommandsKeepMemory : run.dev.fld R.MEM_LOG_BASE_UNITS = 0 ∧
    run.dev.bad (TDescOps.ranges mm.a .bf16 ++ TDescOps.ranges mm.b .bf16) = none ∧ (run.dev.palm 0).held = [] ∧ mm.a.tap = 0 ∧
    ∃ t, exec (.mdrain 0 {} 0 0) idle = .next t := ⟨by decide +kernel, by decide +kernel, by decide +kernel, rfl, _, rfl⟩
/-- Both ends of an I32 slot's range. -/
theorem test_meets_IntegerSlotsAreExact :
    (∀ n, n ≤ 1 → -(2 ^ 31) ≤ (0 : Int) + (([-(2 ^ 31)] : List Int).take n).sum ∧ (0 : Int) + (([-(2 ^ 31)] : List Int).take n).sum < 2 ^ 31) ∧
    (∀ n, n ≤ 1 → -(2 ^ 31) ≤ (0 : Int) + (([2 ^ 31 - 1] : List Int).take n).sum ∧ (0 : Int) + (([2 ^ 31 - 1] : List Int).take n).sum < 2 ^ 31) := by
  decide

/-! ### Vector engines -/

def one : TDesc := { rows := 1, cols := 1, pitch := 1 }
def vec (s d : BitVec 5) : Vec := { src := { one with fmt := s }, dst := { one with fmt := d }, srcf := s, dstf := d }

theorem test_meets_VectorInstructionsComplete : Free run 0 0 ∧ run.dev.badDest (vec 0 1).dst .bf16 = false ∧
    run.dev.badDest (vec 0 0x17).dst .be2m1 = false ∧ run.dev.badDest (vec 0x13 0).dst .fp32 = false ∧
    (Fmt.wide .fp32 = true ∧ Fmt.blocked .be2m1 = true ∧ Fmt.blocked .fp32 = false) ∧
    run.dev.badSplit { vec 0 1 with np := 3 } one one .bf16 = false ∧ run.dev.badSplit { vec 0xD 9 with np := 3 } one one .i16 = false ∧
    run.dev.badSplit { vec 0xA 9 with np := 2 } one one .i16 = false ∧ run.dev.badDest (vec 0xB 0xD).dst .f48 = false ∧
    Device.maxFmt .i8 = true ∧ TDescOps.rankOk (vec 0 1).src = true ∧ (vec 0 1).src.shard = none ∧
    run.dev.bad (TDescOps.ranges (vec 0 1).src .fp32 ++ TDescOps.ranges (vec 0 1).dst .bf16) = none ∧
    run.dev.bad (TDescOps.ranges (vec 0 1).src .fp32 ++
      (Device.splitDests { vec 0 1 with np := 3 } one one).flatMap fun t => TDescOps.ranges t .bf16) = none ∧
    run.dev.bad (TDescOps.ranges one .i8 ++ TDescOps.ranges one .i8 ++ TDescOps.ranges one .i8) = none :=
  ⟨free_run _, by decide +kernel⟩

/-- Elements of 4 bits at places 0 and 1 of a byte, and a byte behind them. -/
theorem test_meets_PackedElementsReadBack : 0 < 4 ∧ (1 : Nat) ≠ 0 ∧ (9 < 8 + 1 * 4 / 8 ∨ 8 + 1 * 4 / 8 + (1 * 4 % 8 + 4 + 7) / 8 ≤ 9) := by decide
/-- Two rows of one FP32 element with a pitch of two: a byte of the gap between them, the byte before them and one of far memory. -/
theorem test_meets_PlainTensorFrame : Fmt.blocked .fp32 = false ∧ one.hist = false ∧ one.dkind = 0 ∧ 0x104 < one.space.bytes ∧
    (∀ k ∈ [0xFF, 0x104, 0x107], ∀ x ∈ [[Val.nan], [Val.nan]].zipIdx, k < 0x100 + x.2 * 2 * Fmt.bits .fp32 / 8 ∨
      0x100 + ((x.2 * 2 + x.1.length) * Fmt.bits .fp32 + 7) / 8 ≤ k) ∧
    run.dev.mem.ilv = false ∧
    run.dev.bad [(.near, 0x1000, 0x110)] = none ∧ run.dev.bad [(.near, run.dev.watchRecord 0 0 0, 0x80)] = none := by decide +kernel

/-! ### Palms -/

/-- A run on die 0 with two body words and one weight, its chunk on Palm 0. -/
def palmRun (o : PalmOp) : PalmRun :=
  { desc := { body := 2, rows := 1, cols := 1, ncols := 1 }, words := [(encodePalm o {}).toNat, 0],
    units := (Quad.all {}).set 0 { sets := [(0, { chunk := some 0 })] } }
def onPalm (f : Palms → Palms) : State := { dev := alive.onPalm 0 f }
def palmState (o : PalmOp) : State := onPalm fun p => { p with run := some (palmRun o) }
def atChunk : PalmIssue := { place := .chunk 0 }

/-- The same with a body of one word, before its chunk has begun. -/
def freshRun (o : PalmOp) : PalmRun :=
  { desc := { body := 1, rows := 1, cols := 1, ncols := 1 }, words := [(encodePalm o {}).toNat], units := Quad.all {} }

theorem palm_at (o : PalmOp) (h : (palmRun o).instrAt .body 0 = some (o, {})) :
    PalmAt (palmState o) atChunk o (palmRun o) 0 0 false { chunk := some 0 } :=
  { issues := ⟨rfl, rfl⟩, run := rfl, going := rfl, place := rfl, chunk := rfl, word := h, order := fun _ => rfl }
theorem palm_fresh (o : PalmOp) (h : (freshRun o).instrAt .body 0 = some (o, {}))
    (hb : Device.beginChunk (freshRun o) 0 0 = some (0, { chunk := some 0 })) :
    PalmAt (onPalm fun p => { p with run := some (freshRun o) }) atChunk o (freshRun o) 0 0 true { chunk := some 0 } :=
  { issues := ⟨rfl, rfl⟩, run := rfl, going := rfl, place := rfl, chunk := ⟨rfl, hb⟩, word := h, order := fun _ => rfl }

/-- In the middle of a body, and at its last word, which is also its first. -/
theorem test_meets_LaneInstructionsComplete : ∀ q ∈ laneOps,
    PalmAt (palmState q.2) atChunk q.2 (palmRun q.2) 0 0 false { chunk := some 0 } ∧ 0 + 1 < (palmRun q.2).desc.body ∧
    PalmAt (onPalm fun p => { p with run := some (freshRun q.2) }) atChunk q.2 (freshRun q.2) 0 0 true { chunk := some 0 } ∧
      0 + 1 = (freshRun q.2).desc.body := by
  have h : ∀ q ∈ laneOps, (palmRun q.2).instrAt .body 0 = some (q.2, {}) ∧ (freshRun q.2).instrAt .body 0 = some (q.2, {}) ∧
      Device.beginChunk (freshRun q.2) 0 0 = some (0, { chunk := some 0 }) := by decide +kernel
  exact fun q hq => ⟨palm_at _ (h q hq).1, Nat.lt_succ_self 1, palm_fresh _ (h q hq).2.1 (h q hq).2.2, rfl⟩

theorem test_meets_ChunkInstructionsComplete :
    ∀ o ∈ [PalmOp.nop, .ld, .ldw, .ldwo, .srd, .idxr, .idxc, .fcmp, .fcls, .pand, .por, .pnot, .sel, .bsum, .bssq, .bmax, .bmin, .bcnt, .accs],
    PalmAt (palmState o) atChunk o (palmRun o) 0 0 false { chunk := some 0 } := by
  have h : ∀ o ∈ [PalmOp.nop, .ld, .ldw, .ldwo, .srd, .idxr, .idxc, .fcmp, .fcls, .pand, .por, .pnot, .sel, .bsum, .bssq, .bmax, .bmin,
      .bcnt, .accs], (palmRun o).instrAt .body 0 = some (o, {}) := by decide +kernel
  exact fun o ho => palm_at o (h o ho)

theorem test_meets_PalmStoresComplete : ∀ o ∈ [PalmOp.st, .wcp, .stw],
    PalmAt (palmState o) atChunk o (palmRun o) 0 0 false { chunk := some 0 } ∧ (palmRun o).desc.record.hist = false := by
  have h : ∀ o ∈ [PalmOp.st, .wcp, .stw], (palmRun o).instrAt .body 0 = some (o, {}) := by decide +kernel
  exact fun o ho => ⟨palm_at o (h o ho), rfl⟩

/-- A run in its prologue, and one at its epilogue with no chunk left. -/
def prologue (o : PalmOp) : PalmRun := { desc := { pro := 1, body := 1 }, words := [(encodePalm o {}).toNat, 0] }
def epilogue : PalmRun := { desc := { body := 1, epi := 1 }, words := [0, (encodePalm .sts {}).toNat], combined := true }

theorem test_meets_ScalarInstructionsComplete : Issues (onPalm fun p => { p with run := some epilogue }) 0 ∧
    (prologue .lds).instrAt .prologue 0 = some (.lds, {}) ∧ (prologue .ldh).instrAt .prologue 0 = some (.ldh, {}) ∧
    (∀ q ∈ laneOps, (prologue q.2).instrAt .prologue 0 = some (q.2, {})) ∧ (prologue .nop).instrAt .prologue 0 = some (.nop, {}) ∧
    epilogue.chunksDone = true ∧ epilogue.instrAt .epilogue 0 = some (.sts, {}) :=
  ⟨⟨rfl, rfl⟩, by decide +kernel⟩

/-- The layer's update descriptor in near memory, with a body of one word, an STW at address 0. -/
def palmReady : State :=
  { dev := { (alive.onPalm 0 fun p => { p with queue := [3] }) with
      regs := regs [(R.PALM_CTL_EN.die 0, 1)], mem := { near := ((Memory.writeLE [] 0x303 1 4).writeLE 0x304 2 1).writeLE 0 8 (encodePalm .stw {}).toNat } } }
/-- The run that its descriptor names. -/
def readyRun : PalmRun :=
  { layer := 3, step := palmReady.dev.frm.step, desc := palmReady.dev.updateDesc 0 3, words := [palmReady.dev.near 0 8] }

theorem test_meets_PalmRunsComplete :
    ((3 : Nat) ∉ (run.dev.palm 0).seen ∧ (run.dev.palm 0).held = [] ∧ (run.dev.palm 0).queue.length < 64 ∧
      run.dev.fenceClear 0 2 3 = true) ∧
    (palmReady.dev.issues 0 = true ∧ (palmReady.dev.palm 0).run = none ∧ (palmReady.dev.palm 0).queue = [3] ∧
      (palmReady.dev.palm 0).held = [] ∧ palmReady.dev.unitPends 5 0 0 = false ∧ palmReady.dev.flag (R.PALM_CTL_EN.die 0) = true ∧
      palmReady.dev.ownedShard 3 0 = none ∧ palmReady.dev.frozenRun 0 readyRun = false ∧ readyRun.accepted = true ∧ palmReady.dev.bad (Device.runRanges 0 (palmReady.dev.updateDesc 0 3)) = none) ∧
    Device.runOver { desc := { body := 1 } } = true ∧
    (∀ s, s = ({ alive with mem := { near := Memory.writeLE [] 0x1001 1 2 } } : Device) → s.inForce (s.solveDesc 0 0) = some 4096) ∧
    (Free run 0 0 ∧ run.dev.inForce (run.dev.solveDesc 0 0) = none ∧ TDescOps.rankOk one = true ∧ run.dev.bad (Device.rootPieces one 0) = none ∧
      run.dev.bad (Device.rootPieces one 3) = none) := by
  refine ⟨?_, ?_, ?_, fun s h => by subst h; decide +kernel, free_run _, ?_⟩ <;>
  decide +kernel

theorem test_meets_PalmWordsRoundTrip : decodePalm 0x0D = none ∧ decodePalm (encodePalm .fcps { m := 7 }) = some (.fcps, { m := 7 }) := by
  decide
theorem test_meets_WrittenRegisterLanes : 511 < 512 ∧ (63 : BitVec 6) ≠ 0 := by decide

/-! ### Memory-side adders -/

/-- A staging area of 4 KiB on die 0, and the descriptor of group 5: one line, one key. -/
def groupReady : State :=
  { dev := { alive with
      regs := regs [((R.MEM_STAGE_SIZE_UNITS).nth 0, 1)], mem := { near := (Memory.writeLE [] 320 4 1).writeLE 324 2 1 } } }
def withGroup (g : Group) : State :=
  { dev := { groupReady.dev with dies := alive.dies.set 0 { adders := { groups := [g] } } } }
def line : List W32 := List.replicate 64 0x3F800000

theorem test_meets_AdderInstructionsComplete :
    (FreeFor groupReady {} ∧ ∃ v, groupReady.dev.openGroup 0 5 none groupReady.dev.frm.step = (v, true)) ∧
    ((withGroup { n := 1 }).dev.group? 0 0 = some { n := 1 } ∧ (Group.key { n := 1 } 0).state = .unresolved) ∧
    (TDescOps.rankOk one = true ∧ groupReady.dev.bad (TDescOps.ranges one .fp32) = none) ∧
    (0x100 % addBytes .i64s = 0 ∧ 0x100 + addBytes .i64s * [(1 : W64)].length ≤ 2 ^ 40 ∧
      groupReady.dev.bad [(.near, 0x100, 8)] = none ∧ groupReady.dev.bad [(.near, 0x200, 4)] = none) := by
  refine ⟨⟨⟨⟨rfl, by decide +kernel⟩, by decide +kernel⟩, (groupReady.dev.openGroup 0 5 none groupReady.dev.frm.step).1, ?_⟩, by decide +kernel⟩
  have h : (groupReady.dev.openGroup 0 5 none groupReady.dev.frm.step).2 = true := by decide +kernel
  rw [← h]

def keyed (k : GKey) : Group := { lines := 1, n := 1, keys := [(0, k)] }

theorem test_meets_AdderEventsComplete : Live (withGroup (keyed {})) ∧
    ((withGroup (keyed {})).dev.isHeld 0 0 0 = false ∧ (withGroup (keyed {})).dev.admits 0 0 0 = true ∧
      (withGroup (keyed {})).dev.bad [(.near, (withGroup (keyed {})).dev.stageAddr 0 ((withGroup (keyed {})).dev.freePlace 0), 256)] = none) ∧
    ((withGroup { keyed { seen := [1] } with ordered := false, lines := 2 }).dev.isHeld 0 0 0 = false ∧
      (Group.key { keyed { seen := [1] } with ordered := false, lines := 2 } 0).seen = [1] ∧
      (Group.key { keyed {} with ordered := false, lines := 2 } 0).seen = [] ∧
      (withGroup { keyed {} with ordered := false, demoted := true }).dev.admits 0 0 0 = true) ∧
    ((withGroup (keyed { seen := [0], staged := [(0, 0)] })).dev.isHeld 0 0 0 = false ∧
      (Group.stages (keyed { seen := [0], staged := [(0, 0)] })) = true) ∧
    Group.next (keyed { state := .ended }) = some 0 := ⟨rfl, by decide +kernel⟩

theorem test_meets_KeysApplyInOrder : Group.next { n := 2, keys := [(0, { state := .skipped }), (1, { state := .ended })] } = some 1 := by
  decide
theorem test_meets_IntegerAdds : (addElem .u32s 1 2).2 = false ∧ (addElem .u32s (addElem .u32s 1 2).1 3).2 = false ∧
    (addElem .i64s 1 2).2 = false ∧ (addElem .i64s (addElem .i64s 1 2).1 3).2 = false := by decide
theorem test_meets_IntegerAdds_frame : (∃ t, exec (.memorySideAdd .u32s 0x10 [1] 0x20 1) run = .next t) ∧
    (0x0F < 0x10 ∨ 0x10 + addBytes .u32s * 1 ≤ 0x0F) ∧ (addElems .u32s run.dev.mem.near 0x10 [1]).2 = false ∧
    run.dev.fld R.MEM_LOG_BASE_UNITS = 0 ∧ run.dev.bad [(.near, 0x10, 4)] = none ∧ 0x0F < 2 ^ 40 :=
  ⟨⟨_, rfl⟩, by decide +kernel⟩

/-! ### Hatbox, residual stream -/

def boxed : HbxRegion := { segs := [{ mb := 9, top := 256, ext := 256, recs := [{ mb := 9 }] }] }
def withBox : State :=
  { dev := { alive with dies := alive.dies.set 0 { hbx := [(0, boxed)] }, regs := regs [(Device.regionFld R.HBX_SIZE_UNITS 0 0, 16)] } }

theorem test_meets_ActivationInstructionsComplete : (Free withBox 0 0 ∧ FreeFor run {}) ∧
    (withBox.dev.fld (Device.regionFld R.HBX_SIZE_UNITS 0 0) ≠ 0 ∧ withBox.dev.region 0 0 = boxed ∧
      boxed.roomAt (withBox.dev.ringBytes 0 0) 256 (recordBytes 4) = true ∧ boxed.opened.dropLast.contains 9 = false ∧
      withBox.dev.bad (TDescOps.ranges one .fp32) = none ∧ withBox.dev.bad [(.near, withBox.dev.regionBase 0 0 + 256, recordBytes 4)] = none) ∧
    (run.dev.badDest one .fp32 = false ∧ TDescOps.rankOk one = true ∧ run.dev.bad (TDescOps.ranges one .fp32 ++ TDescOps.ranges one .fp32) = none) ∧
    (0 : BitVec 4).toNat ≤ 8 ∧ one.rnd ≠ 3 ∧
    run.dev.bad (TDescOps.ranges one .fp32 ++ TDescOps.ranges one .fp32 ++ Device.sideRanges 0 one one) = none :=
  ⟨⟨⟨⟨rfl, by decide +kernel⟩, by decide +kernel⟩, free_run _⟩, by decide +kernel⟩

theorem test_meets_PopReturnsTheNewest : Free withBox 0 0 ∧
    boxed.segs.zipIdx.find? (fun y => y.1.mb == 9 && y.1.recs != []) = some ({ mb := 9, top := 256, ext := 256, recs := [{ mb := 9 }] }, 0) ∧
    withBox.dev.bad [((withBox.dev.recordAddr 0 0 { mb := 9 }).1, (withBox.dev.recordAddr 0 0 { mb := 9 }).2, ({ mb := 9 } : HbxRec).bytes),
      (.tile 0, 0, 0)] = none := ⟨⟨⟨rfl, by decide +kernel⟩, by decide +kernel⟩, by decide +kernel⟩
/-- A record of four bytes at the bottom of a region. -/
theorem test_meets_PopReturnsTheNewest_record : ({ len := 4 } : HbxRec).place = .region ∧
    withBox.dev.regionBase 0 0 + ({ len := 4 } : HbxRec).off + ({ len := 4 } : HbxRec).bytes ≤ 2 ^ 40 ∧
    withBox.dev.bad [(.near, withBox.dev.regionBase 0 0 + ({ len := 4 } : HbxRec).off, ({ len := 4 } : HbxRec).bytes)] = none := by decide +kernel

/-! ### Cuff and Gauntlet -/

theorem test_meets_FoldsComplete : Live run ∧ run.dev.brimReads 0 {} = false ∧
    ({ alive with regs := regs [(R.CUFF_CTL_EN.die 0, 1)] } : Device).flag (R.CUFF_CTL_EN.die 0) = true := ⟨rfl, by decide +kernel⟩

def withGnt (g : Gnt) : State :=
  { dev := { alive with dies := alive.dies.set 0 { gnt := g }, regs := regs [(R.GNT_CTL_EN.die 0, 1)] } }

/-- A queued solve under REPLAY, with so many entries of the record, the first of which names step 0 and solve 4. -/
def replay (n : Nat) : State :=
  { dev := { (withGnt { queue := [.fresh 4 0] }).dev with
      regs := regs [(R.GNT_CTL_EN.die 0, 1), (R.GNT_CTL_REPLAY.die 0, 1), (R.GNT_RPL_SIZE_ENTRIES.die 0, n)]
      mem := { near := Memory.writeLE [] 12 2 4 } } }

theorem test_meets_SolveCommandsComplete : Live (withGnt {}) ∧ (withGnt {}).dev.flag (R.GNT_CTL_EN.die 0) = true ∧
    (((withGnt {}).dev.issues 0 = true ∧ ((withGnt {}).dev.palm 0).held = []) ∧ (4 : W16) ≠ 65535 ∧ Device.solveBusy ((withGnt {}).dev.gnt 0) 4 = false ∧
      (withGnt {}).dev.frozenSolve 0 4 = false) ∧
    (Device.nextFresh [.fresh 4 2] = some (4, 2) ∧
      (withGnt { queue := [.fresh 4 2] }).dev.foldPending 0 ((withGnt {}).dev.solveDesc 0 4) = false ∧
      (withGnt { queue := [.fresh 4 2] }).dev.replaying 0 = false ∧
      (withGnt { queue := [.fresh 4 2] }).dev.foldMoves ((withGnt {}).dev.solveDesc 0 4) = false ∧
      (withGnt { queue := [.fresh 4 2] }).dev.matrixFits 0 ((withGnt {}).dev.solveDesc 0 4) = true) ∧
    ((replay 1).dev.replaying 0 = true ∧ (replay 1).dev.replayEntry 0 4 = some (0, 0) ∧ (replay 0).dev.replayEntry 0 4 = none ∧
      (((replay 0).dev.replayMismatch 0 4).gnt 0).queue = []) ∧
    ((withGnt {}).dev.duty 0 ≠ 0 ∧ ((withGnt { queue := [.held {}] }).dev.gnt 0).queue = [.held {}] ∧
      ((withGnt { brim := some { phase := .assembled } }).dev.gnt 0).brim = some { phase := .assembled } ∧
      (withGnt { run := some { phase := .factor } }).dev.passesDone 0 = true) ∧
    ((withGnt { run := some { phase := .test } }).dev.gnt 0).run = some { phase := .test } ∧
    (Solve.finalRho (withGnt {}).dev.drawKey { phase := .test }).2 = false := ⟨rfl, by decide +kernel⟩

theorem test_meets_OnlyPassedSolvesCommit : outResidual ≠ outPassed := by decide

/-! ### Frame and program -/

/-- The clock of `alive` taken from a source, with a period of 1,000 µs, 1.25 of which have passed since the last tick. -/
def ticking (src : Nat) : State := { dev := { alive with frm := { alive.frm with since := 1250 }, regs := regs [(R.FRM_CTL_SRC, src), (R.FRM_CTL_PERIOD_US, 1000)] } }

/-- The same on the timer, so many µs after its last tick, which an external one may still replace. -/
def onTimer (src since : Nat) : State :=
  { dev := { (ticking src).dev with frm := { alive.frm with since, onTimer := true, replaceable := true } } }

theorem test_meets_TicksComplete : (Live run ∧ run.dev.frm.started = true ∧ run.dev.external = false) ∧
    (Live (ticking 2) ∧ (ticking 2).dev.fld R.FRM_CTL_SRC = 2 ∧ (ticking 2).dev.external = true ∧ (ticking 2).dev.frm.onTimer = false ∧
      ((ticking 2).dev.frm.afresh = false ∨ 9 * (ticking 2).dev.period ≤ 1000 * (ticking 2).dev.frm.since)) ∧
    (Live (ticking 1) ∧ (ticking 1).tap.holds = false ∧ (ticking 1).dev.fld R.FRM_CTL_SRC = 1 ∧ 9 * (ticking 1).dev.period ≤ 10 * 90000 ∧
      10 * 89999 < 9 * (ticking 1).dev.period) ∧
    (∀ n, n = (onTimer 2 1000).dev → n.external = true ∧ n.frm.onTimer = true ∧ n.frm.stay = false ∧ 9 * n.period ≤ 10 * (100 * n.frm.since) ∧
      10 * (100 * n.frm.since) ≤ 11 * n.period ∧ n.period < 10 * (100 * n.frm.since)) ∧
    (∀ n, n = (onTimer 2 100).dev → 10 * (100 * n.frm.since) ≤ n.period ∧ n.frm.replaceable = true) ∧
    (∀ n, n = (onTimer 2 101).dev → 10 * (100 * n.frm.since) < 9 * n.period ∧ n.period < 10 * (100 * n.frm.since)) ∧
    ((ticking 1).dev.external = true ∧ 5 * (ticking 1).dev.fld R.FRM_CTL_PERIOD_US ≤ 4 * (ticking 1).dev.frm.since) := 
  ⟨⟨rfl, by decide +kernel⟩, ⟨rfl, by decide +kernel⟩, ⟨rfl, by decide +kernel⟩, fun _ h => by subst h; decide +kernel,
    fun _ h => by subst h; decide +kernel, fun _ h => by subst h; decide +kernel, by decide +kernel⟩

theorem test_meets_TicksCount : idle.dev.cmd.dstate ≠ .running ∧ run.dev.cmd.dstate = .running ∧ run.dev.frm.stepRun = true ∧
    ({} : Outgoing) ∈ ({ alive with fab := { outgoing := [{}] } } : Device).fab.outgoing ∧
    ({ alive with fab := { outgoing := [{}] } } : Device).peerDead ({} : Outgoing).peer.val = false := by
  decide +kernel

theorem test_meets_ProgramCommandsComplete : Live run ∧ FreeFor run {} ∧ FreeFor run { die := 3 } ∧
    run.dev.bad [(.near, run.dev.watchRecord 2 0 0 + 0x44, 4)] = none ∧ ({} : Watch).zi = Val.ofInt 0 0 ∧
    (run.dev.cmd.job.map Job.jend) = some none ∧
    (({ alive with dies := alive.dies.set 2 { checks := [{}] } }.die 2).checks = [{}]) :=
  ⟨rfl, free_run _, ⟨⟨rfl, by decide +kernel⟩, by decide +kernel⟩, by decide +kernel⟩

/-! ### Fabric -/

def fabric (f : Fabric) : State := { dev := { alive with fab := f } }
def port0 (q : PortSt) : State := fabric { ports := [(0, q)] }

theorem test_meets_PortCommandsComplete : Live run ∧ ((run.dev.port 0).up = false ∧ run.dev.cmd.dstate ≠ .hold) ∧
    (∃ q, q = (port0 { up := true, partner := 3 }).dev.port 0 ∧ q.up = true ∧
      ((({ (port0 { up := true, partner := 3 }).dev with cmd := alive.cmd }.setPort 0 { partner := 3 }).portsUp = []))) ∧
    ((fabric { ports := [(0, { up := true }), (1, { up := true })] }).dev.setPort 0 {}).portsUp ≠ [] ∧
    (∃ q, q = (port0 { up := true }).dev.port 0 ∧ ({ seq := 0 } : Flit).seq = q.rxSeq ∧ (q.inbuf.filter fun f => f.vc == 0).length < 64) ∧
    (∃ q, q = (port0 { up := true, buf := [{}], replayRun := 6 }).dev.port 0 ∧ q.buf ≠ [] ∧ q.replayRun < 7) ∧
    (∃ q, q = (port0 { up := true, buf := [{}], replayRun := 7 }).dev.port 0 ∧ q.buf ≠ [] ∧ 7 ≤ q.replayRun) ∧
    (port0 { up := true }).dev.peerDead 3 = false :=
  ⟨rfl, by decide +kernel, ⟨_, rfl, by decide +kernel⟩, by decide +kernel, ⟨_, rfl, by decide +kernel⟩, ⟨_, rfl, by decide +kernel⟩,
    ⟨_, rfl, by decide +kernel⟩, by decide +kernel⟩

/-- Peers by index, state and flags. -/
def peersOf (l : List (Nat × Nat × Nat)) : Memory := l.foldl (fun m x => (m.writeLE (32 * x.1 + 8) 1 x.2.1).writeLE (32 * x.1 + 9) 1 x.2.2) []
/-- This device, of index 0, is the tick master; peer 1 was lost a frame ago; peer 2 is a spare; and a record sink is enabled. -/
def losing : State :=
  { dev := { alive with
      fab := { peers := peersOf [(0, 1, 5), (1, 2, 4), (2, 4, 0)], lostTicks := [(1, 1)] },
      regs := regs [(R.FRM_CTL_SRC, 2), (R.FAB_CTL_SPARE_FRAMES, 1), (R.FAB_DS_SINK_EN.nth 0, 1), (R.FAB_DS_SINK_HOST.nth 0, 1)] } }

theorem test_meets_PeerCommandsComplete : Live losing ∧
    losing.dev.peerDead 0 = false ∧ (losing.dev.peerDead 2 = false ∧ losing.dev.peerState 2 ≠ 0 ∧ 2 ≠ losing.dev.selfIdx) ∧ 0 = losing.dev.selfIdx ∧
    (losing.dev.peerDead 1 = true ∧ losing.dev.peerState 2 = 4 ∧ losing.dev.selfIdx ≠ 2) ∧
    (losing.dev.fld R.FAB_CTL_SPARE_FRAMES ≠ 0 ∧ losing.dev.master = some losing.dev.selfIdx ∧ losing.dev.peerMember 1 = true ∧
      losing.dev.fab.takeover = none ∧ losing.dev.bandUp = true ∧
      losing.dev.fld R.FAB_CTL_SPARE_FRAMES ≤ Sparse.get 0 1 losing.dev.fab.lostTicks ∧ losing.dev.firstSpare = some 2 ∧
      losing.dev.sinks ≠ []) ∧ ({ alive with procs := { alive.procs with q1 := {} } } : Device).bandUp = false := ⟨rfl, by decide +kernel⟩

/-- Shard entry 0 belongs to peer 1; entry 1 to this device at version 5. -/
def shards : State :=
  { dev := { alive with mem := { near := ((Memory.writeLE [] 0x40004 2 1).writeLE 0x40060 4 5) }, fab := { migrating := [1], copyDue := [1] } } }

/-- The same while entry 1 moves to another die of this device, and with a replica of entry 0 at the version of the step before. -/
def moving : State := { dev := { shards.dev with fab := { shards.dev.fab with leaving := [{ entry := 1, folded := true }] } } }
def replicated : State :=
  { dev := { shards.dev with fab := { replicas := [{ entry := 0, version := shards.dev.frm.step - 1, addr := 0x500, pinned := true }] } } }

/-- A weight of a shard that this device holds, and a verified replica of a peer's. -/
theorem test_meets_VectorInstructionsComplete_shard : AtHand replicated.dev { shard := some 1 } ∧
    AtHand replicated.dev { shard := some 0, addr := 0x500 } := by
  refine ⟨fun e h => ?_, fun e h => ?_⟩ <;> obtain rfl := Option.some.inj h
  · exact .inl (by decide +kernel)
  · exact .inr (by decide +kernel)

theorem test_meets_ShardCommandsComplete : Live shards ∧
    (shards.dev.bandUp = true ∧ shards.dev.entryOwner 0 ≠ shards.dev.selfIdx ∧ shards.dev.fab.takeover = none) ∧
    (shards.dev.entryOwner 1 = shards.dev.selfIdx ∧ 0 < (6 - shards.dev.entryVersion 1).toNat ∧ (6 - shards.dev.entryVersion 1).toNat < 2 ^ 31) ∧
    ((5 - shards.dev.entryVersion 1).toNat = 0 ∧ shards.dev.goneVersion 1 5 = false) ∧
    (2 ^ 31 ≤ (3 - shards.dev.entryVersion 1).toNat ∧ shards.dev.goneVersion 1 3 = false) ∧
    (2 ^ 31 ≤ (2 - shards.dev.entryVersion 1).toNat ∧ shards.dev.goneVersion 1 2 = true) ∧
    (shards.dev.publishedDigest 1 5 = some (shards.dev.shardDigest 1 []) ∧ shards.dev.bad [(.near, 0x500, 0)] = none) ∧ (7 : W32) ∉ shards.dev.fab.abandoned ∧
    ((shards.dev.issues 0 = true ∧ (shards.dev.palm 0).held = []) ∧ shards.dev.replicaAt 0 0x500 = false ∧ shards.dev.fab.asked = [] ∧
      shards.dev.ownStandIn 0 = none) ∧
    shards.dev.peerDead (shards.dev.entryOwner 0) = false ∧
    ((moving.dev.fab.leaving.filter fun l => l.peer == moving.dev.selfIdx && l.entry == 1) = [{ entry := 1, folded := true }] ∧
      1 ∈ moving.dev.fab.migrating ∧ (shards.dev.fab.leaving.filter fun l => l.peer == shards.dev.selfIdx && l.entry == 1) = []) ∧
    (1 ∈ shards.dev.fab.migrating ∧ shards.dev.layerSides (shards.dev.entryLayer 1) = []) ∧ (1 ∈ shards.dev.fab.copyDue ∧ 1 ∉ shards.dev.fab.exportDue ∧ shards.dev.cmd.dstate = .running) := ⟨rfl, by decide +kernel⟩

/-- A version still to be exported and one sent to peer 3, with the cutoff's time come. -/
def cutting : State :=
  { dev := { alive with frm := { alive.frm with since := 900 }, regs := regs [(R.FAB_CTL_CUTOFF_PCT, 90), (R.FRM_CTL_PERIOD_US, 1000)],
                        fab := { exportDue := [1], records := [{ entry := 1, version := 5, sinks := [3] }] } } }
/-- Entry 0 of peer 1 has 4 contributors; the sum of step 2 with key 3 has gone out to it, and step 3 runs. -/
def contributing : State :=
  { dev := { alive with
      frm := { alive.frm with step := 3 }, mem := { near := ((Memory.writeLE [] 0x40004 2 1).writeLE 0x40020 4 2).writeLE 0x40038 2 4 }
      fab := { sums := [{ entry := 0, key := 3, step := 2, ended := true }, { entry := 0, key := 2, step := 2, epoch := 7 }] } } }

theorem test_meets_ShardCommandsComplete_contributions : (Live cutting ∧ cutting.dev.cutoffTime = true) ∧
    (contributing.dev.entryOwner 0 = 1 ∧ contributing.dev.peerDead 1 = false ∧ contributing.dev.entryN 0 = 4 ∧
      (contributing.dev.fab.sums.find? fun y => y.entry == 0 && y.key == 3 && y.step == 2) =
        some { entry := 0, key := 3, step := 2, ended := true } ∧ contributing.dev.entryVersion 0 = 2 ∧
      (∀ y ∈ contributing.dev.fab.sums, contributing.dev.lateDue y = false) ∧
      (contributing.dev.fab.sums.find? fun y => y.entry == 0 && y.key == 2 && y.step == 2) =
        some { entry := 0, key := 2, step := 2, epoch := 7 } ∧ (7 : Byte) ≠ contributing.dev.fab.epoch) := ⟨⟨rfl, by decide +kernel⟩, by decide +kernel⟩

/-- The owner of entry 0, peer 1, is lost; this device, of index 0, and the ACTIVE peers 2 and 3 contribute to it. Where `holds`, a replica of
the version of the step before lies at 0x500. -/
def orphaned (holds : Bool) : State :=
  { dev := { alive with
      mem := { near := (((Memory.writeLE [] 0x40004 2 1).writeLE 0x40038 2 3).writeLE 2 2 2).writeLE 4 2 3 }
      fab := { peers := peersOf [(0, 1, 5), (1, 2, 4), (2, 1, 4), (3, 1, 4)],
               replicas := if holds then [{ entry := 0, version := alive.frm.step - 1, addr := 0x500, pinned := true }] else [] } } }

theorem test_meets_ShardCommandsComplete_orphaned :
    (Free (orphaned true) 0 0 ∧ (orphaned true).dev.entryOwner 0 ≠ (orphaned true).dev.selfIdx ∧ (orphaned true).dev.replicaAt 0 0 = false ∧
      ((orphaned true).dev.ownStandIn 0).isSome = true ∧ (orphaned true).dev.bad [(.near, 0, 0)] = none) ∧
    (∀ t, t = (orphaned false).dev.onFab (fun f => { f with passed := f.passed ++ [(0, (orphaned false).dev.fetchFrom 0)] }) →
      t.peerDead (t.entryOwner 0) = true ∧ t.ownStandIn 0 = none ∧ t.standIn 0 = some 3) :=
  ⟨⟨⟨⟨rfl, by decide +kernel⟩, fun _ h => nomatch h⟩, by decide +kernel⟩, fun _ h => by subst h; decide +kernel⟩

/-- A far contribution: MADD to entry 0, with no lines of its key in this step. -/
theorem test_meets_AdderInstructionsComplete_far : FreeFor contributing {} ∧ contributing.dev.entryOwner 0 ≠ contributing.dev.selfIdx ∧
    contributing.dev.bad (TDescOps.ranges one .fp32) = none ∧
    (contributing.dev.fab.sums.any fun y => y.entry == 0 && y.key == 3 && y.step == contributing.dev.frm.step) = false :=
  ⟨⟨⟨rfl, by decide +kernel⟩, by decide +kernel⟩, by decide +kernel⟩

/-- `losing` while it restores, as device 0, which is the master, and as device 5, which is not. -/
def restoring (self : Nat) : State :=
  { dev := { losing.dev with
      fab := { losing.dev.fab with restoring := true }, regs := losing.dev.regs.setFld R.FAB_SELF_INDEX self } }

theorem test_meets_StreamCommandsComplete : Live cutting ∧
    (cutting.dev.fab.exportDue.find? fun z => cutting.dev.entryLayer z == cutting.dev.entryLayer 1 &&
      cutting.dev.entryShard z == cutting.dev.entryShard 1) = some 1 ∧
    ((cutting.dev.fab.records.find? fun r => r.version == 5 && r.sinks.any (· == 3) && !r.acks.any (· == 3)).isSome = true) ∧
    (cutting.dev.fab.records.find? fun r => r.version == 6 && r.sinks.any (· == 3) && !r.acks.any (· == 3)) = none ∧
    (restoring 0).dev.fab.restoring = true ∧ (restoring 0).dev.bandUp = true ∧ (restoring 0).dev.master = some (restoring 0).dev.selfIdx ∧
    ((restoring 5).dev.master = some 0 ∧ 0 ≠ (restoring 5).dev.selfIdx) := ⟨rfl, by decide +kernel⟩
/-- A base record of a shard without elements, version 5, without segments: it is in place. -/
def baseRecord : List Byte := [2, 0, 0, 0, 0, 0, 0, 0, 5, 0, 0, 0] ++ List.replicate 52 (0 : Byte)
theorem test_meets_StreamCommandsComplete_restored :
    (match ({ losing.dev with mem := { near := Memory.writeLE [] 0x40020 4 5 } } : Device).restoreShard { entry := 0, records := [baseRecord] } with
      | .ok v => v.fab.restored
      | .error _ => []) = [0] := by decide +kernel

/-! ### Rings and packets -/

/-- `s` with the packet `p` next on ring 0, which is enabled, and some fields in force. -/
def asks (s : State) (p : Pkt) (l : List (Fld × Nat) := []) : State :=
  { s with dev := { s.dev with
      regs := regs ((R.CMD_RCTL_EN.nth 0, 1) :: l)
      cmd := { s.dev.cmd with rings := s.dev.cmd.rings.set 0 { tail := Device.packetBytes p } } } }
def pkt (job : W64) (pl : List Byte) : Pkt := { job, len := BitVec.ofNat 32 pl.length, payload := pl }
def zs (n : Nat) : List Byte := List.replicate n 0

theorem test_meets_RingCommandsComplete : Live (asks idle (pkt 0 [])) ∧
    ((asks idle (pkt 0 [])).dev.ringEn 0 = true ∧ 64 < (asks idle (pkt 0 [])).dev.ringSize 0 ∧
      (((asks idle (pkt 0 [])).dev.ring 0).tail + (asks idle (pkt 0 [])).dev.ringSize 0 - ((asks idle (pkt 0 [])).dev.ring 0).head) %
        (asks idle (pkt 0 [])).dev.ringSize 0 ≤ 64) ∧
    (idle.dev.ringEn 0 = false ∧ idle.dev.ringStopped 0 = true) ∧
    ((asks idle (pkt 0 [])).dev.packetDue (pkt 0 []) = true ∧ (asks idle (pkt 0 [])).dev.badPacket (pkt 0 []) = false ∧
      3 < (4 : W16).toNat ∧ idle.dev.cmd.dstate ≠ .hold ∧ idle.nv.lifecycle ≠ .end_ ∧ idle.dev.cmd.handshake = true) ∧
    (idle.dev.statusFull 0 = false ∧ (idle.dev.writeFields 0 R.CMD_SHEAD 1).statusFull 0 = true) := ⟨rfl, by decide +kernel⟩

theorem test_meets_QueryAndJobPacketsComplete_queries :
    (Accepts (asks idle (pkt 0 (zs 32))) (pkt 0 (zs 32)) 0x01 ∧ zeros (Device.payloadOf (pkt 0 (zs 32))) 0x10 16 = true) ∧
    Accepts (asks idle (pkt 0 [])) (pkt 0 []) 0x02 ∧
    (Accepts (asks run (pkt 7 (zs 8))) (pkt 7 (zs 8)) 0x14 ∧
      ((taken (asks run (pkt 7 (zs 8))) (pkt 7 (zs 8)) 0x14).findJob 7).isSome = true) ∧
    Accepts (asks run (pkt 0 (zs 8))) (pkt 0 (zs 8)) 0x15 :=
  ⟨⟨⟨rfl, by decide +kernel⟩, by decide +kernel⟩, ⟨rfl, by decide +kernel⟩, ⟨⟨rfl, by decide +kernel⟩, by decide +kernel⟩,
    ⟨rfl, by decide +kernel⟩⟩

/-- A job of share 1 and one stage; a join of sequence 5 with one cost. -/
def job9 : Pkt := pkt 9 (zs 0x12 ++ [1, 0, 0, 0, 1] ++ zs 49)
def join5 : Pkt := pkt 7 ([5] ++ zs 7 ++ [1] ++ zs 23)
def queued : State := { dev := { alive with cmd := { alive.cmd with queue := [{ id := 9 }] } } }
def admitted : State := { dev := { alive with cmd := { alive.cmd with admitted := [{ sid := 5 }] } } }
def yield0 : Pkt := pkt 7 (zs 8)
def cancel : Pkt := pkt 7 (1 :: zs 7)
def abort7 : Pkt := pkt 7 []
def leave5 : Pkt := pkt 7 (5 :: zs 7)

theorem test_meets_QueryAndJobPacketsComplete_jobs :
    (Accepts (asks idle job9) job9 0x10 ∧ job9.job ≠ 0 ∧ (taken (asks idle job9) job9 0x10).findJob 9 = none ∧
      Device.badJob (Device.payloadOf job9) (Device.jobOf (Device.refOf job9 0x10) (Device.payloadOf job9)) = false) ∧
    (Accepts (asks queued (pkt 9 [])) (pkt 9 []) 0x11 ∧
      ((taken (asks queued (pkt 9 [])) (pkt 9 []) 0x11).cmd.queue.find? fun j => j.id == 9) = some { id := 9 }) ∧
    (Accepts (asks run yield0) yield0 0x12 ∧ (taken (asks run yield0) yield0 0x12).named (Device.refOf yield0 0x12) = true ∧
      (taken (asks run yield0) yield0 0x12).jobEnding = false ∧ (taken (asks run yield0) yield0 0x12).cmd.yieldSeen = false) ∧
    (Accepts (asks run cancel) cancel 0x12 ∧ field (Device.payloadOf cancel) 0 8 = 1) ∧ Accepts (asks run abort7) abort7 0x13 ∧
    (Accepts (asks run join5) join5 0x20 ∧ Device.badJoin (Device.payloadOf join5) = false) ∧
    (Accepts (asks admitted leave5) leave5 0x21 ∧ (taken (asks admitted leave5) leave5 0x21).isAdmitted 5 = true) :=
  ⟨⟨⟨rfl, by decide +kernel⟩, by decide +kernel⟩, ⟨⟨rfl, by decide +kernel⟩, by decide +kernel⟩,
    ⟨⟨rfl, by decide +kernel⟩, by decide +kernel⟩, ⟨⟨rfl, by decide +kernel⟩, by decide +kernel⟩, ⟨rfl, by decide +kernel⟩,
    ⟨⟨rfl, by decide +kernel⟩, by decide +kernel⟩, ⟨⟨rfl, by decide +kernel⟩, by decide +kernel⟩⟩

def reshard1 : Pkt := pkt 7 (zs 16 ++ [1] ++ zs 7)
def ring16M : Pkt := pkt 0 (zs 11 ++ [1] ++ zs 4)
def move4 : Pkt := pkt 0 (zs 24 ++ [4] ++ zs 7)
def stage1 : Pkt := pkt 0 (zs 16 ++ [1] ++ zs 7)
def hostSinks : List (Fld × Nat) := [(R.FAB_DS_SINK_EN.nth 0, 1), (R.FAB_DS_SINK_HOST.nth 0, 1)]
def staged : State := { idle with nv := { good1 := true } }
/-- The host's ring of records with a record of 64 bytes at its start. -/
def ringed : State := { dev := { alive with cmd := { alive.cmd with hostRing := some { size := 4096, next := 64, recs := [(0, 64, {})] } } } }

/-- What a bundle and a calibration set hold is checked by functions of Config that nothing evaluates: the hypotheses about them are left out
here. -/
theorem test_meets_DataPacketsComplete :
    (Accepts (asks run reshard1) reshard1 0x30 ∧ zeros (Device.payloadOf reshard1) 0x11 3 = true ∧ run.dev.fab.reshard = none ∧
      (taken (asks run reshard1) reshard1 0x30).jobEnding = false ∧
      BitVec.ofNat 8 (field (Device.payloadOf reshard1) 0x10 1) = run.dev.fab.epoch + 1) ∧
    (Accepts (asks run (pkt 7 [])) (pkt 7 []) 0x31 ∧ (taken (asks run (pkt 7 [])) (pkt 7 []) 0x31).jobEnding = false) ∧
    (Accepts (asks idle ring16M) ring16M 0x32 ∧ field (Device.payloadOf ring16M) 8 8 = 2 ^ 24) ∧
    (Accepts (asks run (pkt 7 (zs 8)) hostSinks) (pkt 7 (zs 8)) 0x33 ∧
      Device.hostSink ∈ (taken (asks run (pkt 7 (zs 8)) hostSinks) (pkt 7 (zs 8)) 0x33).sinks ∧
      (taken (asks run (pkt 7 (zs 8)) hostSinks) (pkt 7 (zs 8)) 0x33).cmd.hostRing = none ∧
      ((taken (asks ringed (pkt 7 (64 :: zs 7)) hostSinks) (pkt 7 (64 :: zs 7)) 0x33).cmd.hostRing.map fun h =>
        (decide (field (Device.payloadOf (pkt 7 (64 :: zs 7))) 0 8 ≤ h.size), (h.recs.takeWhile (Device.recordBefore h 64)).length)) =
          some (true, 1)) ∧
    (Accepts (asks idle move4) move4 0x40 ∧ (Device.transferOf (Device.refOf move4 0x40) (Device.payloadOf move4) true).isSome = true) ∧
    (Accepts (asks idle move4) move4 0x41 ∧ (Device.transferOf (Device.refOf move4 0x41) (Device.payloadOf move4) false).isSome = true) ∧
    (Accepts (asks idle stage1) stage1 0x50 ∧ field (Device.payloadOf stage1) 0x10 1 = 1 ∧ 1 ≠ idle.nv.boot) ∧
    (Accepts (asks staged cancel) cancel 0x51 ∧ staged.nv.good 1 = true ∧ 1 ≠ staged.nv.boot ∧ staged.dev.cmd.activation = none ∧
      staged.dev.pwr.emergency = false) ∧
    Accepts (asks run (pkt 0 (zs 8))) (pkt 0 (zs 8)) 0x60 ∧ Accepts (asks idle (pkt 0 (zs 8))) (pkt 0 (zs 8)) 0x61 ∧
    (Accepts (asks idle (pkt 0 [])) (pkt 0 []) 0x62 ∧ idle.dev.cmd.dstate = .ready ∧ idle.dev.cmd.queue = []) ∧
    (Accepts (asks run (pkt 0 (zs 40))) (pkt 0 (zs 40)) 0x70 ∧ run.nv.lifecycle ≠ .test ∧ run.nv.lifecycle ≠ .end_) :=
  ⟨⟨⟨rfl, by decide +kernel⟩, by decide +kernel⟩, ⟨⟨rfl, by decide +kernel⟩, by decide +kernel⟩, ⟨⟨rfl, by decide +kernel⟩, by decide +kernel⟩,
    ⟨⟨rfl, by decide +kernel⟩, by decide +kernel⟩, ⟨⟨rfl, by decide +kernel⟩, by decide +kernel⟩,
    ⟨⟨rfl, by decide +kernel⟩, by decide +kernel⟩, ⟨⟨rfl, by decide +kernel⟩, by decide +kernel⟩,
    ⟨⟨rfl, by decide +kernel⟩, by decide +kernel⟩, ⟨rfl, by decide +kernel⟩, ⟨rfl, by decide +kernel⟩,
    ⟨⟨rfl, by decide +kernel⟩, by decide +kernel⟩, ⟨⟨rfl, by decide +kernel⟩, by decide +kernel⟩⟩

/-- Format 1, operation ADVANCE to RETURN, no data, and a signature of 1,280 bytes. -/
def advance3 : Pkt := pkt 0 ([1, 0, 1, 3] ++ zs 0x3C ++ zs 1280)

/-- The signature over a request, the device's own number in it and its identity certificate are constants of Config that nothing
evaluates: the hypotheses that compare with them are left out here. -/
theorem test_meets_LifecyclePacketsComplete :
    (Accepts (asks idle advance3) advance3 0x71 ∧ (into (asks idle advance3) (taken (asks idle advance3) advance3 0x71)).dev.cmd.dstate = .ready ∧
      State.requestShaped (requestOf (Device.payloadOf advance3)) (Device.payloadOf advance3) = true ∧
      (requestOf (Device.payloadOf advance3)).op = some .advance ∧
      (into (asks idle advance3) (taken (asks idle advance3) advance3 0x71)).nv.lifecycle = .field) ∧
    (Accepts (asks idle cancel) cancel 0x03 ∧ idle.refclk = true ∧ leVal (Device.payloadOf cancel) = 1) ∧
    (Accepts (asks idle yield0) yield0 0x03 ∧ leVal (Device.payloadOf yield0) = 0) :=
  ⟨⟨⟨rfl, by decide +kernel⟩, by decide +kernel⟩, ⟨⟨rfl, by decide +kernel⟩, by decide +kernel⟩,
    ⟨⟨rfl, by decide +kernel⟩, by decide +kernel⟩⟩

/-! ### Jobs and firmware -/

def chosen : State := { dev := { idle.dev with cmd := { idle.dev.cmd with queue := [{ id := 9 }] } } }
def starting (m : Bool) (l : List (Fld × Nat)) : State :=
  { dev := { alive with regs := regs l, cmd := { alive.cmd with dstate := .starting, mismatch := m, job := some {} } } }
def closing : State := { dev := { alive with cmd := { alive.cmd with dstate := .ending, job := some { phase := .ending false } } } }

theorem test_meets_JobEventsComplete :
    (Live chosen ∧ chosen.dev.mayChoose = true ∧ chosen.dev.decayAll.choose = some { id := 9 }) ∧
    ((starting true []).dev.mayLoad = true ∧ (starting true []).dev.cmd.mismatch = true) ∧
    ((starting false [(R.MEM_STACK_STATE.nth 3, 2)]).dev.mayLoad = true ∧ (starting false [(R.MEM_STACK_STATE.nth 3, 2)]).dev.stackState 3 = 2) ∧
    ((starting false [(R.GLB_ERR_STAT_LATCHED, 1)]).dev.mayLoad = true ∧ (∀ k, k < 8 → (starting false [(R.GLB_ERR_STAT_LATCHED, 1)]).dev.stackState k ≠ 2)) ∧
    ((starting false []).dev.flag R.GLB_ERR_STAT_LATCHED = false ∧ ((starting false []).dev.loadAll 0 [({ kind := 9 }, none)]).2 = false ∧
      ((starting false []).dev.loadAll 0 []).2 = true ∧ ((starting false []).dev.loadAll 0 []).1.jobEnding = false) ∧
    hostLink 8 12 = true ∧ chosen.dev.wiping = false ∧
    (closing.dev.mayClose = true ∧ (closing.dev.cmd.job.map fun j => (j.phase, j.desc.self, j.desc.rsid)) = some (.ending false, 0xFFFF, 0)) ∧
    (idle.dev.procs.q2.up = true ∧ ({ alive with procs := { alive.procs with q2 := {} } } : Device).procs.q2.up = false) ∧
    (({ idle.dev with regs := regs [(R.MEM_STAT_WIPING, 1)] } : Device).wiping = true ∧ idle.dev.cmd.dstate ≠ .notReady) :=
  ⟨⟨rfl, by decide +kernel⟩, by decide +kernel⟩

/-- A job with a retained set of its own number, and one that is chosen while a wipe runs. -/
def kept : State := { dev := { idle.dev with cmd := { idle.dev.cmd with queue := [{ id := 9, rsid := 5 }], retained := 5 } } }
def wipingNow : State := { dev := { chosen.dev with regs := regs [(R.MEM_STAT_WIPING, 1)] } }
theorem test_meets_JobEventsComplete_chosen :
    (Live kept ∧ kept.dev.mayChoose = true ∧ kept.dev.decayAll.choose = some { id := 9, rsid := 5 } ∧ kept.dev.cmd.retained = 5) ∧
    (wipingNow.dev.mayChoose = true ∧ wipingNow.dev.decayAll.choose = some { id := 9 } ∧ wipingNow.dev.wiping = true) :=
  ⟨⟨rfl, by decide +kernel⟩, by decide +kernel⟩

def activating (a : Activation) (p : Power) : Device := { alive with pwr := p, cmd := { alive.cmd with activation := some a } }

/-- New images loaded, and 1 s since the processors were ready. -/
def activated : Device := { activating { loading := true } {} with clockUs := 1000000 }

theorem test_meets_FirmwareEventsComplete : Live { dev := activating {} {} } ∧
    ((activating {} { quietUs := 100000 }).quiet = true ∧ (∀ p, ((activating {} {}).procs.get p).restarting = false)) ∧
    ((activating {} { emergency := true, emergUs := 60000001 }).pwr.emergency = true ∧
      60000000 < (activating {} { emergency := true, emergUs := 60000001 }).pwr.emergUs) ∧
    (∀ p, (activated.procs.get p).up = true ∧ (activated.procs.get p).activating = false ∧ (activated.procs.get p).restarting = false ∧
      (activated.procs.get p).readyUs + 1000000 ≤ activated.clockUs) ∧
    (idle.dev.procs.q0.up = true ∧ idle.dev.procs.q2.up = true) :=
  ⟨rfl, by decide +kernel⟩

/-! ### Registers, errors, block resets, processors -/

/-- A commit of the Cuff's group that waits on die 1, and the indirect window on the peer table. -/
def committing : State :=
  { dev := { idle.dev with regs := { regs [(R.IND_ADDR_SPACE, 0), (R.IND_ADDR_OFFSET, 2)] with commits := [{ group := 3, tag := 0, units := [(1, 0)] }] } } }

theorem test_meets_RegisterCommandsComplete : Live committing ∧ committing.dev.applyDue 3 1 0 = true ∧ (regAt R.FRM_CTL).isSome = true ∧
    committing.mapped 0x0FFFFFF0 false = false ∧ committing.mapped 0x0FFFFFF0 true = false ∧
    (committing.dev.windowWrite committing.dev.indSpace committing.dev.indOff 5).isSome = true ∧
    (committing.dev.windowRead 0 committing.dev.indSpace committing.dev.indOff).isSome = true := ⟨rfl, by decide +kernel⟩

theorem test_meets_RecoveryCommandsComplete : Live idle ∧ ((idle.dev.err.slot 63).any fun e => Device.retired e 0) = false ∧
    ((({ slots := [(63, some { idle.dev.entryOf 0x0504 3 0x0144 0 with state := .handled })] } : ErrQueue).slot 63).any fun e => Device.retired e 9) = true ∧
    idle.dev.cmd.dstate = .ready ∧ (∀ k ∈ [1, 2, 3, 4, 5, 6, 8], idle.dev.blockIdle k 0 = true) ∧ (idle.dev.blockIdle 7 15 = true) ∧
    ((3 : BitVec 4).toNat, (1 : BitVec 4).toNat) ∈ ({ idle.dev with blocks := [(3, 1)] } : Device).blocks := ⟨rfl, by decide +kernel⟩

def restarting : State := { dev := { alive with images := [0], procs := { alive.procs with q1 := { restarting := true, fails := 1 } } } }

theorem test_meets_RecoveryCommandsComplete_processors : Live restarting ∧ restarting.refclk = true ∧ restarting.dev.images ≠ [] ∧ restarting.dev.cmd.dstate ≠ .hold ∧
    (restarting.dev.procs.get (procIdx .band)).restarting = true ∧ (restarting.dev.procs.get (procIdx .peak)).up = true ∧
    restarting.dev.cmd.activation = none := ⟨rfl, by decide +kernel⟩

/-- A fatal error of near memory. -/
def fatal : ErrEntry := run.dev.entryOf 0x0305 2 0 0

theorem test_meets_PostedErrors : Numbered run.dev.err ∧ run.dev.err.nextSeq + 1 ≠ 0 ∧ ({ slots := [(0, some fatal)] } : ErrQueue).joins 0x0305 2 = some (0, fatal) ∧
    (run.dev.err.joins 0x0305 2 = none ∧ run.dev.err.freeSlot = some 0) :=
  ⟨⟨by decide, by decide⟩, by decide, by decide +kernel⟩

theorem test_meets_FatalErrorsEndTheJob : 2 ≤ fatal.sev ∧
    (run.dev.cmd.job.map fun j => (j.phase, j.desc.id)) = some (.running, 7) ∧ ∀ w, JobPhase.running ≠ .ending w := by decide +kernel

/-! ### I3C, TAP, memory -/

theorem test_meets_I3cCommandsComplete : I3cLive run ∧ run.dev.i3c.index = 0 ∧ run.dev.i3c.dyn = none ∧
    (({} : I3c).dyn = none ∧ ({ dyn := some 9 } : I3c).dyn ≠ none) ∧
    (1 : Byte).getLsbD 0 = true ∧ (2 : Byte).getLsbD 0 = false ∧ 2 ≤ (2 : Byte).toNat := ⟨⟨rfl, rfl, by decide +kernel⟩, by decide +kernel⟩

theorem test_meets_TapCommandsComplete : run.vaux = true ∧ (run.nv.debug = false ∧ ({ words := ⟨0, 0, 0, 0⟩ } : Nv).debug = true) ∧
    0x80 ≤ (0x80 : Byte).toNat ∧ (0x80 : Byte) ≠ 0xFF ∧ ((0x7F : Byte).toNat < 0x80 ∧ (0x7F : Byte).toNat ∉ [0x00, 0x01, 0x02, 0x04, 0x08]) ∧ ({ ir := 0 } : Tap).ir = 0x00 := by decide +kernel

/-- Trained stacks with the scrub on, stack 2 degraded with a lane marked, stack 3 in retraining, far port 0 up; no job. -/
def memory : State :=
  { dev := { idle.dev with
      regs := regs [(R.MEM_SCRUB_CTL_EN, 1), (R.MEM_STAT_TRAINED, 1), (R.MEM_FAR_STAT_WIDTH.nth 0, 8), (R.MEM_CTL_RETRAIN_IDLE, 1),
        (R.MEM_STACK_STATE.nth 2, 1)]
      lining := Memory.writeLE [] 0x400 2 0xA001 } }

theorem test_meets_MemoryEventsComplete : Live memory ∧ (memory.dev.stackState (stackOf 0x100) ≠ 2 ∧ 0x100 < 2 ^ 40) ∧
    (memory.dev.flag R.MEM_SCRUB_CTL_EN = true ∧ memory.dev.procs.q3.up = true ∧ memory.dev.flag R.MEM_STAT_TRAINED = true ∧
      memory.dev.unmapped false (256 * memory.dev.mem.scrubLine) = false) ∧
    (memory.dev.stackState 0 = 0 ∧ ((memory.dev.recordLanes 0 []).stackTrained 0 []).stackState 1 = 0) ∧
    (({ idle.dev with regs := regs [(R.MEM_STACK_STATE.nth 3, 3)] } : Device).stackState 3 = 3) ∧
    (memory.dev.flag R.MEM_CTL_RETRAIN_IDLE = true ∧ memory.dev.cmd.dstate = .ready ∧ memory.dev.stackState 2 = 1 ∧
      0 < memory.dev.stackMarks 2 true ∧ ∀ j, j < 8 → memory.dev.stackState j ≠ 3) ∧
    (memory.dev.portDown 1 = true ∧ memory.dev.cmd.job = none) ∧ memory.dev.portDown 0 = false ∧
    ({ alive with procs := { alive.procs with q3 := {} } } : Device).procs.q3.up = false := ⟨rfl, by decide +kernel⟩

/-- Two addresses one window apart, at the ends of the second one. -/
theorem test_meets_NearMapIsOneToOne : 2 ^ 38 < 2 ^ 40 ∧ 2 ^ 39 - 1 < 2 ^ 40 ∧ stackOf (2 ^ 38) ≠ stackOf 0 ∧ 2 ^ 31 - 1 = pseudoAddr (2 ^ 39 - 1) := by
  decide +kernel

/-! ### Power, supplies, formats -/

def clamped (f : Power → Power) : State := { dev := { alive with pwr := f { alive.pwr with clamp := true, calmUs := 1000 } } }

/-- The device's hottest junction where one diode senses `x`, in 1/16 °C. -/
def hotAt (x : Int) : Int := (run.dev.onPwr fun p => { p with diodes := [x].mapIdx run.dev.corrected }).deviceHot

theorem test_meets_PowerCommandsComplete : Live run ∧ hotAt (105 * 16) ≤ 105 * 16 ∧
    (105 * 16 < hotAt (105 * 16 + 1) ∧ hotAt (105 * 16 + 1) < 110 * 16) ∧ (110 * 16 ≤ hotAt (110 * 16) ∧ hotAt (110 * 16) < 115 * 16) ∧
    115 * 16 ≤ hotAt (115 * 16) ∧ (6 < run.dev.pwr.causes.length ∧ run.dev.hasCause 6 = false ∧ run.dev.pwr.causes.length = 7) ∧
    ((clamped id).dev.pwr.clamp = true ∧ (∀ c ∈ (clamped id).dev.pwr.causes, c = false) ∧ 1000 ≤ (clamped id).dev.pwr.calmUs ∧
      (clamped id).dev.procs.q0.up = true ∧ (clamped id).dev.pwr.thermN = false) ∧
    ((clamped fun p => { p with lowUs := Quad.all 98 }).dev.pwr.lowUs.get 0 + 1 < 100) ∧
    100 ≤ (clamped fun p => { p with lowUs := Quad.all 99 }).dev.pwr.lowUs.get 0 + 1 ∧
    (clamped fun p => { p with power := 10000001 }).dev.pwr.power > 1000 * 10000 := ⟨rfl, by decide +kernel⟩

theorem test_meets_DutyInForce : run.dev.pwr.clamp = false ∧ (clamped id).dev.pwr.clamp = true ∧ run.dev.duty 2 = 256 ∧
    ((clamped fun p => { p with clampDuty := Quad.all 255 }).dev.duty 2 < 256) := by decide +kernel

/-- What a bundle's signature is held against is a constant of Config that nothing evaluates: whether a slot verifies is left out here. -/
theorem test_meets_SupplyCommandsComplete : (run.rails = true ∧ run.refclk = true ∧ run.tap.holds = false) ∧
    (State.reset.dev.inReset = true ∧ State.reset.vaux = true ∧ State.reset.rails = true ∧ State.reset.refclk = true ∧
      State.reset.tap.holds = false ∧ State.reset.dev.cause ≠ 3) ∧
    (∀ u : State, u = ({ dev := { alive with store := [1] } } : State).beginReset 3 →
      u.dev.cause = 3 ∧ u.dev.store ≠ [] ∧ u.dev.inReset = true) ∧
    ({ alive with booting := true } : Device).booting = true ∧ run.dev.inReset = false :=
  ⟨by decide +kernel, by decide +kernel, fun u h => by subst h; decide +kernel, by decide +kernel⟩

theorem test_meets_SmallFloatMagnitudes : 7 < 8 ∧ 3 < 4 := by decide
theorem test_meets_MaximumAndMinimum : Val.inf true ≠ .nan ∧ Val.fin true 0 3 ≠ .nan ∧ Val.max2 (.fin true 0 3) (.fin true 0 (-3)) = .fin true 0 (-3) := by
  decide
theorem test_meets_ReplyLayout : (Device.replyBytes { ref := { seq := 0xFFFFFFFF, cookie := 5 }, status := 0x0503, result := 2 ^ 48 - 1, interim := true } true).take 8 =
    [0xFF, 0xFF, 0xFF, 0xFF, 0, 0, 0x03, 0x05] := by decide
/-- A reset of a running device: its count in BK8. -/
theorem test_meets_ResetClears : (run.beginReset 1).dev.bk 8 = 1 ∧ (run.beginReset 1).dev.cause = 1 := by decide +kernel

/-- The held line of an ordered group that finds room: clause of `StagingRetry` in AdderEventsComplete; and a key that is being applied. -/
def heldLine : HeldLine := { gid := 0, key := 0, epoch := 0, item := some (.line 0 line) }
def holding : State := { dev := (withGroup (keyed {})).dev.onAdders 0 fun x => { x with held := [heldLine] } }

theorem test_meets_AdderEventsComplete_held : (holding.dev.adders 0).held = [heldLine] ∧
    (((holding.dev.onAdders 0 fun x => { x with held := [] }).arriveNow 0 heldLine).adders 0).held.length ≤ 0 ∧
    ((withGroup { keyed { state := .ended } with applying := some 0 }).dev.group? 0 0).map Group.applying = some (some 0) := by decide +kernel

theorem test_meets_FoldsComplete_running : ((run.dev.onCuff 0 fun c => { c with folds := [{ running := true }] }).cuff 0).folds =
    [{ running := true }] := by decide +kernel
end Sys2Proof.Tests
end

section
/-! The number formats of spec/02: the value tables of the small floats (R37, R38) and the order behind maximum and minimum (R56). -/

namespace Sys2Proof.Machine

namespace FloatFmt

/-- A code whose magnitude fits its fields has the sign it was given. -/
theorem bitOf_withSign {f : FloatFmt} {c : Nat} (hc : c < 2 ^ (f.ew + f.fw)) (neg : Bool) :
    bitOf (f.withSign neg c) (f.ew + f.fw) = neg := by
  cases neg with
  | false => simp [bitOf, withSign, Nat.testBit_lt_two_pow hc]
  | true => simp [bitOf, withSign, Nat.testBit_two_pow_add_eq, Nat.testBit_lt_two_pow hc]

/-- A code whose magnitude fits its fields keeps it beside its sign. -/
theorem withSign_mod {f : FloatFmt} {c : Nat} (hc : c < 2 ^ (f.ew + f.fw)) (neg : Bool) :
    f.withSign neg c % 2 ^ (f.ew + f.fw) = c := by
  cases neg <;> simp [withSign, Nat.mod_eq_of_lt hc]

/-- The significand of R34: the fraction field, with the hidden bit above it where the exponent field is not 0. -/
def significand (f : FloatFmt) (e x : Nat) : Nat := if e = 0 then x else 2 ^ f.fw + x

/-- A format with no infinity and no NaN reads every code as a finite value, by its sign, exponent and fraction fields. -/
theorem decode_fields {f : FloatFmt} (hinf : f.infCode = none) (hnan : f.nanCode = 0) {e x : Nat}
    (he : e < 2 ^ f.ew) (hx : x < 2 ^ f.fw) (neg : Bool) :
    f.decode (f.withSign neg (2 ^ f.fw * e + x)) = .fin neg (f.significand e x) (((e - 1 : Nat) : Int) + f.qmin) := by
  have hc : 2 ^ f.fw * e + x < 2 ^ (f.ew + f.fw) := by
    calc 2 ^ f.fw * e + x < 2 ^ f.fw * (e + 1) := by rw [Nat.mul_succ]; omega
      _ ≤ 2 ^ f.fw * 2 ^ f.ew := Nat.mul_le_mul_left _ he
      _ = 2 ^ (f.ew + f.fw) := by rw [Nat.add_comm, pow_add]
  have hexp : (2 ^ f.fw * e + x) / 2 ^ f.fw = e := by
    rw [Nat.mul_add_div (by positivity), Nat.div_eq_of_lt hx, Nat.add_zero]
  have hfrac : (2 ^ f.fw * e + x) % 2 ^ f.fw = x := by rw [Nat.mul_add_mod, Nat.mod_eq_of_lt hx]
  simp only [decode, bitOf_withSign hc, withSign_mod hc, isNanCode, hinf, hnan, hexp, hfrac, significand]
  by_cases h0 : e = 0
  · simp [h0]
  · simp [h0]; omega

/-- FP4 E2M1 by its fields: in halves, with bit 3 as sign. -/
theorem decode_e2m1 {e x : Nat} (he : e < 4) (hx : x < 2) :
    e2m1.decode (2 * e + x) = .fin false (e2m1.significand e x) (((e - 1 : Nat) : Int) - 1) ∧
      e2m1.decode (8 + (2 * e + x)) = .fin true (e2m1.significand e x) (((e - 1 : Nat) : Int) - 1) :=
  ⟨decode_fields (f := e2m1) rfl rfl he hx false, decode_fields (f := e2m1) rfl rfl he hx true⟩

/-- FP6 E2M3 by its fields, in eighths. -/
theorem decode_e2m3 {e x : Nat} (he : e < 4) (hx : x < 8) :
    e2m3.decode (8 * e + x) = .fin false (e2m3.significand e x) (((e - 1 : Nat) : Int) - 3) :=
  decode_fields (f := e2m3) rfl rfl he hx false

/-- FP6 E3M2 by its fields, in sixteenths. -/
theorem decode_e3m2 {e x : Nat} (he : e < 8) (hx : x < 4) :
    e3m2.decode (4 * e + x) = .fin false (e3m2.significand e x) (((e - 1 : Nat) : Int) - 4) :=
  decode_fields (f := e3m2) rfl rfl he hx false

end FloatFmt

namespace Val

/-- The rational number a finite value is. -/
def rat (neg : Bool) (m : Nat) (e : Int) : ℚ := (if neg then -1 else 1) * m * (2 : ℚ) ^ e

/-- The units of a finite value at or below its exponent, scaled back, are the value. -/
theorem units_mul_zpow {q e : Int} (hq : q ≤ e) (neg : Bool) (m : Nat) :
    ((Val.fin neg m e).units q : ℚ) * 2 ^ q = rat neg m e := by
  have hpow : (2 : ℚ) ^ (e - q).toNat * 2 ^ q = 2 ^ e := by
    rw [← zpow_natCast, ← zpow_add₀ two_ne_zero, Int.toNat_of_nonneg (by omega), sub_add_cancel]
  cases neg <;> simp [units, rat, mul_assoc, hpow]

/-- The model's order of two finite values is the order of the numbers they are. -/
theorem lt_fin_iff {a b : Bool} {m n : Nat} {e f : Int} :
    (Val.fin a m e).lt (.fin b n f) = true ↔ rat a m e < rat b n f := by
  rw [← units_mul_zpow (min_le_left e f), ← units_mul_zpow (min_le_right e f),
    mul_lt_mul_iff_left₀ (by positivity), Int.cast_lt]
  exact decide_eq_true_iff

theorem lt_asymm {x y : Val} (h : x.lt y = true) : y.lt x = false := by
  cases x with
  | nan => simp [lt] at h
  | inf a => cases y <;> simp_all [lt]
  | fin a m e =>
    cases y with
    | nan => simp [lt] at h
    | inf b => simp_all [lt]
    | fin b n f => exact Bool.eq_false_iff.2 fun h' => (lt_fin_iff.1 h).asymm (lt_fin_iff.1 h')

theorem lt_irrefl (x : Val) : x.lt x = false := by
  cases h : x.lt x with
  | false => rfl
  | true => exact h ▸ lt_asymm h

/-- Only numbers are ordered. -/
theorem isNan_of_lt {x y : Val} (h : x.lt y = true) : (x.isNan || y.isNan) = false := by
  cases x <;> cases y <;> simp_all [lt, isNan]

theorem isNan_eq_false {x : Val} (hx : x ≠ .nan) : x.isNan = false := by
  cases x <;> simp_all [isNan]

theorem max2_of_lt {x y : Val} (h : x.lt y = true) : max2 x y = y ∧ max2 y x = y := by
  have hn := isNan_of_lt h
  simp [max2, hn, Bool.or_comm y.isNan, h, lt_asymm h]

theorem min2_of_lt {x y : Val} (h : x.lt y = true) : min2 x y = x ∧ min2 y x = x := by
  have hn := isNan_of_lt h
  simp [min2, hn, Bool.or_comm y.isNan, h, lt_asymm h]

/-- Where neither of two numbers is below the other, the sign of the first decides (R56: -0 below +0). -/
theorem max2_min2_of_tie {x y : Val} (hx : x ≠ .nan) (hy : y ≠ .nan) (hxy : x.lt y = false) (hyx : y.lt x = false) :
    max2 x y = (if x.sign then y else x) ∧ min2 x y = (if x.sign then x else y) := by
  simp [max2, min2, isNan_eq_false hx, isNan_eq_false hy, hxy, hyx]

theorem max2_self {x : Val} (hx : x ≠ .nan) : max2 x x = x := by
  simpa using (max2_min2_of_tie hx hx (lt_irrefl x) (lt_irrefl x)).1

theorem min2_self {x : Val} (hx : x ≠ .nan) : min2 x x = x := by
  simpa using (max2_min2_of_tie hx hx (lt_irrefl x) (lt_irrefl x)).2

/-- Plus infinity is the greatest number. -/
theorem lt_posInf {x : Val} (hx : x ≠ .nan) : x = .inf false ∨ x.lt (.inf false) = true := by
  cases x with
  | nan => exact absurd rfl hx
  | inf a => cases a <;> simp [lt]
  | fin a m e => exact .inr rfl

/-- Minus infinity is the least number. -/
theorem negInf_lt {x : Val} (hx : x ≠ .nan) : x = .inf true ∨ (Val.inf true).lt x = true := by
  cases x with
  | nan => exact absurd rfl hx
  | inf a => cases a <;> simp [lt]
  | fin a m e => exact .inr rfl

theorem max2_min2_nan (x : Val) : max2 .nan x = .nan ∧ max2 x .nan = .nan ∧ min2 .nan x = .nan ∧ min2 x .nan = .nan := by
  simp [max2, min2, isNan]

/-- Plus infinity against a number: the maximum is the infinity, the minimum the number. -/
theorem max2_min2_posInf {x : Val} (hx : x ≠ .nan) :
    max2 (.inf false) x = .inf false ∧ max2 x (.inf false) = .inf false ∧ min2 (.inf false) x = x ∧ min2 x (.inf false) = x := by
  obtain rfl | h := lt_posInf hx
  · exact ⟨max2_self hx, max2_self hx, min2_self hx, min2_self hx⟩
  · exact ⟨(max2_of_lt h).2, (max2_of_lt h).1, (min2_of_lt h).2, (min2_of_lt h).1⟩

/-- Minus infinity against a number: the maximum is the number, the minimum the infinity. -/
theorem max2_min2_negInf {x : Val} (hx : x ≠ .nan) :
    max2 (.inf true) x = x ∧ max2 x (.inf true) = x ∧ min2 (.inf true) x = .inf true ∧ min2 x (.inf true) = .inf true := by
  obtain rfl | h := negInf_lt hx
  · exact ⟨max2_self hx, max2_self hx, min2_self hx, min2_self hx⟩
  · exact ⟨(max2_of_lt h).1, (max2_of_lt h).2, (min2_of_lt h).1, (min2_of_lt h).2⟩

/-- Finite values that are the same number are not below each other. -/
theorem lt_eq_false_of_rat_eq {a b : Bool} {m n : Nat} {e f : Int} (h : rat a m e = rat b n f) :
    (Val.fin a m e).lt (.fin b n f) = false :=
  Bool.eq_false_iff.2 fun hlt => (lt_fin_iff.1 hlt).ne h

/-- Finite values that are the same number: the sign of the first decides. -/
theorem max2_min2_of_rat_eq {a b : Bool} {m n : Nat} {e f : Int} (h : rat a m e = rat b n f) :
    max2 (.fin a m e) (.fin b n f) = (if a then .fin b n f else .fin a m e) ∧
      min2 (.fin a m e) (.fin b n f) = (if a then .fin a m e else .fin b n f) :=
  max2_min2_of_tie (by simp) (by simp) (lt_eq_false_of_rat_eq h) (lt_eq_false_of_rat_eq h.symm)

theorem rat_zero (neg : Bool) (e : Int) : rat neg 0 e = 0 := by simp [rat]

/-- Two zeros are the same number, whatever their signs and exponents: the sign of the first decides. -/
theorem max2_min2_zeros (a b : Bool) (e f : Int) :
    max2 (.fin a 0 e) (.fin b 0 f) = (if a then .fin b 0 f else .fin a 0 e) ∧
      min2 (.fin a 0 e) (.fin b 0 f) = (if a then .fin a 0 e else .fin b 0 f) :=
  max2_min2_of_rat_eq ((rat_zero a e).trans (rat_zero b f).symm)

end Val

/-! ## The statements -/

/-- Settles O58: every code of the three formats is read by its fields, and the table's entry is the significand at that exponent. -/
theorem smallFloatMagnitudes : Obligations.SmallFloatMagnitudes := by
  refine ⟨fun c hc => ?fp4, fun e x he hx => ?e2m3, fun e x he hx => ?e3m2⟩
  case fp4 =>
    obtain ⟨hpos, hneg⟩ := FloatFmt.decode_e2m1 (e := c / 2) (x := c % 2) (by omega) (by omega)
    rw [Nat.div_add_mod] at hpos hneg
    refine ⟨_, _, hpos, Nat.add_comm c 8 ▸ hneg, ?_⟩
    clear hpos hneg
    revert c
    decide
  case e2m3 =>
    refine ⟨_, _, FloatFmt.decode_e2m3 he hx, ?_⟩
    revert x
    revert e
    decide
  case e3m2 =>
    refine ⟨_, _, FloatFmt.decode_e3m2 he hx, ?_⟩
    revert x
    revert e
    decide

/-- Settles O59: the order the two operations decide by is that of the rationals with the infinities around them, and a tie is decided
by the sign. -/
theorem maximumAndMinimum : Obligations.MaximumAndMinimum := by
  refine ⟨fun _ _ => rfl, Val.max2_min2_nan, fun x hx => ?inf, fun a b m n e f => ⟨fun h => ?gt, fun h => ?lt, fun h _ => ?same⟩,
    fun e f => ?zero⟩
  case inf =>
    obtain ⟨hmax, hmax', hmin, hmin'⟩ := Val.max2_min2_posInf hx
    obtain ⟨kmax, kmax', kmin, kmin'⟩ := Val.max2_min2_negInf hx
    exact ⟨hmax, hmax', kmax, kmax', kmin, kmin', hmin, hmin'⟩
  case gt => exact ⟨(Val.max2_of_lt (Val.lt_fin_iff.2 h)).2, (Val.min2_of_lt (Val.lt_fin_iff.2 h)).2⟩
  case lt => exact ⟨(Val.max2_of_lt (Val.lt_fin_iff.2 h)).1, (Val.min2_of_lt (Val.lt_fin_iff.2 h)).1⟩
  case same =>
    obtain ⟨hmax, hmin⟩ := Val.max2_min2_of_rat_eq h
    rw [hmax, hmin]
    cases a
    · exact ⟨.inl rfl, .inr rfl⟩
    · exact ⟨.inr rfl, .inl rfl⟩
  case zero =>
    obtain ⟨hmax, hmin⟩ := Val.max2_min2_zeros true false e f
    obtain ⟨hmax', hmin'⟩ := Val.max2_min2_zeros false true f e
    exact ⟨hmax, hmax', hmin, hmin'⟩

end Sys2Proof.Machine
end

section
/-! The layout of packed byte strings (spec/11): what a field reads from little-endian integers laid one after another, and the reply
of R308. -/

namespace Sys2Proof.Machine

/-- A field that starts at or behind the end of the first part is read from the rest. -/
theorem field_append_of_length_le {l : List Byte} {off : Nat} (h : l.length ≤ off) (r : List Byte) (n : Nat) :
    field (l ++ r) off n = field r (off - l.length) n := by
  rw [field, List.drop_append, List.drop_eq_nil_of_le h, List.nil_append, field]

/-- A field that is the whole first part reads that part's value. -/
theorem field_append_length (l r : List Byte) : field (l ++ r) 0 l.length = leVal l := by
  rw [field, List.drop_zero, List.take_left]

/-- Behind a packed integer the field is read from what follows it. -/
theorem field_leBytes_append_of_le {k off : Nat} (h : k ≤ off) (v n : Nat) (r : List Byte) :
    field (leBytes k v ++ r) off n = field r (off - k) n := by
  rw [field_append_of_length_le (by rwa [Memory.leBytes_length]), Memory.leBytes_length]

/-- A packed integer is read back modulo its width, whatever follows it. -/
theorem field_leBytes_append (n v : Nat) (r : List Byte) : field (leBytes n v ++ r) 0 n = v % 256 ^ n := by
  have h := field_append_length (leBytes n v) r
  rwa [Memory.leBytes_length, leVal_leBytes] at h

/-- A packed integer with nothing behind it is read back modulo its width. -/
theorem field_leBytes (n v : Nat) : field (leBytes n v) 0 n = v % 256 ^ n := by
  simpa using field_leBytes_append n v []

/-- A word of `n` bytes loses nothing when it is packed into `n` bytes. -/
theorem toNat_mod_bytes {n : Nat} (x : BitVec (8 * n)) : x.toNat % 256 ^ n = x.toNat :=
  Nat.mod_eq_of_lt (by simpa [pow_mul] using x.isLt)

/-- The flag half-word of R308 holds its two bits and zeros above them. -/
theorem flagBits_mod (p i : Bool) : (b2n p + 2 * b2n i) % 256 ^ 2 = b2n p + 2 * b2n i := by
  revert p i
  decide

namespace Device

theorem replyBytes_length (x : Reply) (phase : Bool) : (replyBytes x phase).length = 32 := by
  simp [replyBytes]

/-- Every field of a reply is read at its offset modulo its width: the integers before it are passed over one by one. -/
theorem field_replyBytes (x : Reply) (phase : Bool) :
    field (replyBytes x phase) 0x00 4 = x.ref.seq.toNat % 256 ^ 4 ∧ field (replyBytes x phase) 0x04 2 = x.ref.op.toNat % 256 ^ 2 ∧
    field (replyBytes x phase) 0x06 2 = x.status % 256 ^ 2 ∧ field (replyBytes x phase) 0x08 8 = x.ref.job.toNat % 256 ^ 8 ∧
    field (replyBytes x phase) 0x10 6 = x.result % 256 ^ 6 ∧
    field (replyBytes x phase) 0x16 2 = (b2n phase + 2 * b2n x.interim) % 256 ^ 2 ∧
    field (replyBytes x phase) 0x18 8 = x.ref.cookie.toNat % 256 ^ 8 := by
  simp only [replyBytes, List.append_assoc]
  refine ⟨?seq, ?op, ?status, ?job, ?result, ?flags, ?cookie⟩
  case cookie => simp [field_leBytes_append_of_le, field_leBytes]
  case seq | op | status | job | result | flags => simp [field_leBytes_append_of_le, field_leBytes_append]

end Device

/-! ## The statement -/

/-- Settles O60: each field is read back from its place modulo its width; the words and the flag bits fit their fields whole. -/
theorem replyLayout : Obligations.ReplyLayout := by
  intro x phase
  obtain ⟨hseq, hop, hstatus, hjob, hresult, hflags, hcookie⟩ := Device.field_replyBytes x phase
  exact ⟨Device.replyBytes_length x phase, hseq.trans (toNat_mod_bytes (n := 4) _), hop.trans (toNat_mod_bytes (n := 2) _), hstatus,
    hjob.trans (toNat_mod_bytes (n := 8) _), hresult, hflags.trans (flagBits_mod _ _), hcookie.trans (toNat_mod_bytes (n := 8) _)⟩

end Sys2Proof.Machine
end

section
/-! What no step of the block breaks: the duties' bounds, the form of the error queue and of every memory, and the fuses (O4 to O7). -/

set_option Elab.async false

namespace Sys2Proof.Machine

open Sys2Proof.Safety

namespace Sparse

/-- The keys of a canonical form rise strictly, from its lower bound up. -/
theorem wfFrom_pairwise {α : Type} [DecidableEq α] {d : α} :
    ∀ {lo : Nat} {m : Sparse α}, wfFrom d lo m = true → (m.map Prod.fst).Pairwise (· < ·) ∧ ∀ c ∈ m, lo ≤ c.1
  | _, [], _ => ⟨.nil, by simp⟩
  | lo, (a, v) :: rest, h => by
    obtain ⟨hlo, -, hr⟩ := wfFrom_cons.1 h
    obtain ⟨hp, hge⟩ := wfFrom_pairwise hr
    refine ⟨List.pairwise_cons.2 ⟨?_, hp⟩, ?_⟩
    · intro k hk
      obtain ⟨c, hc, rfl⟩ := List.mem_map.1 hk
      exact hge c hc
    · intro c hc
      rcases List.mem_cons.1 hc with rfl | hc
      · exact hlo
      · exact le_trans (by omega) (hge c hc)

end Sparse

/-! ## The error queue -/

namespace ErrQueue

/-- An entry that the queue may hold: its slot is one of the 64, and it counts 1 to 65,535 occurrences. -/
structure EntryOk (i : Nat) (e : ErrEntry) : Prop where
  place : i < 64
  count : 1 ≤ e.occ ∧ e.occ ≤ 65535

theorem mem_entries {q : ErrQueue} {x : Nat × ErrEntry} : x ∈ q.entries ↔ (x.1, some x.2) ∈ q.slots := by
  obtain ⟨i, e⟩ := x
  simp only [entries, List.mem_filterMap, Option.map_eq_some_iff]
  constructor
  · rintro ⟨⟨j, o⟩, hm, e', rfl, heq⟩
    obtain ⟨rfl, rfl⟩ := Prod.mk.injEq .. ▸ heq
    exact hm
  · exact fun hm => ⟨(i, some e), hm, e, rfl, rfl⟩

theorem entryOk_of_mem {q : ErrQueue} (h : ErrInv q) {x : Nat × ErrEntry} (hx : x ∈ q.entries) : EntryOk x.1 x.2 :=
  ⟨h.places x hx, h.counts x hx⟩

/-- One more occurrence, held at the largest count, is one that the queue may hold. -/
theorem EntryOk.again {i : Nat} {e : ErrEntry} (h : EntryOk i e) : EntryOk i { e with occ := satCount 16 (e.occ + 1) } :=
  ⟨h.place, by simp only [satCount]; have := h.count; omega⟩

/-- Only the count of an entry is bounded. -/
theorem EntryOk.alike {i : Nat} {e e' : ErrEntry} (h : EntryOk i e) (ho : e'.occ = e.occ := by rfl) : EntryOk i e' :=
  ⟨h.place, ho ▸ h.count⟩

theorem mem_of_get_slots {i : Nat} {e : ErrEntry} : ∀ {m : Sparse (Option ErrEntry)}, Sparse.get none i m = some e → (i, some e) ∈ m
  | [], h => by simp at h
  | (a, v) :: rest, h => by
    simp only [Sparse.get] at h
    split at h
    · next hi => simp [hi, h]
    · exact List.mem_cons_of_mem _ (mem_of_get_slots h)

theorem mem_entries_of_slot {q : ErrQueue} {i : Nat} {e : ErrEntry} (h : q.slot i = some e) : (i, e) ∈ q.entries :=
  mem_entries.2 (mem_of_get_slots h)

theorem mem_entries_of_joins {q : ErrQueue} {code : W16} {sev : Nat} {x : Nat × ErrEntry} (h : q.joins code sev = some x) :
    x ∈ q.entries := List.mem_of_find?_eq_some h

theorem mem_entries_of_active {q : ErrQueue} {x : Nat × ErrEntry} (h : q.active = some x) : x ∈ q.entries :=
  List.mem_of_find?_eq_some h

theorem freeSlot_lt {q : ErrQueue} {i : Nat} (h : q.freeSlot = some i) : i < 63 :=
  List.mem_range.1 (List.mem_of_find?_eq_some h)

theorem mem_entries_of_nextWaiting {q : ErrQueue} {x : Nat × ErrEntry} (h : q.nextWaiting = some x) : x ∈ q.entries := by
  have best : ∀ (l : List (Nat × ErrEntry)) (b : Option (Nat × ErrEntry)) (y : Nat × ErrEntry),
      l.foldl (fun best x => match best with
        | none => some x
        | some b => if q.before x.2 b.2 then some x else some b) b = some y → y ∈ l ∨ b = some y := by
    intro l
    induction l with
    | nil => exact fun _ _ h => .inr h
    | cons z l ih =>
      intro b y h
      rcases ih _ _ h with h | h
      · exact .inl (List.mem_cons_of_mem _ h)
      · dsimp only at h
        split at h
        · exact .inl (by simp_all)
        · split at h
          · exact .inl (by simp_all)
          · exact .inr h
  rcases best _ _ _ h with h | h
  · exact (List.mem_filter.1 h).1
  · simp at h

/-- A slot that is freed, or takes an entry that the queue may hold, keeps the queue's form. -/
theorem setSlot_errInv {q : ErrQueue} (h : ErrInv q) {i : Nat} {o : Option ErrEntry} (ho : ∀ e ∈ o, EntryOk i e) :
    ErrInv (q.setSlot i o) := by
  have mem : ∀ x ∈ (q.setSlot i o).entries, EntryOk x.1 x.2 := by
    rintro ⟨j, e⟩ hx
    simp only [mem_entries, setSlot, Sparse.put, List.mem_append] at hx
    rcases hx with (hx | hx) | hx
    · exact entryOk_of_mem h (x := (j, e)) (mem_entries.2 (List.mem_filter.1 hx).1)
    · unfold Sparse.cell at hx
      split at hx
      · simp at hx
      · simp only [List.mem_singleton, Prod.mk.injEq] at hx
        exact hx.1 ▸ ho e hx.2.symm
    · exact entryOk_of_mem h (x := (j, e)) (mem_entries.2 (List.mem_filter.1 hx).1)
  exact ⟨Sparse.put_wf h.form, fun x hx => (mem x hx).place, fun x hx => (mem x hx).count⟩

/-- Only the slots count. -/
theorem errInv_of_slots {q r : ErrQueue} (e : r.slots = q.slots) (h : ErrInv q) : ErrInv r := by
  have ee : r.entries = q.entries := by simp only [entries, e]
  exact ⟨e ▸ h.form, ee ▸ h.places, ee ▸ h.counts⟩

/-- The entries stand in ascending slots, so that no slot is listed twice. -/
theorem entries_places_pairwise {q : ErrQueue} (h : ErrInv q) : (q.entries.map Prod.fst).Pairwise (· < ·) := by
  have hp := (Sparse.wfFrom_pairwise (lo := 0) h.form).1
  rw [List.pairwise_map] at hp ⊢
  refine List.Pairwise.filterMap _ ?_ hp
  intro a b hab x hx y hy
  simp only [Option.map_eq_some_iff] at hx hy
  obtain ⟨_, _, rfl⟩ := hx
  obtain ⟨_, _, rfl⟩ := hy
  exact hab

/-- 64 slots hold at most 64 entries. -/
theorem depth_le {q : ErrQueue} (h : ErrInv q) : q.depth ≤ 64 := by
  have hn : (q.entries.map Prod.fst).Nodup := (entries_places_pairwise h).imp fun h => Nat.ne_of_lt h
  have hs : q.entries.map Prod.fst ⊆ List.range 64 := fun k hk => by
    obtain ⟨x, hx, rfl⟩ := List.mem_map.1 hk
    exact List.mem_range.2 (h.places x hx)
  simpa [depth] using (hn.subperm hs).length_le

end ErrQueue

/-! ## Duties, error queue and memories together -/

/-- A die's memories have their form: canonical, and nothing past their end. -/
structure DieForm (x : DieState) : Prop where
  tile : x.tile.wf = true ∧ ∀ a, (Space.tile 0).bytes ≤ a → x.tile.read a = 0
  scratch : x.scratch.wf = true ∧ ∀ a, (Space.scratch 0).bytes ≤ a → x.scratch.read a = 0

/-- What the memory invariant says of a die, said of its state. -/
theorem dieForm_of_memInv {s : Device} (h : MemInv s) (d : Die) : DieForm (s.die d) := ⟨h.tile d, h.scratch d⟩

namespace Device

/-- What the invariants of a step speak of: duties, error queue and every memory. -/
def guarded (s : Device) : Power × ErrQueue × Memory × Memory × Memory × Memory × Quad Memory × Quad (Memory × Memory) :=
  (s.pwr, s.err, s.mem.near, s.mem.far, s.lining, s.hostMem, s.procs.map (·.data), s.dies.map fun d => (d.tile, d.scratch))

/-- Every memory that a space names has the canonical form, far memory under the map in force too. -/
theorem memory_wf {s : Device} (h : MemInv s) (sp : Space) : (s.memory sp).wf = true := by
  cases sp with
  | tile d => exact (h.tile d).1
  | scratch d => exact (h.scratch d).1
  | near => exact h.near.1
  | far =>
    simp only [memory]
    split
    · exact Memory.renamed_wf _ _
    · exact h.far

theorem memInv_of_guarded {s t : Device} (e : t.guarded = s.guarded) (h : MemInv s) : MemInv t := by
  simp only [guarded, Prod.mk.injEq] at e
  obtain ⟨-, -, hnear, hfar, hlining, hhost, hprocs, hdies⟩ := e
  have hdie (d : Die) : (t.die d).tile = (s.die d).tile ∧ (t.die d).scratch = (s.die d).scratch := by
    have := congrArg (Quad.get · d) hdies
    simpa [die] using this
  have hproc (p : Fin 4) : (t.procs.get p).data = (s.procs.get p).data := by
    have := congrArg (Quad.get · p) hprocs
    simpa using this
  refine ⟨fun d => ?_, fun d => ?_, ?_, ?_, ?_, ?_, fun p => ?_⟩
  · rw [(hdie d).1]; exact h.tile d
  · rw [(hdie d).2]; exact h.scratch d
  · rw [hnear]; exact h.near
  · rw [hfar]; exact h.far
  · rw [hlining]; exact h.rest.1
  · rw [hhost]; exact h.rest.2.1
  · rw [hproc]; exact h.rest.2.2 p

/-- The same dies in another device. -/
theorem memInv_of_dies {s : Device} {q : Quad DieState} (h : MemInv s) (hq : ∀ d : Die, DieForm (q.get d)) :
    MemInv { s with dies := q } :=
  ⟨fun d => (hq d).tile, fun d => (hq d).scratch, h.near, h.far, h.rest⟩

/-- A die that keeps its form leaves the memories' invariant. -/
theorem memInv_setDie {s : Device} {d : Die} {x : DieState} (h : MemInv s) (hx : DieForm x) : MemInv (s.setDie d x) := by
  refine memInv_of_dies h fun e => ?_
  by_cases he : e = d
  · rw [he, Quad.get_set_self]; exact hx
  · rw [Quad.get_set_ne _ _ he]; exact dieForm_of_memInv h e

/-- What a memory keeps below a bound has the canonical form and nothing past it. -/
theorem keep_form {m : Memory} (n : Nat) (h : m.wf = true) :
    Memory.wf (m.keep fun k => decide (k < n)) = true ∧ ∀ a, n ≤ a → Memory.read (m.keep fun k => decide (k < n)) a = 0 :=
  ⟨Sparse.keep_wf _ h, fun a ha => by simp [Memory.read, Sparse.get_keep, Nat.not_lt.2 ha]⟩

/-- Replacing the memory of a space by one in canonical form keeps the invariant: bytes past the end are dropped. -/
theorem memInv_setMemory {s : Device} {sp : Space} {m : Memory} (h : MemInv s) (hm : m.wf = true) : MemInv (s.setMemory sp m) := by
  cases sp with
  | tile d => exact memInv_setDie h ⟨keep_form _ hm, h.scratch d⟩
  | scratch d => exact memInv_setDie h ⟨h.tile d, keep_form _ hm⟩
  | near => exact ⟨h.tile, h.scratch, keep_form _ hm, h.far, h.rest⟩
  | far => exact ⟨h.tile, h.scratch, h.near, Memory.overlay_wf _ _ h.far, h.rest⟩

end Device

/-- A device that is as well formed as another: each invariant of a step that held there holds here. -/
structure Keeps (s0 s : Device) : Prop where
  duty : DutyInv s0.pwr → DutyInv s.pwr
  err : ErrInv s0.err → ErrInv s.err
  mem : MemInv s0 → MemInv s

namespace Keeps

variable {s0 s : Device}

theorem refl : Keeps s s := ⟨id, id, id⟩

/-! ## What a step of the model is made of -/

/-- A change of nothing that the invariants speak of. -/
theorem same (h : Keeps s0 s) {t : Device} (e : t.guarded = s.guarded := by rfl) : Keeps s0 t where
  duty w := by have e : t.pwr = s.pwr := congrArg Prod.fst e; exact e ▸ h.duty w
  err w := by have e : t.err = s.err := congrArg (·.2.1) e; exact e ▸ h.err w
  mem w := Device.memInv_of_guarded e (h.mem w)

theorem ite {c : Prop} {_ : Decidable c} {a b : Device} (ha : Keeps s0 a) (hb : Keeps s0 b) : Keeps s0 (if c then a else b) := by
  split
  · exact ha
  · exact hb

theorem foldl {α : Type} {f : Device → α → Device} {l : List α} (h : Keeps s0 s) (hf : ∀ v x, Keeps s0 v → Keeps s0 (f v x)) :
    Keeps s0 (l.foldl f s) := by
  induction l generalizing s with
  | nil => exact h
  | cons x l ih => exact ih (hf _ x h)

theorem foldr {α : Type} {f : α → Device → Device} {l : List α} (h : Keeps s0 s) (hf : ∀ x v, Keeps s0 v → Keeps s0 (f x v)) :
    Keeps s0 (l.foldr f s) := by
  induction l with
  | nil => exact h
  | cons x l ih => exact hf x _ ih

theorem setDie (h : Keeps s0 s) {d : Die} {x : DieState} (hx : MemInv s → DieForm x) : Keeps s0 (s.setDie d x) where
  duty := h.duty
  err := h.err
  mem w := Device.memInv_setDie (h.mem w) (hx (h.mem w))

theorem onDie (h : Keeps s0 s) {d : Die} {f : DieState → DieState}
    (hf : ∀ x, DieForm x → DieForm (f x) := by exact fun _ w => ⟨w.tile, w.scratch⟩) : Keeps s0 (s.onDie d f) :=
  h.setDie fun w => hf _ (dieForm_of_memInv w d)

theorem setMemory (h : Keeps s0 s) {sp : Space} {m : Memory} (hm : MemInv s → m.wf = true) : Keeps s0 (s.setMemory sp m) where
  duty w := by have := h.duty w; cases sp <;> exact this
  err w := by have := h.err w; cases sp <;> exact this
  mem w := Device.memInv_setMemory (h.mem w) (hm (h.mem w))

theorem writeBytes (h : Keeps s0 s) {sp : Space} {a : Nat} {bs : List Byte} : Keeps s0 (s.writeBytes sp a bs) :=
  h.setMemory fun w => Memory.writeBytes_wf (Device.memory_wf w sp) _ _

theorem setLining (h : Keeps s0 s) {a : Nat} {bs : List Byte} : Keeps s0 (s.setLining a bs) where
  duty := h.duty
  err := h.err
  mem w :=
    have w := h.mem w
    ⟨w.tile, w.scratch, w.near, w.far, Memory.writeBytes_wf w.rest.1 _ _, w.rest.2⟩

theorem setHost (h : Keeps s0 s) {a : Nat} {bs : List Byte} : Keeps s0 (s.setHost a bs) where
  duty := h.duty
  err := h.err
  mem w :=
    have w := h.mem w
    ⟨w.tile, w.scratch, w.near, w.far, w.rest.1, Memory.writeBytes_wf w.rest.2.1 _ _, w.rest.2.2⟩

theorem onErr (h : Keeps s0 s) {f : ErrQueue → ErrQueue} (hf : ErrInv s0.err → ErrInv s.err → ErrInv (f s.err)) :
    Keeps s0 (s.onErr f) where
  duty := h.duty
  err w := hf w (h.err w)
  mem w :=
    have w := h.mem w
    ⟨w.tile, w.scratch, w.near, w.far, w.rest⟩

theorem onPwr (h : Keeps s0 s) {f : Power → Power}
    (hf : DutyInv s.pwr → DutyInv (f s.pwr) := by exact fun w => ⟨w.power, w.thermal, w.clamp⟩) : Keeps s0 (s.onPwr f) where
  duty w := hf (h.duty w)
  err := h.err
  mem w :=
    have w := h.mem w
    ⟨w.tile, w.scratch, w.near, w.far, w.rest⟩

theorem setProc (h : Keeps s0 s) {p : Fin 4} {x : ProcState} (hx : MemInv s → x.data.wf = true) :
    Keeps s0 (s.setProc p x) where
  duty := h.duty
  err := h.err
  mem w := by
    have w := h.mem w
    refine ⟨w.tile, w.scratch, w.near, w.far, w.rest.1, w.rest.2.1, fun q => ?_⟩
    by_cases hq : q = p
    · rw [hq, Device.setProc_procs, Quad.get_set_self]; exact hx w
    · rw [Device.setProc_procs, Quad.get_set_ne _ _ hq]; exact w.rest.2.2 q

end Keeps

end Sys2Proof.Machine
end

section
/-! What each operation of the device keeps, in the order of the model: each proof follows its operation's definition. -/

set_option Elab.async false

namespace Sys2Proof.Machine

open Sys2Proof.Safety Device

theorem mem_of_mem_insertBy {α : Type} {le : α → α → Bool} {x y : α} : ∀ {l : List α}, x ∈ insertBy le y l → x = y ∨ x ∈ l
  | [], h => .inl (by simpa [insertBy] using h)
  | z :: l, h => by
    unfold insertBy at h
    split at h
    · exact List.mem_cons.1 h
    · rcases List.mem_cons.1 h with rfl | h
      · exact .inr List.mem_cons_self
      · exact (mem_of_mem_insertBy h).imp id (List.mem_cons_of_mem _)

/-- A sorted list has no element that the list has not. -/
theorem mem_of_mem_sortBy {α : Type} {le : α → α → Bool} {x : α} : ∀ {l : List α}, x ∈ sortBy le l → x ∈ l
  | [], h => h
  | y :: l, h => by
    rcases mem_of_mem_insertBy h with rfl | h
    · exact List.mem_cons_self
    · exact List.mem_cons_of_mem _ (mem_of_mem_sortBy h)

namespace Sparse

theorem filter_wfFrom {α : Type} [DecidableEq α] {d : α} (p : Nat × α → Bool) :
    ∀ {lo : Nat} {m : Sparse α}, wfFrom d lo m = true → wfFrom d lo (m.filter p) = true
  | _, [], h => h
  | lo, (a, v) :: rest, h => by
    obtain ⟨hlo, hv, hr⟩ := wfFrom_cons.1 h
    have ih := filter_wfFrom p hr
    simp only [List.filter_cons]
    split
    · exact wfFrom_cons.2 ⟨hlo, hv, ih⟩
    · exact wfFrom_mono (by omega) ih

end Sparse

namespace ErrQueue

/-- Slots that are freed leave the queue's form. -/
theorem filter_errInv {q : ErrQueue} (h : ErrInv q) (p : Nat × Option ErrEntry → Bool) : ErrInv { q with slots := q.slots.filter p } := by
  have mem : ∀ x ∈ entries { q with slots := q.slots.filter p }, x ∈ q.entries := fun x hx =>
    mem_entries.2 (List.mem_filter.1 (mem_entries.1 hx)).1
  exact ⟨Sparse.filter_wfFrom p h.form, fun x hx => h.places x (mem x hx), fun x hx => h.counts x (mem x hx)⟩

end ErrQueue

namespace Device

/-- While the clamp is not in control, the duty in force is Crown's. -/
theorem crown_duty {s : Device} (w : DutyInv s.pwr) (hc : s.pwr.clamp = false) (d : Die) : 16 ≤ s.duty d ∧ s.duty d ≤ 256 := by
  have := w.power
  have := w.thermal d
  simp only [duty, hc, Bool.false_eq_true, if_false]
  omega

/-- Without THERM the duty in force is within its bounds. -/
theorem duty_of_not_therm {s : Device} (w : DutyInv s.pwr) (hc : s.pwr.causes.getD 6 false = false) (d : Die) :
    16 ≤ s.duty d ∧ s.duty d ≤ 256 := by
  have := w.power
  have := w.thermal d
  have := w.clamp d
  simp only [duty, hc, Bool.false_eq_true, if_false]
  split <;> omega

theorem calm_duty {s : Device} (w : DutyInv s.pwr) (hc : (s.pwr.causes.all fun c => !c) = true) (d : Die) :
    16 ≤ s.duty d ∧ s.duty d ≤ 256 := by
  refine duty_of_not_therm w ?_ d
  by_contra hne
  simp only [List.getD_eq_getElem?_getD] at hne
  cases h6 : s.pwr.causes[6]? with
  | none => simp [h6] at hne
  | some b =>
    have hb := List.all_eq_true.1 hc b (List.mem_of_getElem? h6)
    simp_all

end Device

namespace Memory

theorem setPacked_wf {m : Memory} (h : m.wf = true) (a bits i code : Nat) : Memory.wf (setPacked m a bits i code) = true :=
  writeLE_wf h _ _ _

theorem histBump_wf {m : Memory} (h : m.wf = true) (a : Nat) (x : Device.Bin) : Memory.wf (Device.histBump m a x) = true := by
  simp only [Device.histBump]
  split <;> exact writeLE_wf h _ _ _

theorem histBaseWord_wf {m : Memory} (h : m.wf = true) (a : Nat) (b : BitVec 8) : Memory.wf (Device.histBaseWord m a b) = true :=
  writeLE_wf h _ _ _

/-- A fold whose every step keeps the canonical form. -/
theorem foldl_wf {α : Type} {f : Memory → α → Memory} {l : List α} {m : Memory} (h : m.wf = true)
    (hf : ∀ m x, m.wf = true → (f m x).wf = true) : (l.foldl f m).wf = true := by
  induction l generalizing m with
  | nil => exact h
  | cons x l ih => exact ih (hf _ x h)

/-- The same of a fold that carries something besides. -/
theorem foldlFst_wf {α β : Type} {f : Memory × β → α → Memory × β} {l : List α} {z : Memory × β} (h : z.1.wf = true)
    (hf : ∀ z x, z.1.wf = true → (f z x).1.wf = true) : (l.foldl f z).1.wf = true := by
  induction l generalizing z with
  | nil => exact h
  | cons x l ih => exact ih (hf _ x h)

theorem addI64_wf {m : Memory} (h : m.wf = true) (a : Nat) (vs : List Int) : (Device.addI64 m a vs).1.wf = true :=
  foldlFst_wf h fun _ _ w => writeLE_wf w _ _ _

theorem foldArray_wf {s : Device} (h : MemInv s) (t : TapDesc) (buf : Nat) (reset : Bool) (sh : Int) :
    Memory.wf (s.foldArray t buf reset sh).1 = true :=
  foldlFst_wf h.near.1 fun _ _ w => writeLE_wf (writeLE_wf w _ _ _) _ _ _

theorem addElems_wf {m : Memory} (h : m.wf = true) (op : AddOp) (a : Nat) (ws : List W64) : (addElems op m a ws).1.wf = true :=
  foldlFst_wf h fun _ _ w => writeLE_wf w _ _ _

theorem addLine_wf {m : Memory} (h : m.wf = true) (a : Nat) (ws : List W32) : (Device.addLine m a ws).1.wf = true :=
  foldlFst_wf h fun _ _ w => writeLE_wf w _ _ _

/-- A memory cleared of some bytes still has nothing past its end. -/
theorem read_clear_eq_zero {m : Memory} {a n k : Nat} (h : m.read k = 0) : (m.clear a n).read k = 0 := by
  simp only [Memory.read, Memory.clear, Sparse.get_keep] at h ⊢
  split
  · exact h
  · rfl

end Memory

/-- The duties after a reset. -/
theorem dutyInv_default : DutyInv {} where
  power := by decide
  thermal := by decide
  clamp := by decide

/-- The error queue after a reset. -/
theorem errInv_default : ErrInv {} where
  form := rfl
  places := by simp [ErrQueue.entries]
  counts := by simp [ErrQueue.entries]

namespace Keeps

variable {s0 s : Device}

open ErrQueue

/-- A processor that keeps its data. -/
theorem sameData (h : Keeps s0 s) {p : Fin 4} {x : ProcState} (e : x.data = (s.procs.get p).data := by rfl) : Keeps s0
    (s.setProc p x) :=
  h.setProc fun w => e ▸ w.rest.2.2 p

theorem withFrm (h : Keeps s0 s) {x : Frame} : Keeps s0 { s with frm := x } := h.same

theorem withRegs (h : Keeps s0 s) {x : RegFile} : Keeps s0 { s with regs := x } := h.same

theorem setFld (h : Keeps s0 s) {f : Fld} {x : Nat} : Keeps s0 (s.setFld f x) :=
  h.same

theorem event (h : Keeps s0 s) {f : Fld} : Keeps s0 (s.event f) :=
  h.same

theorem eventCount (h : Keeps s0 s) {f : Fld} : Keeps s0 (s.eventCount f) :=
  h.same

theorem count (h : Keeps s0 s) {f : Fld} {n : Nat} : Keeps s0 (s.count f n) :=
  h.same

theorem setNear (h : Keeps s0 s) {a n v : Nat} : Keeps s0 (s.setNear a n v) :=
  h.writeBytes

theorem ringLog (h : Keeps s0 s) {base size len : Nat} {next wraps : Fld} {e : List Byte} : Keeps s0
    ((s.ringLog base size len next wraps e).1) := by
  simp only [Device.ringLog]
  split
  exacts [h, by split; exacts [h.writeBytes.setFld.count, h.writeBytes.setFld]]

theorem raise (h : Keeps s0 s) {v : Nat} : Keeps s0 (s.raise v) :=
  h.same

theorem setDState (h : Keeps s0 s) {d : DState} : Keeps s0 (s.setDState d) :=
  h.ite h.same.raise

theorem onJob (h : Keeps s0 s) {f : Job → Job} : Keeps s0 (s.onJob f) :=
  h.same

theorem freeWord (h : Keeps s0 s) : Keeps s0 s.freeWord.2 :=
  h.same

theorem freeCycles (h : Keeps s0 s) {f : Fld} : Keeps s0 (s.freeCycles f) :=
  h.freeWord.count

theorem onCmd (h : Keeps s0 s) {f : Command → Command} : Keeps s0 (s.onCmd f) :=
  h.same

theorem onRing (h : Keeps s0 s) {r : Fin 4} {f : Ring → Ring} : Keeps s0 (s.onRing r f) :=
  h.onCmd

theorem writeReply (h : Keeps s0 s) {r : Fin 4} : Keeps s0 (s.writeReply r) := by
  simp only [Device.writeReply]
  split
  exacts [h,
    h.ite ((h.setHost.onRing.raise.ite h.setHost.onRing).event.ite (h.setHost.onRing.raise.ite h.setHost.onRing))]

theorem flushN {r : Fin 4} : ∀ {n : Nat} {s : Device}, Keeps s0 s → Keeps s0 (Device.flushN r n s)
  | 0, _, h => h
  | n + 1, s, h => by rw [Device.flushN]; exact flushN h.writeReply

theorem flush (h : Keeps s0 s) {r : Fin 4} : Keeps s0 (s.flush r) :=
  h.flushN

theorem flushAll (h : Keeps s0 s) : Keeps s0 s.flushAll :=
  h.foldl (fun _ _ h1 => h1.flush)

theorem queueReply (h : Keeps s0 s) {ref : PktRef} {status result : Nat} : Keeps s0 (s.queueReply ref status result) :=
  h.ite h.onRing.flush

theorem reply (h : Keeps s0 s) {ref : PktRef} {status result : Nat} : Keeps s0 (s.reply ref status result) :=
  h.onRing.queueReply

theorem replyFree (h : Keeps s0 s) {ref : PktRef} {status : Nat} : Keeps s0 (s.replyFree ref status) :=
  h.freeWord.reply

theorem interim (h : Keeps s0 s) {ref : PktRef} {status result : Nat} : Keeps s0 (s.interim ref status result) :=
  h.onRing.flush

theorem onFrm (h : Keeps s0 s) {f : Frame → Frame} : Keeps s0 (s.onFrm f) :=
  h.same

theorem stopUnits (h : Keeps s0 s) : Keeps s0 s.stopUnits :=
  h.same

theorem returnJoins (h : Keeps s0 s) : Keeps s0 s.returnJoins :=
  h.onCmd.onJob.foldl (fun _ _ h1 => h1.replyFree)

theorem endJob (h : Keeps s0 s) {status code : W16} : Keeps s0 (s.endJob status code) := by
  simp only [Device.endJob]
  split
  exacts [h, by split; exacts [h, h.same.stopUnits.setDState.returnJoins]]

theorem whileOn (h : Keeps s0 s) {f : Device → Device} (hf : ∀ v, Keeps s0 v → Keeps s0 (f v)) : Keeps s0
    (s.whileOn f) :=
  (hf _ h).ite h

/-- A slot that takes an entry that the queue may hold. -/
theorem setSlot (h : Keeps s0 s) {i : Nat} {e : ErrEntry} (he : ErrInv s0.err → EntryOk i e) :
    Keeps s0 (s.onErr fun q => q.setSlot i (some e)) :=
  h.onErr fun w0 w => setSlot_errInv w fun _ h1 => Option.mem_some_iff.1 h1 ▸ he w0

theorem finish (h : Keeps s0 s) {i : Nat} {e : ErrEntry} (he : ErrInv s0.err → EntryOk i e) : Keeps s0
    (s.finish i e) := by
  unfold Device.finish
  split
  · exact h.onErr fun _ w => setSlot_errInv w (by simp)
  · exact h.setSlot fun w0 => (he w0).alike

/-- A change of the error queue that leaves its slots. -/
theorem sameSlots (h : Keeps s0 s) {f : ErrQueue → ErrQueue}
    (hf : ∀ q, (f q).slots = q.slots := by exact fun _ => rfl) :
    Keeps s0 (s.onErr f) :=
  h.onErr fun _ w => ErrQueue.errInv_of_slots (hf _) w

theorem act (h : Keeps s0 s) {i : Nat} {e : ErrEntry} (he : ErrInv s0.err → EntryOk i e) : Keeps s0 (s.act i e) := by
  simp only [Device.act]
  have ha := (h.setSlot (e := { e with state := .active }) fun w0 => (he w0).alike).endJob (status := JOB_FATAL) (code := e.code)
  split
  · exact h.finish he
  · split
    · exact (ha.setFld.sameSlots.finish he).ite ha.setFld.sameSlots
    · exact (ha.finish he).ite ha

theorem settleOnce (h : Keeps s0 s) : Keeps s0 s.settleOnce := by
  have mem {x : Nat × ErrEntry} (hx : x ∈ s.err.entries) (w0 : ErrInv s0.err) : EntryOk x.1 x.2 := entryOk_of_mem (h.err w0) hx
  unfold Device.settleOnce
  split
  · next i e _ ha =>
    have he := mem (mem_entries_of_active ha)
    split
    · exact h.finish he
    · split
      · next j x hw =>
        exact ((h.setSlot fun w0 => (he w0).alike).act (mem (mem_entries_of_nextWaiting hw))).ite h
      · exact h
  · next j x _ hw => exact h.act (mem (mem_entries_of_nextWaiting hw))
  · exact h

theorem settleN : ∀ {n : Nat} {s : Device}, Keeps s0 s → Keeps s0 (Device.settleN n s)
  | 0, _, h => h
  | n + 1, s, h => by rw [Device.settleN]; exact settleN h.settleOnce

theorem settle (h : Keeps s0 s) : Keeps s0 s.settle :=
  h.settleN

theorem copyToLining (h : Keeps s0 s) {e : ErrEntry} : Keeps s0 (s.copyToLining e) :=
  h.setLining

theorem alerting (h : Keeps s0 s) {f : Device → Device} (hf : ∀ v, Keeps s0 v → Keeps s0 (f v)) : Keeps s0
    (s.alerting f) :=
  (hf _ h).same.ite (hf _ h)

theorem create (h : Keeps s0 s) {i : Nat} {e : ErrEntry} (he : EntryOk i e) : Keeps s0 (s.create i e) := by
  have ha := h.alerting (f := fun v => v.onErr fun q => { q.setSlot i (some { e with seq := s.err.nextSeq }) with nextSeq := q.nextSeq + 1 })
    fun _ h1 => (h1.setSlot (e := { e with seq := s.err.nextSeq }) fun _ => he.alike).sameSlots (f := fun q => { q with nextSeq := q.nextSeq + 1 })
  exact ha.event.raise.onJob.copyToLining.ite ha.event.raise.onJob

theorem setBk (h : Keeps s0 s) {n v : Nat} : Keeps s0 (s.setBk n v) :=
  h.setLining

theorem lose (h : Keeps s0 s) {code unit : W16} : Keeps s0 (s.lose code unit) := by
  simp only [Device.lose]
  split
  · next e he => exact h.count.setSlot fun w0 => (entryOk_of_mem (x := (63, e)) (h.count.err w0) (mem_entries_of_slot he)).again
  · exact (h.count.create ⟨by decide, by simp [Device.entryOf]⟩).setBk

theorem post (h : Keeps s0 s) {code : W16} {sev : Nat} {unit : W16} {detail : W64} : Keeps s0
    (s.post code sev unit detail) := by
  unfold Device.post
  split
  · next i e hj => exact h.setSlot fun w0 => (entryOk_of_mem (h.err w0) (mem_entries_of_joins hj)).again
  · refine Keeps.settle ?_
    split
    · next i hi => exact h.create ⟨Nat.lt_succ_of_lt (freeSlot_lt hi), by simp [Device.entryOf]⟩
    · exact h.lose

theorem postIllegal (h : Keeps s0 s) {unit : W16} {iaddr : W64} : Keeps s0 (s.postIllegal unit iaddr) :=
  h.post

theorem configFault (h : Keeps s0 s) {off cause : Nat} : Keeps s0 (s.configFault off cause) :=
  h.event.setFld.setFld.post

theorem logRefused (h : Keeps s0 s) {a : Nat} : Keeps s0 (s.logRefused a) :=
  h.event.event.count.post

theorem memLog (h : Keeps s0 s) {x : Device.LogItem} : Keeps s0 (s.memLog x) :=
  h.logRefused.ite (h.ringLog.ite (h.same.setFld.count.ite h.same.setFld))

theorem uncorrectable (h : Keeps s0 s) {x : Device.LogItem} {sev : Nat} : Keeps s0 (s.uncorrectable x sev) :=
  h.memLog.event.count.post

theorem refuseAccess (h : Keeps s0 s) {far : Bool} {a : Nat} {scrub : Bool} {unit : W16} {sev : Nat} : Keeps s0
    (s.refuseAccess far a scrub unit sev) :=
  (h.ite h.event).uncorrectable

theorem failAccess (h : Keeps s0 s) {far : Bool} {a : Nat} {unit : W16} {sev : Nat} : Keeps s0
    (s.failAccess far a unit sev) :=
  h.refuseAccess.ite h.uncorrectable

theorem accessing (h : Keeps s0 s) {unit : W16} {xs : List (Space × Nat × Nat)} {f : Device → Device}
    (hf : ∀ v, Keeps s0 v → Keeps s0 (f v)) : Keeps s0 (s.accessing unit xs f) := by
  unfold Device.accessing
  split
  · exact h.failAccess
  · exact hf _ h

theorem recording (h : Keeps s0 s) {unit : W16} {xs : List (Space × Nat × Nat)} {f : Device → Device}
    (hf : ∀ v, Keeps s0 v → Keeps s0 (f v)) : Keeps s0 (s.recording unit xs f) := by
  unfold Device.recording
  split
  · exact h.failAccess
  · exact hf _ h

theorem ringEntry (h : Keeps s0 s) {unit : W16} {base size len : Nat} {next wraps : Fld} {e : List Byte} : Keeps s0
    ((s.ringEntry unit base size len next wraps e).1) := by
  simp only [Device.ringEntry]
  split
  exacts [h.failAccess, h.ringLog]

theorem putCode (h : Keeps s0 s) {t : TDesc} {f : Fmt} {r c code : Nat} : Keeps s0 (s.putCode t f r c code) :=
  h.setMemory fun w => Memory.setPacked_wf (Device.memory_wf w _) _ _ _ _

theorem histMode (h : Keeps s0 s) {t : TDesc} : Keeps s0 (s.histMode t) :=
  h.same.ite (h.ite (h.setMemory fun w => Memory.clear_wf w.near.1 _ _).same)

theorem histogram (h : Keeps s0 s) {t : TDesc} {xs : List (Conv × Val)} : Keeps s0 (s.histogram t xs) :=
  h.ite (h.event.ite (h.recording fun _ h1 => h1.histMode.setMemory fun w => Memory.foldl_wf (Memory.histBaseWord_wf w.near.1 _ _)
    fun _ _ w1 => Memory.histBump_wf w1 _ _))

theorem digest (h : Keeps s0 s) {d : Die} {t : TDesc} {xs : List (Nat × Nat)} : Keeps s0 (s.digest d t xs) :=
  h.ite (h.recording (fun _ h1 => h1.setNear.setNear))

theorem writePlainRow (h : Keeps s0 s) {t : TDesc} {f : Fmt} {r : Nat} {xs : List Conv} : Keeps s0
    (s.writePlainRow t f r xs).dev :=
  h.foldl fun _ _ h1 => h1.putCode

theorem writeBlock {w : Device.Written} (h : Keeps s0 w.dev) {t : TDesc} {f : Fmt} {g : FloatFmt} {infBit : Bool}
    {r : Nat}
    {blk : List (Val × Rnd) × Nat} : Keeps s0 (Device.writeBlock t f g infBit r w blk).dev :=
  ((h.foldl fun _ _ h1 => h1.putCode).foldl fun _ _ h1 => h1.putCode).writeBytes

/-- A fold that writes a tensor part by part. -/
theorem foldlWritten {α : Type} {f : Device.Written → α → Device.Written} {l : List α} {w : Device.Written}
    (h : Keeps s0 w.dev)
    (hf : ∀ v x, Keeps s0 v.dev → Keeps s0 (f v x).dev) : Keeps s0 (l.foldl f w).dev := by
  induction l generalizing w with
  | nil => exact h
  | cons x l ih => exact ih (hf _ x h)

theorem writeRow {w : Device.Written} (h : Keeps s0 w.dev) {t : TDesc} {f : Fmt} {rnd : BitVec 2} {infBit : Bool}
    {n : Nat}
    {force : Nat → Nat → Bool} {row : List Val × Nat} : Keeps s0 (Device.writeRow t f rnd infBit n force w row).dev := by
  simp only [Device.writeRow]
  split
  · exact foldlWritten h fun _ _ h1 => h1.writeBlock
  · exact h.writePlainRow

theorem writeTensor (h : Keeps s0 s) {d : Die} {t : TDesc} {f : Fmt} {rnd : BitVec 2} {infBit : Bool} {n : Nat}
    {rows : List (List Val)}
    {force : Nat → Nat → Bool} : Keeps s0 (s.writeTensor d t f rnd infBit n rows force).1 :=
  (foldlWritten h fun _ _ h1 => h1.writeRow).histogram.digest

theorem onFab (h : Keeps s0 s) {f : Fabric → Fabric} : Keeps s0 (s.onFab f) :=
  h.same

theorem setPeer (h : Keeps s0 s) {p o n v : Nat} : Keeps s0 (s.setPeer p o n v) :=
  h.onFab

theorem setPort (h : Keeps s0 s) {p : Nat} {x : PortSt} : Keeps s0 (s.setPort p x) :=
  h.onFab

theorem sendOne (h : Keeps s0 s) {o : Nat} {v : Device} (hv : s.sendOne o = some v) : Keeps s0 v := by
  obtain ⟨z, -, hz⟩ := List.exists_of_findSome?_eq_some hv
  dsimp only at hz
  split at hz
  · simp at hz
  · split at hz
    · simp at hz
    · cases hz
      refine setPort ?_
      split
      · exact h.setPort
      · exact h.setPort

theorem pumpN : ∀ {n : Nat} {s : Device}, Keeps s0 s → Keeps s0 (Device.pumpN n s)
  | 0, _, h => h
  | n + 1, s, h => by
    unfold Device.pumpN
    split
    · next t ht =>
      obtain ⟨o, -, ho⟩ := List.exists_of_findSome?_eq_some ht
      exact pumpN (h.sendOne ho)
    · exact h

theorem absorb (h : Keeps s0 s) {p : Nat} : Keeps s0 (s.absorb p) :=
  h.foldl (fun _ _ h1 => h1.setPort)

theorem pump (h : Keeps s0 s) : Keeps s0 s.pump :=
  (h.foldl (fun _ _ h1 => h1.absorb)).pumpN

theorem send (h : Keeps s0 s) {m : Msg} : Keeps s0 (s.send m) :=
  h.ite (h.onFab.foldl fun _ _ h1 => h1.setPort.ite h1).pump

theorem outstanding (h : Keeps s0 s) {x : Outgoing} : Keeps s0 (s.outstanding x) :=
  h.onFab

theorem sendTensor (h : Keeps s0 s) {x : Outgoing} {codes : List Nat} : Keeps s0 (s.sendTensor x codes) :=
  h.ite h.send.outstanding

theorem setRoutes (h : Keeps s0 s) : Keeps s0 s.setRoutes :=
  h.ite (h.foldl (fun _ _ h1 => by split; exacts [h1, h1.setPeer.setPeer.setPeer]))

theorem setLinkBit (h : Keeps s0 s) {peer p : Nat} {up : Bool} : Keeps s0 (s.setLinkBit peer p up) :=
  h.setPeer

theorem mapLink (h : Keeps s0 s) {x : LinkEnds} {up : Bool} : Keeps s0 (s.mapLink x up) :=
  h.onFab.setLinkBit.setLinkBit.setRoutes

theorem setVersion (h : Keeps s0 s) {e : Nat} {v : W32} {g : W64} : Keeps s0 (s.setVersion e v g) := by
  unfold Device.setVersion
  exact h.same.recording (fun _ h1 => h1.setNear.setNear)

theorem keepReplica (h : Keeps s0 s) {e : Nat} {v : W32} {a : Nat} {data : List Byte} : Keeps s0
    (s.keepReplica e v a data) :=
  h.writeBytes.same

theorem reading (h : Keeps s0 s) {t : TDesc} {f : Device → Device} (hf : ∀ v, Keeps s0 v → Keeps s0 (f v)) :
    Keeps s0 (s.reading t f) := by
  unfold Device.reading
  split
  · exact hf _ h
  · refine .ite (h.ite (hf _ h)) (.ite (hf _ h) (h.ite ?_))
    split
    · exact h.recording fun _ h1 => hf _ h1.keepReplica
    · exact h.onFab.send

theorem setMitt (h : Keeps s0 s) {d : Die} {m : Nat} {x : Mitt} : Keeps s0 (s.setMitt d m x) :=
  h.onDie

theorem onMitt (h : Keeps s0 s) {d : Die} {m : Nat} {f : Mitt → Mitt} : Keeps s0 (s.onMitt d m f) :=
  h.setMitt

theorem refuseMitt (h : Keeps s0 s) {d : Die} {iaddr : W64} : Keeps s0 (s.refuseMitt d iaddr) :=
  h.event.postIllegal

theorem mittEvent (h : Keeps s0 s) {d : Die} {f : Fld} : Keeps s0 (s.mittEvent d f) :=
  h.event.post.ite h.event

theorem setOvfMap (h : Keeps s0 s) {d : Die} {m : Nat} : Keeps s0 (s.setOvfMap d m) :=
  h.setFld

theorem reportTile (h : Keeps s0 s) {d : Die} {m : Nat} {t : Tile} : Keeps s0 (s.reportTile d m t) :=
  (h.mittEvent.setOvfMap.ite h).mittEvent.ite (h.mittEvent.setOvfMap.ite h)

theorem takeField (h : Keeps s0 s) {off : Nat} {f : FieldDef} {x cause : Nat} : Keeps s0
    (s.takeField off f x cause) := by
  simp only [Device.takeField]
  split
  exacts [h.setFld, h.setFld.event, h.configFault]

theorem writeReserved (h : Keeps s0 s) {svc off : Nat} {v : W32} : Keeps s0 (s.writeReserved svc off v) :=
  h.ite (h.same.ite h.event.setFld.setFld)

theorem writeFields (h : Keeps s0 s) {svc off : Nat} {v : W32} : Keeps s0 (s.writeFields svc off v) :=
  (h.writeReserved.ite h.writeReserved.same).foldl (fun _ _ h1 => h1.takeField.ite h1)

theorem copyFault (h : Keeps s0 s) {off : Nat} : Keeps s0 (s.copyFault off) :=
  h.event.configFault

theorem unitApplied (h : Keeps s0 s) {g : Nat} {d : Die} {u : Nat} : Keeps s0 (s.unitApplied g d u) := by
  simp only [Device.unitApplied]
  split
  exacts [h, h.same.setFld.ite h.same]

theorem applyReg (h : Keeps s0 s) {off : Nat} : Keeps s0 (s.applyReg off) :=
  (h.foldl (fun _ _ h1 => h1.takeField.ite h1)).ite h.copyFault

theorem srApply (h : Keeps s0 s) {d : Die} {m : Nat} : Keeps s0 (s.srApply d m) :=
  h.ite (h.onMitt.setFld.ite h.onMitt)

theorem mittApplied (h : Keeps s0 s) {d : Die} {m : Nat} : Keeps s0 (s.mittApplied d m) :=
  h.srApply.unitApplied

theorem noteSwitch (h : Keeps s0 s) {d : Die} {m : Nat} : Keeps s0 (s.noteSwitch d m) :=
  h.onMitt

theorem mittApply (h : Keeps s0 s) {d : Die} {m : Nat} : Keeps s0 (s.mittApply d m) := by
  unfold Device.mittApply
  extract_lets s1 s2 s3
  have h1 : Keeps s0 s1 := h.ite h.copyFault
  have h2 : Keeps s0 s2 := h1.ite h1.copyFault
  exact h2.noteSwitch.srApply.ite h2.noteSwitch.mittApplied

theorem applyUnit (h : Keeps s0 s) {g : Nat} {d : Die} {u : Nat} : Keeps s0 (s.applyUnit g d u) :=
  (h.mittApply.ite (h.foldl (fun _ _ h1 => h1.applyReg)).unitApplied).ite h

theorem snapshot (h : Keeps s0 s) {off : Nat} : Keeps s0 (s.snapshot off) :=
  h.same.ite h.copyFault

theorem postCommit (h : Keeps s0 s) {g : Nat} {ds : List Die} {tag : Byte} : Keeps s0 (s.postCommit g ds tag) := by
  unfold Device.postCommit
  extract_lets ds1 s1 new old others c regs s2 s3 s4
  have h3 : Keeps s0 s3 := Keeps.setFld ((h.foldl fun _ _ h1 => h1.snapshot).same)
  have h4 : Keeps s0 s4 := (h3.foldl fun _ _ h1 => h1.noteSwitch).ite h3
  exact h4.foldl fun _ _ h1 => h1.applyUnit.ite h1

theorem commitWrite (h : Keeps s0 s) {v : W32} : Keeps s0 (s.commitWrite v) :=
  h.configFault.ite h.postCommit

theorem onCuff (h : Keeps s0 s) {d : Die} {f : Cuff → Cuff} : Keeps s0 (s.onCuff d f) :=
  h.onDie

theorem cuffEvent (h : Keeps s0 s) {d : Die} {f : Fld} : Keeps s0 (s.cuffEvent d f) :=
  h.event.post.ite h.event

theorem closeBatch (hk : Keeps s0 s) {d : Die} {h : Bool} : Keeps s0 (s.closeBatch d h) :=
  hk.onCuff.ite (hk.onCuff.cuffEvent.ite (hk.onCuff.foldl (fun _ _ h1 => h1.onMitt)))

theorem openBatch (h : Keeps s0 s) {d : Die} {b : Bool} {t : TapDesc} : Keeps s0 (s.openBatch d b t) := by
  unfold Device.openBatch
  exact (h.onDie (f := fun x => { x with tile := x.tile.clear (s.halfBase d b) (s.halfBytes d) }) fun _ w =>
    ⟨⟨Memory.clear_wf w.tile.1 _ _, fun a ha => Memory.read_clear_eq_zero (w.tile.2 a ha)⟩, w.scratch⟩).onCuff

theorem storeRow (h : Keeps s0 s) {d : Die} {b : Bool} {r : HeldRow} : Keeps s0 (s.storeRow d b r) := by
  simp only [Device.storeRow]
  split
  · exact (h.setMemory fun w => Memory.foldl_wf (w.tile d).1 fun _ _ w1 => Memory.writeLE_wf w1 _ _ _).onCuff.count.closeBatch
  · exact (h.setMemory fun w => Memory.foldl_wf (w.tile d).1 fun _ _ w1 => Memory.writeLE_wf w1 _ _ _).onCuff.count

theorem stopTaps (h : Keeps s0 s) {d : Die} {key : Nat} : Keeps s0 (s.stopTaps d key) :=
  h.onCuff.cuffEvent

theorem enterRow (h : Keeps s0 s) {d : Die} {r : HeldRow} : Keeps s0 (s.enterRow d r) :=
  h.onCuff.ite (by split; exacts [Keeps.storeRow (by split; exacts [h.ite h.closeBatch, h]), (Keeps.applyUnit (by split; exacts [h.ite h.closeBatch, h])).ite ((Keeps.applyUnit (by split; exacts [h.ite h.closeBatch, h])).stopTaps.ite (Keeps.applyUnit (by split; exacts [h.ite h.closeBatch, h])).openBatch.storeRow), Keeps.onCuff (by split; exacts [h.ite h.closeBatch, h])])

theorem closeSide (h : Keeps s0 s) {d : Die} {key : Nat} : Keeps s0 (s.closeSide d key) :=
  h.onCuff.ite (by split; exacts [h.closeBatch.ite h, h])

theorem closeFilling (h : Keeps s0 s) {d : Die} : Keeps s0 (s.closeFilling d) := by
  simp only [Device.closeFilling]
  split
  exacts [h.closeSide, h.closeBatch, h]

theorem halfFree (h : Keeps s0 s) {d : Die} : Keeps s0 (s.halfFree d) :=
  (h.onCuff.onCuff.freeCycles.foldl (fun _ _ h1 => h1.enterRow)).ite h.onCuff

theorem countNan (h : Keeps s0 s) {d : Die} {t : TapDesc} {n : Nat} : Keeps s0 (s.countNan d t n) :=
  h.onCuff.ite h.setNear

theorem countSat (h : Keeps s0 s) {d : Die} {t : TapDesc} {n : Nat} : Keeps s0 (s.countSat d t n) :=
  h.onCuff.ite h.setNear

theorem captureRow (h : Keeps s0 s) {d : Die} {lm : Nat} {t : TapDesc} {vs : List Val} : Keeps s0
    (s.captureRow d lm t vs) :=
  h.cuffEvent.countNan.ite (h.ite h.cuffEvent.countSat).enterRow

theorem capture (h : Keeps s0 s) {d : Die} {x : Mma} {rows row0 : Nat} {af : Fmt} : Keeps s0
    (s.capture d x rows row0 af) := by
  unfold Device.capture
  refine h.ite (.ite (h.ite h.onCuff.cuffEvent) ?_)
  split
  · exact h
  · refine h.ite (h.stopTaps.ite ?_)
    split
    · exact (h.foldl fun _ _ h1 => h1.captureRow.ite h1).closeSide
    · exact h.foldl fun _ _ h1 => h1.captureRow.ite h1

theorem addLive (h : Keeps s0 s) {d : Die} {base buf a : Nat} {vs : List Int} : Keeps s0
    (s.addLive d base buf a vs) := by
  have hm := h.setMemory (sp := .near) fun w => Memory.addI64_wf w.near.1 a vs
  exact hm.setNear.cuffEvent.ite hm

theorem addRows (h : Keeps s0 s) {d : Die} {key buf n : Nat} : Keeps s0 (s.addRows d key buf n) :=
  h.onCuff

theorem sendTap (h : Keeps s0 s) {m : Msg} : Keeps s0 (s.sendTap m) := by
  simp only [Device.sendTap]
  split
  exacts [h.ite h.send.onFab.outstanding, h]

theorem drainTap (h : Keeps s0 s) {d : Die} {t : TapTile} {slots : List Slot} : Keeps s0 (s.drainTap d t slots) := by
  unfold Device.drainTap
  extract_lets buf rows last s1 s2
  have h1 : Keeps s0 s1 := h.foldl fun _ _ h1 => (h1.sendTap.onCuff.ite h1.sendTap).ite h1.addLive
  have h2 : Keeps s0 s2 := h1.addRows.ite h1
  exact h2.onCuff

theorem foldSide (h : Keeps s0 s) {d : Die} {t : TapDesc} {st : W32} : Keeps s0 (s.foldSide d t st) := by
  unfold Device.foldSide
  extract_lets buf flags reset lsat sh z ovf other rows rows' n s1 s2 s3 s4 s5 s6 s7 s8 s9 s10 s11 s12 s13 s14 s15
  have h10 : Keeps s0 s10 := (h.setMemory fun w => Memory.foldArray_wf w t buf reset sh).setNear.setNear.setNear.setNear.setNear.setNear
    |>.setNear.setNear.setNear
  have h15 : Keeps s0 s15 := (h10.setMemory fun w => Memory.clear_wf (Memory.clear_wf w.near.1 _ _) _ _).setNear.setNear.setNear.onCuff
  exact h15.cuffEvent.ite h15

theorem foldBegin (h : Keeps s0 s) {d : Die} : Keeps s0 (s.foldBegin d) := by
  simp only [Device.foldBegin]
  split
  exacts [h.ite h.onCuff, h]

theorem clearNow (h : Keeps s0 s) {d : Die} {t : TapDesc} : Keeps s0 (s.clearNow d t) := by
  unfold Device.clearNow
  exact (h.setMemory fun w => Memory.clear_wf w.near.1 _ _).setNear.onCuff

theorem sendLeaving (h : Keeps s0 s) : Keeps s0 s.sendLeaving :=
  h.onFab.foldl (fun _ _ h1 => h1.send)

theorem foldEnd (h : Keeps s0 s) {d : Die} : Keeps s0 (s.foldEnd d) := by
  simp only [Device.foldEnd]
  split
  exacts [(h.clearNow.ite h.foldSide).onCuff.sendLeaving.ite h, h]

theorem clearLive (h : Keeps s0 s) {d : Die} {t : TapDesc} : Keeps s0 (s.clearLive d t) :=
  h.ite (h.onCuff.ite h.clearNow)

theorem cuffStepStart (h : Keeps s0 s) {d : Die} {ended : Option W32} : Keeps s0 (s.cuffStepStart d ended) := by
  unfold Device.cuffStepStart
  extract_lets on old s1 read sides s2 s3 fresh s4
  have h1 : Keeps s0 s1 := by
    clear_value on
    cases on with
    | false => exact h
    | true => cases ended with
      | none => exact h
      | some st => exact h.onCuff
  have h2 : Keeps s0 s2 := h1.cuffEvent.ite h1
  have h3 : Keeps s0 s3 := h2.event.ite h2
  exact (h3.foldl fun _ _ h1 => h1.clearLive).onCuff

theorem countSkip (h : Keeps s0 s) {d : Die} : Keeps s0 (s.countSkip d) :=
  h.event.count

theorem bumpRecord (h : Keeps s0 s) {d : Die} {a n : Nat} : Keeps s0 (s.bumpRecord d a n) :=
  h.recording (fun _ h1 => h1.setNear)

theorem visorReport (h : Keeps s0 s) {d : Die} {c : Check} {i : Nat} {w : Watch} {y : Slot} {fault : Bool} : Keeps s0
    (s.visorReport d c i w y fault) :=
  h.ringEntry.bumpRecord.event.post.ite h.ringEntry.bumpRecord.event

theorem worstExponent (h : Keeps s0 s) {d : Die} {c : Check} {e : Int} : Keeps s0 (s.worstExponent d c e) := by
  unfold Device.worstExponent
  exact h.recording (fun _ h1 => h1.setNear.ite h1)

theorem visorCheck (h : Keeps s0 s) {d : Die} : Keeps s0 (s.visorCheck d) := by
  simp only [Device.visorCheck]
  split
  exacts [h,
    h.onDie.count.bumpRecord.foldl (fun _ _ h1 => by split; exacts [Keeps.visorReport (by split; exacts [h1.worstExponent, h1]), Keeps.visorReport (by split; exacts [h1.worstExponent, h1]), by split; exacts [h1.worstExponent, h1]])]

theorem onGnt (h : Keeps s0 s) {d : Die} {f : Gnt → Gnt} : Keeps s0 (s.onGnt d f) :=
  h.onDie

theorem writeResult (h : Keeps s0 s) {v : Solve} {outcome : Nat} {rho : Int} : Keeps s0 (s.writeResult v outcome rho) :=
  h.ite (h.writeBytes.writeBytes.setNear.ite h.writeBytes.writeBytes.setNear.setNear)

theorem deadlineRecord (h : Keeps s0 s) {d : Die} {v : Solve} {outcome : Nat} {rho : Int} : Keeps s0
    (s.deadlineRecord d v outcome rho) :=
  h.ite h.ringEntry

theorem outcomeEvent (h : Keeps s0 s) {d : Die} {outcome : Nat} : Keeps s0 (s.outcomeEvent d outcome) :=
  h.event.ite (h.event.ite (h.event.ite h))

theorem countFailure (h : Keeps s0 s) {d : Die} {v : Solve} {outcome : Nat} : Keeps s0 (s.countFailure d v outcome) :=
  h.ite (h.event.count.post.ite h.event.count)

theorem endSolve (h : Keeps s0 s) {d : Die} {v : Solve} {outcome : Nat} {rho : Int} : Keeps s0
    (s.endSolve d v outcome rho) :=
  h.onGnt.writeResult.deadlineRecord.outcomeEvent.countFailure

theorem replayMismatch (h : Keeps s0 s) {d : Die} {index : Nat} : Keeps s0 (s.replayMismatch d index) :=
  h.event.post

theorem endOwn (h : Keeps s0 s) {d : Die} {v : Solve} {outcome : Nat} {rho : Int} : Keeps s0
    (s.endOwn d v outcome rho) := by
  simp only [Device.endOwn]
  split
  exacts [h.endSolve.replayMismatch.ite h.endSolve, h.endSolve]

theorem refuseSolve (h : Keeps s0 s) {d : Die} {v : Solve} {descErr : Bool} : Keeps s0 (s.refuseSolve d v descErr) :=
  (h.event.ite h).endOwn

theorem lookUp (h : Keeps s0 s) {d : Die} {v : Solve} : Keeps s0 ((s.lookUp d v).1) :=
  h.replayMismatch.ite h

theorem purgeQueue (h : Keeps s0 s) {d : Die} : Keeps s0 (s.purgeQueue d) :=
  h.ite (h.onGnt.foldl (fun _ _ h1 => h1.whileOn (fun _ h2 => h2.lookUp.refuseSolve)))

theorem queueSolve (h : Keeps s0 s) {d : Die} {i : Nat} {step : W32} : Keeps s0 (s.queueSolve d i step) :=
  h.ite (h.event.count.ite h.onGnt)

theorem gsolve (h : Keeps s0 s) {d : Die} {i : Nat} : Keeps s0 (s.gsolve d i) :=
  h.event.ite h.queueSolve.purgeQueue

theorem gntStepStart (h : Keeps s0 s) {d : Die} : Keeps s0 (s.gntStepStart d) :=
  (h.onGnt.foldl (fun _ _ h1 => h1.queueSolve)).purgeQueue

theorem assemblyStart (h : Keeps s0 s) {d : Die} : Keeps s0 (s.assemblyStart d) := by
  unfold Device.assemblyStart
  refine h.purgeQueue.ite ?_
  split
  · next i st _ _ =>
    refine h.ite ?_
    have hl := h.lookUp (d := d) (v := { index := i, step := st, desc := s.solveDesc d i, asm := s.assembly d (s.solveDesc d i) st.toNat })
    revert hl
    generalize s.lookUp d _ = z
    obtain ⟨s1, v⟩ := z
    intro hl
    refine hl.ite ?_
    dsimp only
    split
    · exact hl.onGnt.ite hl.onGnt.endSolve
    · exact hl.onGnt
  · exact h

theorem assemblyComplete (h : Keeps s0 s) {d : Die} : Keeps s0 (s.assemblyComplete d) := by
  simp only [Device.assemblyComplete]
  split
  exacts [h.ite (h.refuseSolve.ite (h.endOwn.ite h.onGnt)), h]

theorem unitDone (h : Keeps s0 s) {d : Die} {v : Solve} : Keeps s0 (s.unitDone d v) :=
  h.endOwn.ite (h.endOwn.ite (by split; exacts [h.endSolve, h.endOwn.ite h.onGnt]))

theorem solveStart (h : Keeps s0 s) {d : Die} : Keeps s0 (s.solveStart d) :=
  h.ite (by split; exacts [h.lookUp.ite h.lookUp.onGnt.onDie.unitDone, h.ite h.onGnt.onDie.unitDone, h])

theorem panelComplete (h : Keeps s0 s) {d : Die} : Keeps s0 (s.panelComplete d) := by
  simp only [Device.panelComplete]
  split
  exacts [h.unitDone.ite h, h]

theorem iterationComplete (h : Keeps s0 s) {d : Die} : Keeps s0 (s.iterationComplete d) := by
  simp only [Device.iterationComplete]
  split
  exacts [h.unitDone.ite h, h]

theorem finalTest (h : Keeps s0 s) {d : Die} : Keeps s0 (s.finalTest d) := by
  simp only [Device.finalTest]
  split
  exacts [h.ite (h.endOwn.ite (h.endOwn.ite h.endOwn)), h]

theorem suspend (h : Keeps s0 s) {d : Die} {v : Solve} : Keeps s0 (s.suspend d v) :=
  h.endSolve

theorem gntDeadline (h : Keeps s0 s) {d : Die} : Keeps s0 (s.gntDeadline d) := by
  unfold Device.gntDeadline
  refine h.ite ?_
  extract_lets g s1 s2 s3 s4
  have h2 : Keeps s0 s2 := h.onGnt.foldl fun _ _ h1 => h1.whileOn fun _ h1 => h1.suspend
  have h3 : Keeps s0 s3 := h2.whileOn fun _ h1 => by
    split
    · exact h1.suspend.ite h1.endSolve
    · exact h1
  have h4 : Keeps s0 s4 := h3.whileOn fun _ h1 => by
    split
    · exact h1.endSolve
    · exact h1
  refine h4.foldl fun _ _ h1 => h1.whileOn fun _ h1 => ?_
  split
  · exact h1.endSolve
  · exact h1.suspend

theorem gntCommit (h : Keeps s0 s) {d : Die} : Keeps s0 (s.gntCommit d) :=
  h.onGnt.foldl (fun _ _ h1 => h1.setNear.setNear.setNear.setNear.setNear.setNear.count)

theorem refuseVec (h : Keeps s0 s) {d : Die} {iaddr : W64} : Keeps s0 (s.refuseVec d iaddr) :=
  h.postIllegal

theorem cvtFlags (h : Keeps s0 s) {d : Die} {f : Fmt} {cs : List Conv} : Keeps s0 (s.cvtFlags d f cs) :=
  ((h.event.ite h).event.ite (h.event.ite h)).ite h

theorem convertInto (h : Keeps s0 s) {d : Die} {x : Vec} {f : Fmt} {rows : List (List Val)} : Keeps s0
    (s.convertInto d x f rows) :=
  h.writeTensor.cvtFlags

theorem writeCodes (h : Keeps s0 s) {d : Die} {t : TDesc} {f : Fmt} {rows : List (List (Conv × Val))} :
    Keeps s0 (s.writeCodes d t f rows) := by
  unfold Device.writeCodes
  extract_lets w s1
  have hw : Keeps s0 w.dev := foldlWritten h fun _ _ h1 => h1.writePlainRow
  exact hw.histogram.digest.cvtFlags

theorem vcvt (h : Keeps s0 s) {d : Die} {x : Vec} : Keeps s0 (s.vcvt d x) := by
  simp only [Device.vcvt]
  split
  exacts [h.refuseVec.ite (h.accessing (fun _ h1 => h1.convertInto)), h.refuseVec]

theorem vcvtB (h : Keeps s0 s) {d : Die} {x : Vec} : Keeps s0 (s.vcvtB d x) := by
  simp only [Device.vcvtB]
  split
  exacts [h.refuseVec.ite (h.accessing (fun _ h1 => h1.convertInto)), h.refuseVec]

theorem vcvtU (h : Keeps s0 s) {d : Die} {x : Vec} : Keeps s0 (s.vcvtU d x) := by
  simp only [Device.vcvtU]
  split
  exacts [h.refuseVec.ite (h.accessing (fun _ h1 => h1.convertInto)), h.refuseVec]

theorem writePiece (h : Keeps s0 s) {d : Die} {x : Vec} {f : Fmt} {t : TDesc} {codes : List (List (Conv × Val))}
    : Keeps s0 (s.writePiece d x f t codes) :=
  h.writeCodes

theorem vsplitF (h : Keeps s0 s) {d : Die} {x : Vec} {p1 p2 : TDesc} : Keeps s0 (s.vsplitF d x p1 p2) :=
  h.refuseVec.ite (h.accessing (fun _ h1 => h1.foldl (fun _ _ h2 => h2.writePiece)))

theorem vsplitI (h : Keeps s0 s) {d : Die} {x : Vec} {p1 p2 : TDesc} : Keeps s0 (s.vsplitI d x p1 p2) :=
  h.refuseVec.ite (h.accessing (fun _ h1 => h1.foldl (fun _ _ h2 => h2.writePiece)))

theorem vnarrowQ (h : Keeps s0 s) {d : Die} {x : Vec} : Keeps s0 (s.vnarrowQ d x) := by
  simp only [Device.vnarrowQ]
  split
  exacts [h.refuseVec.ite (h.accessing (fun _ h1 => h1.writeCodes)), h.refuseVec]

theorem vmaxMin (h : Keeps s0 s) {d : Die} {x : Vec} {src2 : TDesc} {op : Val → Val → Val} : Keeps s0
    (s.vmaxMin d x src2 op) := by
  simp only [Device.vmaxMin]
  split
  exacts [h.refuseVec.ite (h.accessing (fun _ h1 => h1.convertInto)), h.refuseVec]

theorem stageBlocks (h : Keeps s0 s) {d : Die} {m : Nat} {a b : TDesc} {ta tb : Bool} {af bf : Fmt}
    {rows cols k0 n : Nat} : Keeps s0 (s.stageBlocks d m a b ta tb af bf rows cols k0 n) :=
  h.ite h.onMitt

theorem stageScales (h : Keeps s0 s) {d : Die} {m : Nat} {x : Mma} {af bf : Fmt} {rows cols k : Nat} : Keeps s0
    (s.stageScales d m x af bf rows cols k) :=
  h.ite h.onMitt

theorem staged (h : Keeps s0 s) {d : Die} {m : Nat} {x : Mma} {af bf : Fmt} {rows cols k0 n : Nat} : Keeps s0
    (s.staged d m x af bf rows cols k0 n) :=
  h.ite h.stageBlocks.stageScales

theorem placeTile (h : Keeps s0 s) {d : Die} {m : Nat} {old new : Tile} {queue : Bool} : Keeps s0
    (s.placeTile d m old new queue) := by
  unfold Device.placeTile
  exact h.reportTile.onMitt

theorem watchOpen (h : Keeps s0 s) {d : Die} {x : Mma} {af bf : Fmt} : Keeps s0 ((s.watchOpen d x af bf).1) := by
  simp only [Device.watchOpen]
  split
  exacts [h, by split; exacts [h.countSkip, by split; exacts [h, by split; exacts [h.countSkip, h]]]]

theorem openPart (h : Keeps s0 s) {d : Die} {x : Mma} {af bf : Fmt} {cap : Option Capture} {p : Nat} : Keeps s0
    (Device.openPart d x af bf cap s p) :=
  h.placeTile.staged

theorem tapped (h : Keeps s0 s) {d : Die} {x : Mma} {rows row0 : Nat} {af : Fmt} : Keeps s0
    (s.tapped d x rows row0 af) :=
  (h.ite h.capture).closeFilling.ite (h.ite h.capture)

theorem openTile (h : Keeps s0 s) {d : Die} {x : Mma} {af bf : Fmt} : Keeps s0 (s.openTile d x af bf) :=
  ((h.foldl (fun _ _ h1 => h1.applyUnit)).watchOpen.foldl (fun _ _ h1 => h1.openPart)).onFrm.tapped

theorem continueTile (h : Keeps s0 s) {d : Die} {x : Mma} {af bf : Fmt} : Keeps s0 (s.continueTile d x af bf) := by
  simp only [Device.continueTile]
  split
  exacts [h, (h.placeTile.staged.countSkip.ite h.placeTile.staged).tapped]

theorem tryMma (h : Keeps s0 s) {d : Die} {x : Mma} {v : Device} (hv : s.tryMma d x = some v) : Keeps s0 v := by
  unfold Device.tryMma at hv
  split at hv
  · split at hv
    · cases hv; exact h.refuseMitt
    · split at hv
      · cases hv; exact h.refuseMitt
      · split at hv
        · cases hv; exact h
        · cases hv
      · split at hv
        · cases hv; exact h
        · cases hv
          exact h.accessing fun _ h1 => h1.continueTile.ite h1.openTile
  · cases hv; exact h.refuseMitt

theorem enqueueJob (h : Keeps s0 s) {d : Die} {m : Nat} {j : MittJob} : Keeps s0 (s.enqueueJob d m j) :=
  h.onMitt

theorem drainRequest (h : Keeps s0 s) {d : Die} {iaddr : W64} {m id : Nat} : Keeps s0 (s.drainRequest d iaddr m id) :=
  h.refuseMitt.ite (by split; exacts [h.eventCount.ite h.placeTile, h.eventCount])

theorem mdrain (h : Keeps s0 s) {d : Die} {iaddr : W64} {lm id : Nat} : Keeps s0 (s.mdrain d iaddr lm id) :=
  h.enqueueJob.ite h.drainRequest

theorem passPart (h : Keeps s0 s) {d : Die} {x : MmaFx} {p : Nat} : Keeps s0 (Device.passPart d x s p) :=
  h.placeTile.stageBlocks

theorem openPass (h : Keeps s0 s) {d : Die} {x : MmaFx} {p : Nat} : Keeps s0 (s.openPass d x p) :=
  h.accessing (fun _ h1 => h1.passPart)

theorem passArrives (h : Keeps s0 s) {d : Die} {x : MmaFx} {p : Nat} : Keeps s0 (Device.passArrives d x s p) :=
  h.openPass.ite h.onMitt

theorem mmaFx (h : Keeps s0 s) {d : Die} {x : MmaFx} : Keeps s0 (s.mmaFx d x) :=
  h.refuseMitt.ite (h.onMitt.foldl (fun _ _ h1 => h1.passArrives))

theorem placeTap (h : Keeps s0 s) {d : Die} {m : Nat} {t : TapTile} {id : Nat} : Keeps s0 (s.placeTap d m t id) := by
  unfold Device.placeTap
  exact h.onMitt.count.onMitt

theorem tryJob (h : Keeps s0 s) {d : Die} {m : Nat} {j : MittJob} {v : Device} (hv : s.tryJob d m j = some v)
    : Keeps s0 v := by
  cases j with
  | mma x => exact h.tryMma hv
  | mdrain a id => cases hv; exact h.drainRequest

theorem readyJobs (h : Keeps s0 s) {d : Die} {m : Nat} {z : MittJob × Device} :
    ∀ {jobs passed : List MittJob}, z ∈ s.readyJobs d m passed jobs → Keeps s0 z.2
  | [], _, hz => by simp [Device.readyJobs] at hz
  | j :: rest, passed, hz => by
    simp only [Device.readyJobs] at hz
    split at hz
    · exact readyJobs h hz
    · split at hz
      · next v hv =>
        rcases List.mem_cons.1 hz with rfl | hz
        · exact h.onMitt.tryJob hv
        · exact readyJobs h hz
      · exact readyJobs h hz

theorem mma (h : Keeps s0 s) {d : Die} {x : Mma} : Keeps s0 (s.mma d x) := by
  refine h.enqueueJob.ite ?_
  cases ht : s.tryMma d x with
  | none => exact h.enqueueJob
  | some v => exact h.tryMma ht

theorem readyOn (h : Keeps s0 s) {d : Die} {m : Nat} {z : MittJob × Device} (hz : z ∈ s.readyOn d m)
    : Keeps s0 z.2 := by
  rcases List.mem_append.1 hz with hz | hz
  · exact h.readyJobs hz
  · obtain ⟨y, -, hy⟩ := List.mem_flatMap.1 hz
    exact h.readyJobs (List.mem_filter.1 hy).1

theorem dispatchJob (h : Keeps s0 s) {d : Die} {m : Nat} : Keeps s0 (s.dispatchJob d m) := by
  unfold Device.dispatchJob
  split
  · exact h
  · next z rest hz => exact h.readyOn (mem_of_mem_sortBy (hz ▸ List.mem_cons_self))

theorem dispatchTap (h : Keeps s0 s) {d : Die} {m : Nat} : Keeps s0 (s.dispatchTap d m) := by
  simp only [Device.dispatchTap]
  split
  exacts [h.placeTap, h.dispatchJob]

theorem dispatch (h : Keeps s0 s) {d : Die} {m : Nat} : Keeps s0 (s.dispatch d m) := by
  simp only [Device.dispatch]
  split
  exacts [h.onMitt.openPass.ite h.dispatchTap, h.dispatchTap]

theorem combine (h : Keeps s0 s) {d : Die} {lm id part level : Nat} : Keeps s0 (s.combine d lm id part level) := by
  simp only [Device.combine]
  split
  exacts [h.placeTile.onMitt.ite h, h]

theorem drainJob (h : Keeps s0 s) {d : Die} {m : Nat} {t : Tile} : Keeps s0 (s.drainJob d m t) := by
  simp only [Device.drainJob]
  split
  exacts [by split; exacts [h.countSkip.ite h.onDie, h],
    Keeps.accessing (by split; exacts [h.countSkip.ite h.onDie, h]) (fun _ h1 => by split; exacts [h1.writeTensor.cvtFlags.sendTensor, h1.writeTensor.cvtFlags])]

theorem drainPass (h : Keeps s0 s) {d : Die} {t : Tile} {x : MmaFx} : Keeps s0 (s.drainPass d t x) := by
  unfold Device.drainPass
  extract_lets sh z
  have hz : MemInv s → z.1.wf = true := fun w => Memory.foldlFst_wf (w.scratch d).1 fun _ _ w1 => Memory.writeLE_wf w1 _ _ _
  exact (h.setMemory hz).onDie

theorem freeSlot (h : Keeps s0 s) {d : Die} {m id : Nat} : Keeps s0 (s.freeSlot d m id) :=
  h.onMitt.freeCycles.applyUnit

theorem tileDrain (h : Keeps s0 s) {d : Die} {m : Nat} : Keeps s0 (s.tileDrain d m) := by
  simp only [Device.tileDrain]
  split
  exacts [h, by split; exacts [h, by split; exacts [h.drainJob.freeSlot.ite h, h.drainPass.freeSlot.ite h, h]]]

theorem tapDrain (h : Keeps s0 s) {d : Die} {m : Nat} : Keeps s0 (s.tapDrain d m) := by
  simp only [Device.tapDrain]
  split
  exacts [h, by split; exacts [h, by split; exacts [h.ite h.drainTap.freeSlot, h]]]

theorem setProfileBit (h : Keeps s0 s) {d : Die} {m : Nat} {n : Bool} : Keeps s0 (s.setProfileBit d m n) :=
  h.setFld

theorem profileSwitch (h : Keeps s0 s) {d : Die} {m : Nat} : Keeps s0 (s.profileSwitch d m) :=
  h.onMitt.setProfileBit.ite h

theorem onPalm (h : Keeps s0 s) {d : Die} {f : Palms → Palms} : Keeps s0 (s.onPalm d f) :=
  h.onDie

theorem onRun (h : Keeps s0 s) {d : Die} {f : PalmRun → PalmRun} : Keeps s0 (s.onRun d f) :=
  h.onPalm

theorem palmEvent (h : Keeps s0 s) {d : Die} {f : Fld} : Keeps s0 (s.palmEvent d f) :=
  h.event.post.ite h.event

theorem storeLanes (h : Keeps s0 s) {k : Chunk} {o : PalmOp} {a : PalmArgs} : Keeps s0 (s.storeLanes k o a) := by
  unfold Device.storeLanes
  extract_lets x
  split
  · exact h
  · exact h.foldl fun _ _ h1 => (h1.setMemory fun w => Memory.setPacked_wf (Device.memory_wf w _) _ _ _ _).cvtFlags

theorem addDigest (h : Keeps s0 s) {e : Option Nat} {t : W64} : Keeps s0 (s.addDigest e t) := by
  simp only [Device.addDigest]
  split
  exacts [h, h.onFab]

theorem storeWeight {k : Chunk} {a : PalmArgs} {shard : Option Nat} {z : Device × List (Conv × Val)} (h : Keeps s0 z.1)
    {j : Nat} :
    Keeps s0 (Device.storeWeight k a shard z j).1 :=
  h.setNear.setNear.addDigest.onRun

/-- A fold over devices that carries something besides. -/
theorem foldlFst {α β : Type} {f : Device × β → α → Device × β} {l : List α} {z : Device × β} (h : Keeps s0 z.1)
    (hf : ∀ z x, Keeps s0 z.1 → Keeps s0 (f z x).1) : Keeps s0 (l.foldl f z).1 := by
  induction l generalizing z with
  | nil => exact h
  | cons x l ih => exact ih (hf _ x h)

theorem storeWeights (h : Keeps s0 s) {k : Chunk} {a : PalmArgs} : Keeps s0 (s.storeWeights k a) := by
  unfold Device.storeWeights
  extract_lets z r0 r1 s1 s2 s3
  have hz : Keeps s0 z.1 := foldlFst h fun _ _ h1 => h1.storeWeight
  have h1 : Keeps s0 s1 := hz.histogram
  have h2 : Keeps s0 s2 := h1.count.palmEvent.ite h1
  have h3 : Keeps s0 s3 := h2.count.palmEvent.ite h2
  exact h3.count.palmEvent.ite h3

theorem deriveCopy (h : Keeps s0 s) {k : Chunk} : Keeps s0 (s.deriveCopy k) := by
  unfold Device.deriveCopy
  split
  · exact h
  · extract_lets t vs first w
    have hw : Keeps s0 w.dev := foldlWritten h fun _ _ h1 => h1.writeBlock
    exact hw.histogram

theorem bodyInstr (h : Keeps s0 s) {k : Chunk} {o : PalmOp} {x : PalmArgs} : Keeps s0 (s.bodyInstr k o x).1 := by
  cases o
  case st => exact h.storeLanes
  case stw => exact h.storeWeights
  case wcp => exact h.deriveCopy
  case cvtfi => simp only [Device.bodyInstr]; exact h.cvtFlags
  all_goals exact h

theorem scalarFlags (h : Keeps s0 s) {d : Die} {u : PalmUnit} {o : PalmOp} {x : PalmArgs} : Keeps s0
    (s.scalarFlags d u o x) :=
  h.cvtFlags.ite h

theorem runChunk (h : Keeps s0 s) {d : Die} {r : PalmRun} {p : Fin 4} {c slot : Nat} {z : PalmSet} {fresh : Bool}
    {o : PalmOp}
    {x : PalmArgs} : Keeps s0 (s.runChunk d r p c slot z fresh o x) := by
  unfold Device.runChunk
  exact h.bodyInstr.onRun

theorem settleStop (h : Keeps s0 s) {d : Die} : Keeps s0 (s.settleStop d) := by
  simp only [Device.settleStop]
  split
  exacts [h.onPalm.ite h, h]

theorem palmIssue (h : Keeps s0 s) {i : PalmIssue} {o : PalmOp} : Keeps s0 (s.palmIssue i o) := by
  simp only [Device.palmIssue]
  split
  exacts [h,
    by split; exacts [h.scalarFlags.onRun.ite h, by split; exacts [h.runChunk.settleStop.ite h, h.runChunk.ite h, h], h.scalarFlags.onRun.ite h]]

theorem starvation (h : Keeps s0 s) {d : Die} {layer : Nat} : Keeps s0 (s.starvation d layer) :=
  h.ite (h.setNear.ite (h.setNear.setNear.setNear.ite (h.setNear.setNear.setNear.event.post.ite h.setNear.setNear)))

theorem appendRun (h : Keeps s0 s) {d : Die} {layer : Nat} : Keeps s0 (s.appendRun d layer) :=
  h.onPalm.starvation

theorem breakPins (h : Keeps s0 s) {e : Nat} {st : W32} : Keeps s0 (s.breakPins e st) :=
  h.onFab.count

theorem palmEnd (h : Keeps s0 s) {d : Die} : Keeps s0 (s.palmEnd d) := by
  simp only [Device.palmEnd]
  split
  exacts [h.ite (by split; exacts [h.writeBytes.count.count.onPalm.onFab, h.writeBytes.count.count.onPalm]), h]

theorem runpack (h : Keeps s0 s) {d : Die} {iaddr : W64} {index : Nat} {dst : TDesc} {form : Nat} : Keeps s0
    (s.runpack d iaddr index dst form) :=
  h.refuseVec.ite (h.accessing (fun _ h1 => Keeps.foldl (by split; exacts [h1, h1.palmEvent]) (fun _ _ h2 => h2.foldl (fun _ _ h3 => h3.putCode))))

theorem grpErr (h : Keeps s0 s) : Keeps s0 s.grpErr :=
  h.event

theorem integerAdd (h : Keeps s0 s) {op : AddOp} {a : Nat} {ws : List W64} {flagAddr : Nat} {mask : W32} :
    Keeps s0 (s.integerAdd op a ws flagAddr mask) := by
  unfold Device.integerAdd
  refine h.grpErr.ite (h.accessing fun v h1 => ?_)
  extract_lets z s1
  have hm : Keeps s0 s1 := h1.setMemory fun w => Memory.addElems_wf w.near.1 _ _ _
  exact (hm.accessing fun _ h2 => h2.setNear).ite hm

theorem onAdders (h : Keeps s0 s) {d : Die} {f : Adders → Adders} : Keeps s0 (s.onAdders d f) :=
  h.onDie

theorem onGroup (h : Keeps s0 s) {d : Die} {gid : Nat} {f : Group → Group} : Keeps s0 (s.onGroup d gid f) :=
  h.onAdders

theorem openGroup (h : Keeps s0 s) {d : Die} {gid : Nat} {shard : Option Nat} {step : W32} :
    Keeps s0 (s.openGroup d gid shard step).1 := by
  unfold Device.openGroup
  extract_lets a lines n mode dest rec_ ordered staged need ranges s1 s2 g
  split
  · exact h.recording fun _ h1 => h1
  · split
    · exact h.grpErr
    · split
      · exact h.recording fun _ h1 => h1
      · have h2 : Keeps s0 s2 := h.setNear.ite h.setNear.writeBytes
        dsimp only
        exact h2.onAdders

theorem addLines (h : Keeps s0 s) {d : Die} {gid : Nat} {ls : List (Nat × List W32)} : Keeps s0
    (s.addLines d gid ls) := by
  unfold Device.addLines
  split
  · exact h
  · exact h.accessing fun _ h1 => h1.foldl fun _ _ h2 => (h2.setMemory fun w => Memory.addLine_wf w.near.1 _ _).onGroup

theorem completeIf (h : Keeps s0 s) {d : Die} {gid : Nat} : Keeps s0 (s.completeIf d gid) := by
  simp only [Device.completeIf]
  split
  exacts [h,
    h.ite (by split; exacts [((h.recording (fun _ h1 => h1.writeBytes)).recording (fun _ h1 => h1.setNear)).onAdders.onFab.ite ((h.recording (fun _ h1 => h1.writeBytes)).recording (fun _ h1 => h1.setNear)).onAdders, ((h.recording (fun _ h1 => h1.writeBytes)).recording (fun _ h1 => h1.setNear)).onAdders])]

theorem late (h : Keeps s0 s) : Keeps s0 s.late :=
  h.count

theorem keyError (h : Keeps s0 s) {d : Die} {g : Group} {key : Nat} : Keeps s0 (s.keyError d g key) :=
  (h.event.onGroup.ite h.event).completeIf.post

theorem hold (hk : Keeps s0 s) {d : Die} {h : HeldLine} : Keeps s0 (s.hold d h) :=
  hk.onAdders

theorem countUnordered (h : Keeps s0 s) {g : Group} : Keeps s0 (s.countUnordered g) :=
  h.ite (h.count.ite (h.setFld.ite h).setFld.setFld)

theorem countTaps (h : Keeps s0 s) {d : Die} {off : Nat} {i : Item} : Keeps s0 (s.countTaps d off i) := by
  simp only [Device.countTaps]
  split
  exacts [by split; exacts [h.ite h.setNear, h], h]

theorem refuseLate (h : Keeps s0 s) {d : Die} {old : Bool} {i : Item} : Keeps s0 (s.refuseLate d old i) := by
  simp only [Device.refuseLate]
  split
  exacts [h.late.event.countTaps, h.late]

theorem lineArrives (hk : Keeps s0 s) {d : Die} {h : HeldLine} {i : Item} : Keeps s0 (s.lineArrives d h i) := by
  simp only [Device.lineArrives]
  split
  exacts [hk.refuseLate,
    hk.refuseLate.ite (hk.keyError.ite (hk.late.ite (by split; exacts [hk.onGroup, hk.keyError.ite (hk.hold.ite (((hk.countUnordered.ite hk).accessing (fun _ h1 => h1.writeBytes.onGroup)).ite (hk.countUnordered.ite hk).onGroup.addLines))])))]

theorem addTap (h : Keeps s0 s) {d : Die} {g : Group} {key : Nat} {i : Item} : Keeps s0 (s.addTap d g key i) := by
  simp only [Device.addTap]
  split
  exacts [by split; exacts [h, h.addLive.addRows.countNan.countSat.countTaps.ite h.addLive.addRows.countNan.countSat],
    h]

theorem ackTaps (h : Keeps s0 s) {g : Group} {key : Nat} : Keeps s0 (s.ackTaps g key) := by
  simp only [Device.ackTaps]
  split
  exacts [h.ite h.send, h]

theorem endArrives (hk : Keeps s0 s) {d : Die} {h : HeldLine} : Keeps s0 (s.endArrives d h) := by
  simp only [Device.endArrives]
  split
  exacts [hk.late.count,
    hk.late.count.ite (hk.keyError.ite (hk.late.ite (hk.keyError.ite (hk.hold.ite ((hk.foldl (fun _ _ h1 => h1.addTap)).ackTaps.onGroup.count.ite (hk.foldl (fun _ _ h1 => h1.addTap)).ackTaps.onGroup).completeIf))))]

theorem arriveNow (hk : Keeps s0 s) {d : Die} {h : HeldLine} : Keeps s0 (s.arriveNow d h) := by
  simp only [Device.arriveNow]
  split
  exacts [hk.lineArrives, hk.endArrives]

theorem arrive (hk : Keeps s0 s) {d : Die} {h : HeldLine} : Keeps s0 (s.arrive d h) :=
  hk.hold.ite hk.arriveNow

theorem retryAt (h : Keeps s0 s) {d : Die} {i : Nat} {v : Device} (hv : s.retryAt d i = some v) : Keeps s0 v := by
  unfold Device.retryAt at hv
  dsimp only at hv
  split at hv
  · cases hv
  · split at hv
    · cases hv
    · split at hv
      · cases hv; exact h.onAdders.arriveNow
      · cases hv

theorem stagingRetry (h : Keeps s0 s) {d : Die} : Keeps s0 (s.stagingRetry d) := by
  unfold Device.stagingRetry
  cases hv : (List.range (s.adders d).held.length).findSome? (s.retryAt d) with
  | none => exact h
  | some v =>
    obtain ⟨i, -, hi⟩ := List.exists_of_findSome?_eq_some hv
    exact h.retryAt hi

theorem skipOutcome (h : Keeps s0 s) {d : Die} {x : SkipOutcome} : Keeps s0 (s.skipOutcome d x) :=
  h.onAdders

theorem noteSkip (h : Keeps s0 s) {g : Group} {key : Nat} : Keeps s0 (s.noteSkip g key) := by
  simp only [Device.noteSkip]
  split
  exacts [h.onFab.ite h, h]

theorem skip (h : Keeps s0 s) {d : Die} {gid key : Nat} {epoch : Byte} : Keeps s0 (s.skip d gid key epoch) := by
  simp only [Device.skip]
  split
  exacts [h.late.skipOutcome,
    h.late.skipOutcome.ite (h.keyError.skipOutcome.ite (by split; exacts [h.noteSkip.onGroup.completeIf.skipOutcome, h.skipOutcome, h.late.skipOutcome, h.skipOutcome, h.skipOutcome]))]

theorem keyApply (h : Keeps s0 s) {d : Die} {gid : Nat} : Keeps s0 (s.keyApply d gid) := by
  simp only [Device.keyApply]
  split
  exacts [h.onGroup.ite h, h]

theorem keyApplied (h : Keeps s0 s) {d : Die} {gid : Nat} : Keeps s0 (s.keyApplied d gid) := by
  simp only [Device.keyApplied]
  split
  exacts [by split; exacts [h.addLines.onGroup.completeIf, h], h]

theorem madd (h : Keeps s0 s) {d : Die} {gid key : Nat} {epoch : Byte} {src : TDesc} {line0 : Nat} {endMark : Bool}
    : Keeps s0 (s.madd d gid key epoch src line0 endMark) :=
  (h.foldl (fun _ _ h1 => h1.arrive)).arrive.ite (h.foldl (fun _ _ h1 => h1.arrive))

theorem setRegion (h : Keeps s0 s) {d : Die} {k : Nat} {r : HbxRegion} : Keeps s0 (s.setRegion d k r) :=
  h.onDie

theorem refuseHbx (h : Keeps s0 s) {d : Die} {iaddr : W64} : Keeps s0 (s.refuseHbx d iaddr) :=
  h.event.postIllegal

theorem exhausted (h : Keeps s0 s) {d : Die} {k : Nat} : Keeps s0 (s.exhausted d k) :=
  h.event.post

theorem writeRecord (h : Keeps s0 s) {d : Die} {k : Nat} {x : HPush} {r : HbxRec} {prev : W64} {data : List Byte}
    {done : Device → Device}
    (hd : ∀ v, Keeps s0 v → Keeps s0 (done v)) : Keeps s0 (s.writeRecord d k x r prev data done) := by
  unfold Device.writeRecord
  split
  exact h.accessing fun _ h1 => hd _ (h1.writeBytes.event.count.ite h1.writeBytes)

theorem raiseHwm (h : Keeps s0 s) {d : Die} {k : Nat} : Keeps s0 (s.raiseHwm d k) :=
  h.setFld

theorem pushSegment (h : Keeps s0 s) {d : Die} {k : Nat} {x : HPush} {data : List Byte} {flags : Device → Device}
    (hf : ∀ v, Keeps s0 v → Keeps s0 (flags v)) : Keeps s0 (s.pushSegment d k x data flags) := by
  unfold Device.pushSegment
  extract_lets r limit n newest at_ mk add
  split
  · exact h.writeRecord fun _ h1 => hf _ h1.setRegion.raiseHwm
  · exact h.writeRecord fun _ h1 => hf _ h1.setRegion
  · exact h.exhausted

theorem pushPark (h : Keeps s0 s) {d : Die} {k : Nat} {x : HPush} {data : List Byte} {flags : Device → Device}
    (hf : ∀ v, Keeps s0 v → Keeps s0 (flags v)) : Keeps s0 (s.pushPark d k x data flags) := by
  unfold Device.pushPark
  extract_lets r n mk put
  have hp (z : HbxRec) : Keeps s0 (put z) := h.writeRecord fun _ h1 => hf _ h1.setRegion.raiseHwm
  split
  · exact hp _
  · exact hp _
  · exact h.exhausted

theorem hpush (h : Keeps s0 s) {d : Die} {x : HPush} : Keeps s0 (s.hpush d x) :=
  h.refuseHbx.ite (by split; exacts [h.postIllegal.ite ((h.accessing (fun _ h1 => h1.pushPark (fun _ h2 => h2.cvtFlags))).ite (h.refuseHbx.ite (h.accessing (fun _ h1 => h1.pushSegment (fun _ h2 => h2.cvtFlags))))), h.postIllegal])

theorem nowResident (h : Keeps s0 s) {sp : Space} {a n : Nat} : Keeps s0 (s.nowResident sp a n) := by
  simp only [Device.nowResident]
  split
  exacts [h.onDie, h]

theorem deliver (h : Keeps s0 s) {d : Die} {k : Nat} {x : HPop} {r : HbxRec} : Keeps s0 (s.deliver d k x r) :=
  h.accessing (fun _ h1 => h1.writeBytes.nowResident.ite h1.writeBytes)

theorem hpop (h : Keeps s0 s) {d : Die} {x : HPop} : Keeps s0 (s.hpop d x) := by
  unfold Device.hpop
  refine h.refuseHbx.ite (.ite ?_ ?_)
  · split
    · exact h.deliver.setRegion
    · exact h.refuseHbx
  · dsimp only
    split
    · exact h.deliver.setRegion
    · exact h.refuseHbx

theorem discardLeftover (h : Keeps s0 s) {d : Die} : Keeps s0 (s.discardLeftover d) :=
  h.onDie.ite h.onDie.count.post

theorem streamAdd (h : Keeps s0 s) {d : Die} {iaddr : W64} {out stream : TDesc} : Keeps s0
    (s.streamAdd d iaddr out stream) :=
  h.refuseVec.ite (h.accessing (fun _ h1 => by split; exacts [h1.writeTensor.sendTensor, h1.writeTensor]))

theorem writeSide (h : Keeps s0 s) {fder : Nat} {side : TDesc} {zs ys : List (List Val)} : Keeps s0
    (s.writeSide fder side zs ys) := by
  unfold Device.writeSide
  split
  · exact h
  · exact h
  · exact h.foldl fun _ _ h1 => h1.foldl fun _ _ h2 => h2.setMemory fun w => Memory.setPacked_wf (Device.memory_wf w _) _ _ _ _
  · exact h.foldl fun _ _ h1 => h1.foldl fun _ _ h2 => h2.setMemory fun w => Memory.setPacked_wf (Device.memory_wf w _) _ _ _ _
  · exact h.foldl fun _ _ h1 => h1.foldl fun _ _ h2 => h2.putCode
  · exact h.foldl fun _ _ h1 => h1.foldl fun _ _ h2 => h2.putCode
  · exact h.foldl fun _ _ h1 => h1.foldl fun _ _ h2 => h2.putCode

theorem applyF (h : Keeps s0 s) {d : Die} {iaddr : W64} {fder : Nat} {fparam : W16} {src dst side : TDesc} : Keeps s0
    (s.applyF d iaddr fder fparam src dst side) := by
  simp only [Device.applyF]
  split
  exacts [h.refuseVec.ite (h.accessing (fun _ h1 => h1.writeTensor.cvtFlags.writeSide.nowResident)), h.refuseVec]

theorem markLane (h : Keeps s0 s) {pending : Bool} {stack chan lane : Nat} : Keeps s0
    (s.markLane pending stack chan lane) :=
  h.ite (by split; exacts [h.setLining, h])

theorem laneDecide (h : Keeps s0 s) {stack chan lane : Nat} : Keeps s0 (s.laneDecide stack chan lane) :=
  h.ite h.markLane.count.memLog.post

theorem correctedRead (h : Keeps s0 s) {a : Nat} {lane : Option (Fin 72)} {scrub : Bool} {unit : W16} : Keeps s0
    (s.correctedRead a lane scrub unit) := by
  simp only [Device.correctedRead]
  split
  exacts [h.count.memLog.event.post.ite h.count.memLog.event,
    (h.count.memLog.event.post.ite h.count.memLog.event).same.laneDecide]

theorem burstRead (h : Keeps s0 s) {far : Bool} {a : Nat} {o : ReadOutcome} {r : Requester} : Keeps s0
    (s.burstRead far a o r) :=
  h.refuseAccess.ite (h.uncorrectable.ite (by split; exacts [h, h.ite h.correctedRead, h.uncorrectable, h.uncorrectable.ite h]))

theorem nextLine (h : Keeps s0 s) : Keeps s0 s.nextLine :=
  h.same

theorem scrub (h : Keeps s0 s) {o : ReadOutcome} : Keeps s0 (s.scrub o) :=
  h.ite (h.refuseAccess.ite (by split; exacts [h.correctedRead, h.uncorrectable, h])).nextLine

theorem recordLanes (h : Keeps s0 s) {k : Nat} {failed : List (Fin 32 × List (Fin 74))} : Keeps s0
    (s.recordLanes k failed) :=
  (h.foldl (fun _ _ h1 => h1.foldl (fun _ _ h2 => h2.markLane))).foldl (fun _ _ h1 => h1.setLining.ite h1)

theorem stackTrained (h : Keeps s0 s) {k : Nat} {found : List (Fin 32 × List (Fin 74))} : Keeps s0
    (s.stackTrained k found) := by
  unfold Device.stackTrained
  exact h.setFld.setFld.setFld.post.ite h.setFld.setFld.setFld

theorem trainingDone (h : Keeps s0 s) {k : Nat} {failed : List (Fin 32 × List (Fin 74))} : Keeps s0
    (s.trainingDone k failed) := by
  unfold Device.trainingDone
  extract_lets s1 s2
  have h1 : Keeps s0 s1 := h.recordLanes.stackTrained
  have h2 : Keeps s0 s2 := h1.setFld
  exact h.ite ((h2.withFrm.setDState.ite h2).ite h1)

theorem retrain (h : Keeps s0 s) {k : Nat} {done : Bool} : Keeps s0 (s.retrain k done) := by
  unfold Device.retrain
  exact h.ite ((h.recordLanes.stackTrained.ite h).ite (h.setFld.ite h))

/-- Far memory changes, and what the memory unit keeps besides. -/
theorem setFar (h : Keeps s0 s) {m : MemSys} (hf : s.mem.far.wf = true → m.far.wf = true)
    (hn : m.near = s.mem.near := by rfl) :
    Keeps s0 { s with mem := m } where
  duty := h.duty
  err := h.err
  mem w :=
    have w := h.mem w
    ⟨w.tile, w.scratch, hn ▸ w.near, hf w.far, w.rest⟩

theorem wipePort (h : Keeps s0 s) {p : Nat} : Keeps s0 (s.wipePort p) := by
  unfold Device.wipePort
  refine h.ite (Keeps.setFld (Keeps.setFar h ?_))
  intro w
  dsimp only
  exact Sparse.keep_wf _ w

theorem enumerate (h : Keeps s0 s) {p : Fin 2} {cap : Nat} {width : BitVec 5} {rate : BitVec 2} : Keeps s0
    (s.enumerate p cap width rate) :=
  h.ite h.setFld.setFld.setFld.setFld.wipePort

theorem farDown (h : Keeps s0 s) {p : Fin 2} : Keeps s0 (s.farDown p) :=
  h.ite h.setFld.setFld.event.post

theorem logFarEvent (h : Keeps s0 s) {p : Fin 2} {a : Nat} : Keeps s0 (s.logFarEvent p a) :=
  h.memLog.post

theorem farEvent (h : Keeps s0 s) {p : Fin 2} {a : Nat} : Keeps s0 (s.farEvent p a) :=
  h.ite (h.logFarEvent.ite h.same)

theorem receive (h : Keeps s0 s) {p : Nat} {x : Flit} : Keeps s0 (s.receive p x) :=
  h.ite (h.setPort.pump.ite h.setPort.pump)

theorem fabWarn (h : Keeps s0 s) {code : W16} {detail : Nat} : Keeps s0 (s.fabWarn code detail) :=
  h.post.ite h

theorem dropped (h : Keeps s0 s) {detail : Nat} : Keeps s0 (s.dropped detail) :=
  h.event.count.fabWarn

theorem abandonMb (h : Keeps s0 s) {x : Stuck} : Keeps s0 (s.abandonMb x) :=
  h.ite (h.onFab.count.foldl (fun _ _ h1 => h1.send))

theorem skipKeysOf (h : Keeps s0 s) {peer : Nat} : Keeps s0 (s.skipKeysOf peer) :=
  h.foldl (fun _ _ h1 => h1.foldl (fun _ _ h2 => (h2.skip.ite h2).skip.ite (h2.skip.ite h2)))

theorem dropSums (h : Keeps s0 s) {owner : Nat} : Keeps s0 (s.dropSums owner) :=
  h.onFab.foldl (fun _ _ h1 => h1.dropped)

theorem peerGone (h : Keeps s0 s) {peer st : Nat} {waits : Waits} : Keeps s0 (s.peerGone peer st waits) :=
  h.ite (((h.onFab.ite h).onFab.setPeer.onFab.ite (h.onFab.ite h).onFab.setPeer).event.fabWarn.skipKeysOf.dropSums.foldl (fun _ _ h1 => h1.abandonMb))

theorem forBand (h : Keeps s0 s) {x : BandWork} : Keeps s0 (s.forBand x) :=
  h.onFab

theorem noteWhole (h : Keeps s0 s) : Keeps s0 s.noteWhole := by
  unfold Device.noteWhole
  exact h.onFab

theorem partition (h : Keeps s0 s) : Keeps s0 s.partition :=
  h.ite (h.ite (h.ite h.post))

theorem declareLost (h : Keeps s0 s) {peers : List Nat} {waits : Waits} : Keeps s0 (s.declareLost peers waits) :=
  h.ite (h.foldl (fun _ _ h1 => h1.peerGone.send.ite h1)).partition

theorem linkLost (h : Keeps s0 s) {x : LinkEnds} {waits : Waits} : Keeps s0 (s.linkLost x waits) :=
  h.mapLink.declareLost

theorem reroute (h : Keeps s0 s) {m : Msg} : Keeps s0 (s.reroute m) := by
  simp only [Device.reroute]
  split
  exacts [h.setPort, h]

theorem portDown' (h : Keeps s0 s) {p : Nat} {waits : Waits} : Keeps s0 (s.portDown' p waits) :=
  h.ite ((h.setPort.mapLink.foldl (fun _ _ h1 => h1.reroute)).pump.send.post.ite (h.setPort.mapLink.foldl (fun _ _ h1 => h1.reroute)).pump.send).declareLost

theorem replay (h : Keeps s0 s) {p : Nat} {waits : Waits} : Keeps s0 (s.replay p waits) :=
  h.ite (h.eventCount.setPort.portDown'.ite h.eventCount.setPort)

theorem portTrained (h : Keeps s0 s) {p lanes partner partnerPort : Nat} : Keeps s0
    (s.portTrained p lanes partner partnerPort) :=
  h.ite h.setPort.mapLink.send

theorem sendBeats (h : Keeps s0 s) : Keeps s0 s.sendBeats :=
  h.foldl (fun _ _ h1 => h1.send)

theorem heard (h : Keeps s0 s) {peer : Nat} : Keeps s0 (s.heard peer) :=
  h.ite h.setPeer

theorem beat (h : Keeps s0 s) {p : Nat} {x : Beat} : Keeps s0 (s.beat p x) :=
  h.ite (h.heard.setPeer.onFab.setPort.ite h.heard.setPeer.onFab).setRoutes

theorem copyRun (h : Keeps s0 s) {e : Nat} : Keeps s0 (s.copyRun e) :=
  h.ite h.onFab.breakPins.writeBytes.onFab

theorem sendLate (h : Keeps s0 s) {x : Sum} : Keeps s0 (s.sendLate x) :=
  (h.foldl (fun _ _ h1 => h1.send)).onFab.send

theorem sendLateSums (h : Keeps s0 s) : Keeps s0 s.sendLateSums :=
  h.foldl (fun _ _ h1 => h1.sendLate)

theorem answer (h : Keeps s0 s) {f : Fetch} : Keeps s0 (s.answer f) :=
  h.send.onFab.ite h.send

theorem answerFor (h : Keeps s0 s) {f : Fetch} : Keeps s0 (s.answerFor f) := by
  simp only [Device.answerFor]
  split
  exacts [h.send, h.send]

theorem fetch (h : Keeps s0 s) {f : Fetch} {epoch : Byte} : Keeps s0 (s.fetch f epoch) :=
  h.send.ite ((h.answerFor.ite h).ite (h.onFab.ite (h.send.ite h.answer)))

theorem retryFetches (h : Keeps s0 s) : Keeps s0 s.retryFetches :=
  h.onFab.foldl (fun _ _ h1 => h1.fetch)

theorem publish (h : Keeps s0 s) {due : ShardRun → Bool} : Keeps s0 (s.publish due) :=
  h.ite (h.foldl (fun _ _ h1 => h1.setVersion.send)).onFab.retryFetches

theorem publishAll (h : Keeps s0 s) : Keeps s0 s.publishAll :=
  h.publish

theorem publishLate (h : Keeps s0 s) : Keeps s0 s.publishLate :=
  h.publish

theorem notice (h : Keeps s0 s) {e : Nat} {v : W32} {g : W64} : Keeps s0 (s.notice e v g) := by
  unfold Device.notice
  exact h.ite (by dsimp only; split; exacts [h.setVersion.heard.sendLateSums.setPeer.onFab.ite h.setVersion.heard.sendLateSums, h.setVersion.heard.sendLateSums])

theorem answered (h : Keeps s0 s) {e : Nat} {v : W32} : Keeps s0 (s.answered e v) :=
  h.onFab

theorem askNext (h : Keeps s0 s) {e : Nat} {v : W32} {mb : Stuck} : Keeps s0 (s.askNext e v mb) :=
  h.onFab.onFab.ite (h.onFab.send.ite h.answered.event.count.abandonMb)

theorem releasePins (h : Keeps s0 s) : Keeps s0 s.releasePins :=
  h.onFab.foldl (fun _ _ h1 => h1.send)

theorem fetched (h : Keeps s0 s) {e : Nat} {v : W32} {mb : Stuck} {a : Nat} {data : List Byte} : Keeps s0
    (s.fetched e v mb a data) :=
  (h.recording (fun _ h1 => h1.keepReplica.answered.onFab)).ite (h.onFab.count.send.ite h.answered.onFab.count.fabWarn.abandonMb)

theorem fetchAnswer (h : Keeps s0 s) {e : Nat} {v : W32} {mb : Stuck} {a : Nat} {bytes : List Byte} {x : FetchOutcome}
    : Keeps s0 (s.fetchAnswer e v mb a bytes x) := by
  simp only [Device.fetchAnswer]
  split
  exacts [h.fetched, h.askNext, h.send]

theorem noteRoots (h : Keeps s0 s) : Keeps s0 s.noteRoots := by
  unfold Device.noteRoots
  exact h.onFab

theorem hostRecord (h : Keeps s0 s) {r : RecordOut} {bytes : List Byte} : Keeps s0 (s.hostRecord r bytes) := by
  simp only [Device.hostRecord]
  split
  exacts [h, h.same.ite (by split; exacts [h.same, h.setHost.setHost.same])]

theorem export_ (h : Keeps s0 s) {e : Nat} : Keeps s0 (s.export_ e) :=
  h.ite (h.onFab.foldl (fun _ _ h1 => h1.hostRecord.ite h1.send))

theorem exportShard (h : Keeps s0 s) {layer shard : Nat} : Keeps s0 (s.exportShard layer shard) := by
  simp only [Device.exportShard]
  split
  exacts [h.export_, h]

theorem ackRecord (h : Keeps s0 s) {sink : Nat} {v : W32} : Keeps s0 (s.ackRecord sink v) := by
  simp only [Device.ackRecord]
  split
  exacts [h, h.onFab]

theorem takeOver (h : Keeps s0 s) {lost spare : Nat} : Keeps s0 (s.takeOver lost spare) :=
  h.ite (h.event.setPeer.setPeer.setPeer.setPeer.onFab.setFld.onFab.ite h.event.setPeer.setPeer.setPeer.setPeer.onFab).setRoutes

theorem spareExpiry (h : Keeps s0 s) {lost : Nat} : Keeps s0 (s.spareExpiry lost) :=
  h.ite (by split; exacts [h.post, h.post.ite h.takeOver.send])

theorem restoreSegment (h : Keeps s0 s) {e : Nat} {w : List Byte} {x : Nat × Nat × Nat × Nat × Nat × List Byte} :
    Keeps s0 (s.restoreSegment e w x).1 := by
  obtain ⟨kind, stream, index, enc, region, payload⟩ := x
  match kind with
  | 0 => exact h
  | 1 => simp only [Device.restoreSegment]; exact h.writeBytes
  | 2 => simp only [Device.restoreSegment]; exact h.writeBytes
  | _ + 3 => simp only [Device.restoreSegment]; exact h.writeBytes.setNear

theorem clearRemainders (h : Keeps s0 s) {e : Nat} : Keeps s0 (s.clearRemainders e) :=
  h.ite (h.setMemory fun w => Memory.clear_wf w.near.1 _ _)

theorem takeoverFailed (h : Keeps s0 s) {code : W16} : Keeps s0 (s.takeoverFailed code) := by
  simp only [Device.takeoverFailed]
  split
  exacts [h.post.ite h.send, h]

theorem restoreShard (h : Keeps s0 s) {r : Restored} {v : Device} (hv : s.restoreShard r = .ok v) : Keeps s0 v := by
  unfold Device.restoreShard at hv
  extract_lets e step at hv
  have hs : ∀ y ∈ step, Keeps s0 y.1 := by
    refine List.foldlRecOn (motive := fun (z : Option (Device × Option W32 × List Byte × W64)) => ∀ y ∈ z, Keeps s0 y.1) r.records _ ?_ ?_
    · simp only [Option.mem_def, Option.some.injEq, forall_eq']
      exact h.clearRemainders
    · rintro (_ | ⟨t, have_, w, g⟩) hz b _
      · simp
      · have ht : Keeps s0 t := hz _ rfl
        dsimp only
        split
        · simp
        · simp only [Option.mem_def, Option.some.injEq, forall_eq']
          exact foldlFst ht fun _ _ h1 => h1.restoreSegment
  clear_value step
  split at hv
  · next _ t v w g =>
    have ht : Keeps s0 t := hs _ rfl
    split at hv
    · cases hv
    · split at hv
      · cases hv; exact ht.writeBytes.onFab
      · cases hv
  · cases hv
  · cases hv

theorem restore (h : Keeps s0 s) {x : RestoreOutcome} : Keeps s0 (s.restore x) := by
  unfold Device.restore
  refine h.ite ?_
  split
  · exact h.takeoverFailed
  · exact h.takeoverFailed
  · exact h.takeoverFailed
  · next rs =>
    refine h.ite ?_
    have hs (v : Device) (hv : rs.foldl (fun (z : Except W16 Device) r => match z with
        | .ok s => s.restoreShard r
        | .error c => .error c) (.ok s) = .ok v) : Keeps s0 v := by
      revert v
      refine List.foldlRecOn (motive := fun (z : Except W16 Device) => ∀ v, z = .ok v → Keeps s0 v) rs _ ?_ ?_
      · rintro v ⟨⟩; exact h
      · rintro (_ | t) hz r _ v hv
        · cases hv
        · exact (hz t rfl).restoreShard hv
    split
    · next t ht => exact hs t ht
    · exact h.takeoverFailed

theorem invalidSides (h : Keeps s0 s) {e : Nat} : Keeps s0 (s.invalidSides e) :=
  h.foldl (fun _ _ h1 => h1.setNear)

theorem rejoin (h : Keeps s0 s) : Keeps s0 s.rejoin :=
  h.ite (h.foldl (fun _ _ h1 => h1.invalidSides)).setPeer.onFab

theorem countLost (h : Keeps s0 s) : Keeps s0 s.countLost :=
  h.onFab.noteWhole

theorem reshardAcked (h : Keeps s0 s) {peer : Nat} {epoch : Byte} : Keeps s0 (s.reshardAcked peer epoch) :=
  h.onFab

theorem stageDirectory (h : Keeps s0 s) {epoch : Byte} : Keeps s0 (s.stageDirectory epoch) := by
  unfold Device.stageDirectory
  exact h.ite (by dsimp only; split; exacts [h.reshardAcked.send, h.reshardAcked])

theorem bandReturns (h : Keeps s0 s) : Keeps s0 s.bandReturns :=
  h.onFab.foldl (fun _ _ h1 => by split; exacts [h1.notice, h1.stageDirectory, h1.takeOver, h1.restore])

theorem departAll (h : Keeps s0 s) : Keeps s0 s.departAll :=
  h.ite h.send

theorem openShard (h : Keeps s0 s) {e : Nat} {late : Bool} : Keeps s0 (s.openShard e late) := by
  unfold Device.openShard
  exact h.setNear.setNear.setNear.openGroup.ite (h.setNear.setNear.setNear.openGroup.foldl (fun _ _ h1 => (h1.ite h1.skip).skip.ite (h1.ite h1.skip)))

theorem pruneSums (h : Keeps s0 s) : Keeps s0 s.pruneSums := by
  unfold Device.pruneSums
  exact h.onFab

theorem openShards (h : Keeps s0 s) {late : Bool} : Keeps s0 (s.openShards late) := by
  unfold Device.openShards
  exact h.pruneSums.foldl (fun _ _ h1 => h1.openShard)

theorem endSum (h : Keeps s0 s) {x : Sum} : Keeps s0 (s.endSum x) :=
  h.onFab.send.ite h.onFab.sendLateSums

theorem sendEnds (h : Keeps s0 s) : Keeps s0 s.sendEnds :=
  h.foldl (fun _ _ h1 => h1.endSum)

theorem maddFar (h : Keeps s0 s) {e key : Nat} {epoch : Byte} {src : TDesc} {line0 : Nat} {endMark : Bool} : Keeps s0
    (s.maddFar e key epoch src line0 endMark) :=
  (h.dropped.ite h).ite (h.count.ite (h.onFab.sendLateSums.ite h.onFab.send))

theorem maddAny (h : Keeps s0 s) {d : Die} {iaddr : W64} {gid key : Nat} {epoch : Byte} {src : TDesc} {line0 : Nat}
    {endMark : Bool} {shard : Option Nat} : Keeps s0 (s.maddAny d iaddr gid key epoch src line0 endMark shard) :=
  h.refuseVec.ite (h.accessing (fun _ h1 => by split; exacts [h1.madd.ite h1.maddFar, h1.madd]))

theorem cutoffSkip (h : Keeps s0 s) {x : Die × Group × Nat} : Keeps s0 (s.cutoffSkip x) := by
  obtain ⟨d, g, e⟩ := x
  exact h.foldl fun _ _ h1 => h1.ite (h1.skip.send.ite h1.skip.send.dropped)

theorem cutoff (h : Keeps s0 s) : Keeps s0 s.cutoff :=
  h.ite (h.onFab.foldl (fun _ _ h1 => h1.cutoffSkip))

theorem skipNotice (h : Keeps s0 s) {owner e k n : Nat} {late : Bool} {step : W32} {epoch : Byte} : Keeps s0
    (s.skipNotice owner e k n late step epoch) :=
  h.ite (h.onFab.ite (h.onFab.count.ite h.onFab.sendLateSums))

theorem keepVersion (h : Keeps s0 s) {old : List Device.ShardRow} {e : Nat} : Keeps s0
    (Device.keepVersion old s e) := by
  simp only [Device.keepVersion]
  split
  exacts [h.setNear.setNear, h.setNear, h]

theorem switchEpoch (h : Keeps s0 s) {r : Reshard} : Keeps s0 (s.switchEpoch r) :=
  ((h.writeBytes.foldl (fun _ _ h1 => h1.keepVersion)).count.onFab.foldl (fun _ _ h1 => h1.send)).reply

theorem reshardTick (h : Keeps s0 s) : Keeps s0 s.reshardTick.1 := by
  simp only [Device.reshardTick]
  split
  exacts [h, by split; exacts [h, by split; exacts [h.switchEpoch, h.event]]]

theorem putRows (h : Keeps s0 s) {sp : Space} {base w from_ to_ : Nat} {o n : Extent} {bs : List Byte} : Keeps s0
    (s.putRows sp base w from_ to_ o n bs) :=
  h.foldl (fun _ _ h1 => h1.writeBytes)

theorem putSegment (h : Keeps s0 s) {o : Extent} {e : Nat} {x : Nat × Nat × Nat × Nat × Nat × List Byte} : Keeps s0
    (Device.putSegment o e s x) := by
  simp only [Device.putSegment]
  split
  exacts [h.putRows, h.ite h.putRows, by split; exacts [h.putRows, h], h.restoreSegment]

theorem putPart (h : Keeps s0 s) {e : Nat} {x : Moved} : Keeps s0 (Device.putPart e s x) :=
  (h.foldl (fun _ _ h1 => h1.putSegment)).foldl (fun _ _ h1 => by split; exacts [h1.ite h1.writeBytes, h1])

theorem arrived (h : Keeps s0 s) {e : Nat} : Keeps s0 (s.arrived e) :=
  h.setNear.onFab.retryFetches

theorem migrate (h : Keeps s0 s) {x : Migrated} : Keeps s0 (s.migrate x) :=
  h.ite (h.ite (h.onFab.foldl (fun _ _ h1 => h1.putPart)).arrived)

theorem clearBits (h : Keeps s0 s) {off : Nat} {fs : List Fld} : Keeps s0 (s.clearBits off fs) :=
  (h.foldl (fun _ _ h1 => h1.setFld)).setFld.setFld.ite (h.foldl (fun _ _ h1 => h1.setFld))

theorem statusEffect (h : Keeps s0 s) {svc off : Nat} : Keeps s0 (s.statusEffect svc off) :=
  h.same.ite (h.clearBits.foldl (fun _ _ h1 => h1.setFld)).same

theorem statusWrite (h : Keeps s0 s) {svc off : Nat} {v : W32} : Keeps s0 (s.statusWrite svc off v) :=
  h.ite (h.writeReserved.ite ((h.writeReserved.clearBits.foldl (fun _ _ h1 => h1.setFld)).same.ite h.writeReserved.clearBits))

theorem sweepReg (h : Keeps s0 s) {off : Nat} : Keeps s0 (s.sweepReg off) :=
  h.ite ((h.event.configFault.post.same.foldl (fun _ _ h1 => h1.onMitt)).ite ((h.event.configFault.post.same.foldl (fun _ _ h1 => h1.onMitt)).ite ((h.event.configFault.post.same.foldl (fun _ _ h1 => h1.onMitt)).ite h.event.configFault.post.same)))

theorem paritySweep (h : Keeps s0 s) : Keeps s0 s.paritySweep :=
  h.foldl (fun _ _ h1 => h1.sweepReg)

theorem noteFull (h : Keeps s0 s) {r : Fin 4} : Keeps s0 (s.noteFull r) :=
  h.event.ite h

theorem stopRing (h : Keeps s0 s) {r : Fin 4} : Keeps s0 (s.stopRing r) :=
  h.setFld.onRing

theorem rctlWrite (h : Keeps s0 s) {svc : Nat} {r : Fin 4} {v : W32} : Keeps s0 (s.rctlWrite svc r v) := by
  simp only [Device.rctlWrite]
  split
  exacts [(h.writeReserved.foldl (fun _ _ h1 => h1.takeField.ite h1)).setFld.onRing.noteFull.ite (h.writeReserved.foldl (fun _ _ h1 => h1.takeField.ite h1)).configFault,
    (h.writeReserved.foldl (fun _ _ h1 => h1.takeField.ite h1)).stopRing,
    h.writeReserved.foldl (fun _ _ h1 => h1.takeField.ite h1)]

theorem doorbell (h : Keeps s0 s) {r : Fin 4} {v : W32} : Keeps s0 (s.doorbell r v) :=
  h.event.ite (h.event.setFld.onRing.ite h.onRing)

theorem sheadWrite (h : Keeps s0 s) {svc : Nat} {r : Fin 4} {v : W32} : Keeps s0 (s.sheadWrite svc r v) :=
  h.writeFields.noteFull.ite h.writeFields.flush

theorem turnAway (h : Keeps s0 s) {ref : PktRef} {status : Nat} : Keeps s0 (s.turnAway ref status) :=
  h.freeWord.queueReply.event.stopRing.ite h.freeWord.queueReply

theorem passPacket (h : Keeps s0 s) {p : Pkt} : Keeps s0 (s.passPacket p) := by
  unfold Device.passPacket
  exact h.onCmd.onRing

theorem takeClamp (h : Keeps s0 s) : Keeps s0 s.takeClamp := by
  unfold Device.takeClamp
  split
  · exact h
  · next hc =>
    refine h.onPwr fun w => ⟨w.power, w.thermal, fun d => ?_⟩
    have hd := Device.crown_duty w (Bool.eq_false_iff.2 hc)
    fin_cases d
    · exact hd 0
    · exact hd 1
    · exact hd 2
    · exact hd 3

theorem setCause (h : Keeps s0 s) {i : Nat} {on : Bool} : Keeps s0 (s.setCause i on) := by
  unfold Device.setCause
  extract_lets arises s1 s2 s3 s4 s5
  have h2 : Keeps s0 s2 := h.onPwr.onPwr.ite h.onPwr
  have h3 : Keeps s0 s3 := h2.takeClamp.onPwr
  have h4 : Keeps s0 s4 := h3.ite h3.onPwr
  have h5 : Keeps s0 s5 := h4.onPwr.ite h4
  refine h2.ite ?_
  split
  · exact h5
  · exact h5.event.post.ite h5.event

theorem sensorSample (h : Keeps s0 s) {diodes : List Int} : Keeps s0 (s.sensorSample diodes) :=
  h.onPwr.setCause.setCause.onPwr.ite h.onPwr.setCause.setCause

theorem bonnetLoop (h : Keeps s0 s) {temps : List Byte} : Keeps s0 (s.bonnetLoop temps) :=
  (h.foldl (fun _ _ h1 => h1.setFld)).setCause.ite h

theorem countThrottled (h : Keeps s0 s) : Keeps s0 s.countThrottled :=
  h.foldl (fun _ _ h1 => h1.count.ite h1)

theorem addIdle (h : Keeps s0 s) {d : Die} {c n : Nat} : Keeps s0 (s.addIdle d c n) :=
  h.setFld.setFld

theorem countIdle (h : Keeps s0 s) : Keeps s0 s.countIdle :=
  h.ite (h.foldl fun _ _ h1 => foldlFst h1 fun _ _ h2 => h2.freeWord.addIdle)

theorem bucketUpdate (h : Keeps s0 s) {vin current : List Nat} : Keeps s0 (s.bucketUpdate vin current) :=
  h.same.countIdle.countThrottled.onPwr.setCause.setCause.setCause

theorem clampEnforce (h : Keeps s0 s) : Keeps s0 s.clampEnforce := by
  refine h.ite (h.foldl fun v d h1 => h1.onPwr fun w => ⟨w.power, w.thermal, fun e => ?_⟩)
  have hd := w.clamp d
  by_cases he : e = d
  · rw [he, Quad.get_set_self]
    split
    · omega
    · split <;> omega
  · rw [Quad.get_set_ne _ _ he]
    exact w.clamp e

theorem clampHandback (h : Keeps s0 s) : Keeps s0 s.clampHandback := by
  unfold Device.clampHandback
  split
  · next hc =>
    refine h.onPwr fun w => ?_
    have hd (d : Die) := Device.calm_duty w hc.2.1 d
    refine ⟨?_, fun d => ?_, w.clamp⟩
    · have := hd 0; have := hd 1; have := hd 2; have := hd 3
      simp only [Quad.toList, List.foldl]
      omega
    · have h0 := hd 0; have h1 := hd 1; have h2 := hd 2; have h3 := hd 3
      fin_cases d
      · exact h0
      · exact h1
      · exact h2
      · exact h3
  · exact h

theorem crownLoop (h : Keeps s0 s) : Keeps s0 s.crownLoop := by
  have hc (x : Int) : 16 ≤ (Device.clampInt x 16 256).toNat ∧ (Device.clampInt x 16 256).toNat ≤ 256 := by
    unfold Device.clampInt; omega
  refine h.ite (h.onPwr fun w => ⟨hc _, fun d => ?_, w.clamp⟩)
  fin_cases d <;> exact hc _

theorem loadImages (h : Keeps s0 s) {bundle : List Byte} : Keeps s0 (s.loadImages bundle) := by
  unfold Device.loadImages
  have h1 := h.foldl (l := ([0, 1, 2, 3] : List (Fin 4))) (f := fun s p => s.setProc p { (s.procs.get p) with
    up := false, activating := true, code := image bundle p.val, data := [] }) fun _ _ h1 => h1.setProc fun _ => rfl
  exact h1.setCause.same

theorem errRetire (h : Keeps s0 s) {q : W32} : Keeps s0 (s.errRetire q) := by
  unfold Device.errRetire
  extract_lets over_ s1
  have h1 : Keeps s0 s1 := h.onErr fun _ w => ErrQueue.filter_errInv w _
  exact h1.setBk.ite h1

theorem answerJob (h : Keeps s0 s) {kept : Bool} : Keeps s0 (s.answerJob kept) := by
  simp only [Device.answerJob]
  split
  exacts [h, h.freeWord.setHost.freeWord.onJob.reply]

theorem holdReplies (h : Keeps s0 s) : Keeps s0 s.holdReplies := by
  unfold Device.holdReplies
  exact (h.foldl (fun _ _ h1 => h1.replyFree)).onCmd.onFab

theorem holdRecord (h : Keeps s0 s) {unit : W16} {restarts : Nat} {code : W16} : Keeps s0
    (s.holdRecord unit restarts code) :=
  h.setLining

theorem holdVector (h : Keeps s0 s) {was : Device} : Keeps s0 (Device.holdVector was s) :=
  h.raise.ite h

theorem enterHold (h : Keeps s0 s) {unit : W16} {restarts : Nat} {code last : W16} : Keeps s0
    (s.enterHold unit restarts code last) := by
  unfold Device.enterHold
  extract_lets s1 s2 s3 s4 s5 s6 s7 s8 s9 s10 s11 s12
  have h6 : Keeps s0 s6 := (h.departAll.alerting fun _ h1 => h1.setDState).post.holdVector.setFld.stopUnits.onJob
  have h7 : Keeps s0 s7 := h6.ite h6.answerJob
  have h11 : Keeps s0 s11 := h7.onCmd.settle.holdReplies.onFab.foldl fun _ _ h1 => h1.setFld.setFld
  have h12 : Keeps s0 s12 := h11.holdRecord.setBk
  exact h12.withFrm

theorem beginRestart (h : Keeps s0 s) {p : Proc} {fails : Nat} : Keeps s0 (s.beginRestart p fails) := by
  have h1 := (h.setProc (p := procIdx p) (x := { s.procs.get (procIdx p) with
    up := false, restarting := true, fails, activating := false, data := [] }) fun _ => rfl).same (t := { s.setProc (procIdx p)
      { s.procs.get (procIdx p) with up := false, restarting := true, fails, activating := false, data := [] } with
    restarts := s.restarts + 1, lastProc := procIdx p })
  exact h1.setBk.setBk.setCause.ite h1.setBk.setBk

theorem failProc (h : Keeps s0 s) {p : Proc} : Keeps s0 (s.failProc p) := by
  simp only [Device.failProc]
  split
  exacts [h.post.beginRestart, h.post.beginRestart, (h.sameData).enterHold]

theorem processorFailure (h : Keeps s0 s) {p : Proc} : Keeps s0 (s.processorFailure p) :=
  h.failProc.ite h

theorem restartTimeout (h : Keeps s0 s) {p : Proc} : Keeps s0 (s.restartTimeout p) :=
  h.failProc.ite h

theorem bonnetReturns (h : Keeps s0 s) : Keeps s0 s.bonnetReturns :=
  h.same.foldl (fun _ _ h1 => h1.logFarEvent)

theorem processorReady (h : Keeps s0 s) {p : Proc} {waits : Waits} : Keeps s0 (s.processorReady p waits) := by
  unfold Device.processorReady
  exact h.ite (by dsimp only; split; exacts [(h.sameData).setCause, (h.sameData).setRoutes.declareLost.bandReturns.publishLate, (h.sameData).flushAll, ((h.sameData).foldl (fun _ _ h1 => h1.laneDecide)).bonnetReturns])

theorem fwStable (h : Keeps s0 s) {p : Proc} : Keeps s0 (s.fwStable p) := by
  unfold Device.fwStable
  exact (h.sameData).ite h

theorem refclkLost (h : Keeps s0 s) : Keeps s0 s.refclkLost := by
  unfold Device.refclkLost
  exact h.same.post.ite h.same.enterHold

theorem resetRegs (h : Keeps s0 s) {offs : List Nat} : Keeps s0 (s.resetRegs offs) :=
  h.same

theorem clearBlock (h : Keeps s0 s) {target index : Nat} : Keeps s0 (s.clearBlock target index) := by
  unfold Device.clearBlock
  extract_lets d
  split
  · exact h.onDie.resetRegs
  · exact h.onDie.resetRegs
  · exact (h.onDie (f := fun x => { x with gnt := {}, scratch := [], solveOvf := false, solveInv := false })
      fun _ w => ⟨w.tile, rfl, fun _ _ => rfl⟩).resetRegs
  · exact h.onDie.resetRegs
  · exact h.resetRegs
  · exact h.onDie.resetRegs
  · exact h.portDown'.setPort.resetRegs
  · exact h.resetRegs

theorem blockReset (h : Keeps s0 s) {target index : Nat} : Keeps s0 (s.blockReset target index) :=
  h.clearBlock.same.ite h.event

theorem blockDone (h : Keeps s0 s) {target index : Nat} : Keeps s0 (s.blockDone target index) :=
  h.same.event.ite h

theorem unmappedAccess (h : Keeps s0 s) {off : Nat} : Keeps s0 (s.unmappedAccess off) :=
  h.event.setFld.setFld

theorem dataWord (h : Keeps s0 s) {off : Nat} : Keeps s0 (s.dataWord off).2 := by
  simp only [Device.dataWord]
  split
  · exact h.freeWord.setProc fun w => Memory.writeLE_wf (w.rest.2.2 _) _ _ _
  · exact h

theorem windowWrite (h : Keeps s0 s) {space off : Nat} {x : W32} {v : Device} (hv : s.windowWrite space off x = some v)
    : Keeps s0 v := by
  unfold Device.windowWrite at hv
  split at hv
  · cases hv; exact h.onFab
  · split at hv
    · cases hv; exact h.setLining
    · cases hv

theorem indAdvance (h : Keeps s0 s) : Keeps s0 s.indAdvance :=
  h.setFld.ite h

theorem windowRead (h : Keeps s0 s) {svc space off : Nat} {z : W32 × Device} (hz : s.windowRead svc space off = some z)
    : Keeps s0 z.2 := by
  simp only [Device.windowRead, apply_ite (f := fun o => o = some z)] at hz
  split at hz
  · cases hz; exact h
  · split at hz
    · cases hz; exact h
    · split at hz
      · cases hz; exact h
      · split at hz
        · cases hz; exact h
        · split at hz
          · cases hz; exact h.dataWord
          · cases hz

theorem indRead (h : Keeps s0 s) {svc : Nat} : Keeps s0 (s.indRead svc).2 := by
  unfold Device.indRead
  split
  · next v t hw => exact (h.windowRead hw).indAdvance
  · exact h.setFld

theorem indWrite (h : Keeps s0 s) {v : W32} : Keeps s0 (s.indWrite v) := by
  simp only [Device.indWrite]
  split
  exacts [(h.windowWrite ‹_›).indAdvance, h.setFld]

theorem indAddrWrite (h : Keeps s0 s) {svc : Nat} {v : W32} : Keeps s0 (s.indAddrWrite svc v) :=
  h.writeFields.setFld.setFld

theorem regWrite (h : Keeps s0 s) {svc off : Nat} {v : W32} : Keeps s0 (s.regWrite svc off v) :=
  h.writeReserved.commitWrite.ite (h.errRetire.ite (h.writeReserved.blockReset.ite ((h.alerting (fun _ h1 => h1.writeFields)).ite (h.indAddrWrite.ite (h.indWrite.ite (h.writeReserved.doorbell.ite (h.rctlWrite.ite (h.sheadWrite.ite (h.statusWrite.ite h.writeFields)))))))))

theorem busWrite (h : Keeps s0 s) {svc off : Nat} {v : W32} : Keeps s0 (s.busWrite svc off v) :=
  h.regWrite.ite (h.ite h.unmappedAccess)

theorem jend (h : Keeps s0 s) {d : Die} {iaddr : W64} {c : JendCode} : Keeps s0 (s.jend d iaddr c) :=
  h.postIllegal.ite h.onJob

theorem perform (h : Keeps s0 s) {i : Issuer} {op : EngineOp} : Keeps s0 (s.perform i op) := by
  unfold Device.perform
  split
  exacts [h.mma, h.mmaFx, h.mdrain, h.reading fun _ h1 => h1.vcvt, h.reading fun _ h1 => h1.vcvtB,
    h.reading fun _ h1 => h1.vcvtU, 
    h.vsplitF, h.vsplitI, h.vnarrowQ, h.vmaxMin, h.vmaxMin, h.streamAdd, h.hpush, h.hpop, h.applyF, h.gsolve, h.appendRun, h.runpack,
    h.jend, h.onDie, h.openGroup, h.maddAny, h.skip]

theorem admitRuns {d : Die} : ∀ {n : Nat} {s : Device}, Keeps s0 s → Keeps s0 (Device.admitRuns d n s)
  | 0, _, h => h
  | n + 1, s, h => by
    simp only [Device.admitRuns]
    split
    · exact admitRuns h.onPalm.perform
    · exact h

theorem letIn (h : Keeps s0 s) {d : Die} : Keeps s0 (s.letIn d) := by
  unfold Device.letIn
  exact h.admitRuns.ite h

theorem issueBehind (hk : Keeps s0 s) {d : Die} {h : HeldIssue} : Keeps s0 (s.issueBehind d h) :=
  hk.onPalm.letIn

theorem issueInOrder (h : Keeps s0 s) {i : Issuer} {op : EngineOp} : Keeps s0 (s.issueInOrder i op) :=
  h.issueBehind.ite h.perform

theorem prun (h : Keeps s0 s) {i : Issuer} {layer : Nat} : Keeps s0 (s.prun i layer) :=
  h.event.ite h.onPalm.issueBehind

theorem palmStart (h : Keeps s0 s) {d : Die} : Keeps s0 (s.palmStart d) := by
  simp only [Device.palmStart]
  split
  exacts [(h.applyUnit.ite h).letIn.ite ((h.applyUnit.ite h).letIn.onPalm.letIn.ite ((h.applyUnit.ite h).letIn.onPalm.letIn.postIllegal.ite ((h.applyUnit.ite h).letIn.onPalm.letIn.event.post.ite ((h.applyUnit.ite h).letIn.onPalm.letIn.accessing (fun _ h1 => by split; exacts [h1.onPalm.breakPins, h1.onPalm]))))),
    (h.applyUnit.ite h).letIn]

theorem drainAndLetIn (h : Keeps s0 s) {d : Die} {m : Nat} : Keeps s0 (s.drainAndLetIn d m) :=
  h.tileDrain.letIn

theorem beginWipe (h : Keeps s0 s) {areas : Option (List (Nat × Nat))} : Keeps s0 (s.beginWipe areas) :=
  h.same.setFld

theorem wipeDies (h : Keeps s0 s) : Keeps s0 s.wipeDies where
  duty := h.duty
  err := h.err
  mem w := Device.memInv_of_dies (h.mem w) fun d => by
    rw [Quad.get_map]
    exact ⟨⟨rfl, fun _ _ => rfl⟩, rfl, fun _ _ => rfl⟩

theorem wipeWhole (h : Keeps s0 s) : Keeps s0 s.wipeWhole where
  duty := h.duty
  err := h.err
  mem w :=
    have w := h.mem w
    ⟨w.tile, w.scratch, ⟨rfl, fun _ _ => rfl⟩, Sparse.keep_wf _ w.far, w.rest⟩

theorem wipeSet (h : Keeps s0 s) : Keeps s0 s.wipeSet :=
  h.onCmd.wipeWhole.beginWipe

theorem keepFar (h : Keeps s0 s) {p : Nat → Bool} : Keeps s0 { s with mem := { s.mem with far := s.mem.far.keep p } } :=
  h.setFar fun w => Sparse.keep_wf p w

theorem wipeBetween (h : Keeps s0 s) : Keeps s0 s.wipeBetween := by
  unfold Device.wipeBetween
  extract_lets ds spill s1 s2
  have h2 : Keeps s0 s2 := h.wipeDies.setMemory fun w => Memory.foldl_wf w.near.1 fun _ _ w1 => Memory.clear_wf w1 _ _
  clear_value s2
  exact h2.keepFar.beginWipe

theorem clearJob (h : Keeps s0 s) : Keeps s0 s.clearJob :=
  h.same.same

theorem move (h : Keeps s0 s) {t : Transfer} : Keeps s0 (s.move t) :=
  (h.writeBytes.ite h.setHost).burstRead.reply.ite (Keeps.reply (by split; exacts [(h.writeBytes.ite h.setHost).burstRead.ite (h.writeBytes.ite h.setHost), h.writeBytes.ite h.setHost]))

theorem runTransfers (h : Keeps s0 s) : Keeps s0 s.runTransfers :=
  (h.onCmd.foldl (fun _ _ h1 => h1.move)).ite h

theorem startTransfer (h : Keeps s0 s) {t : Transfer} : Keeps s0 (s.startTransfer t) :=
  h.move.ite h.onCmd

theorem version (h : Keeps s0 s) {nv : Nv} {ref : PktRef} {pl : List Byte} : Keeps s0 (s.version nv ref pl) :=
  h.replyFree.ite h.setHost.same.onCmd.replyFree

theorem jobQuery (h : Keeps s0 s) {ref : PktRef} {pl : List Byte} : Keeps s0 (s.jobQuery ref pl) := by
  simp only [Device.jobQuery]
  split
  exacts [h.setHost.freeWord.replyFree, h.replyFree]

theorem acctRead (h : Keeps s0 s) {ref : PktRef} {pl : List Byte} : Keeps s0 (s.acctRead ref pl) :=
  h.setHost.replyFree

theorem reshard (h : Keeps s0 s) {ref : PktRef} {pl image : List Byte} : Keeps s0 (s.reshard ref pl image) :=
  h.replyFree.ite (h.replyFree.ite (h.replyFree.ite (h.replyFree.ite (h.onFab.stageDirectory.ite h.onFab.forBand))))

theorem baseExport (h : Keeps s0 s) {ref : PktRef} : Keeps s0 (s.baseExport ref) :=
  h.replyFree.ite h.onFab.reply

theorem hostRingSet (h : Keeps s0 s) {ref : PktRef} {pl : List Byte} : Keeps s0 (s.hostRingSet ref pl) :=
  h.replyFree.ite h.onCmd.replyFree

theorem hostAck (h : Keeps s0 s) {r : RecordOut} : Keeps s0 (s.hostAck r) :=
  h.onFab

theorem dsAck (h : Keeps s0 s) {ref : PktRef} {pl : List Byte} : Keeps s0 (s.dsAck ref pl) :=
  h.replyFree.ite (by split; exacts [h.reply, h.replyFree.ite ((h.foldl (fun _ _ h1 => h1.hostAck)).onCmd.foldl (fun _ _ h1 => h1.hostRecord)).reply])

theorem submit (h : Keeps s0 s) {ref : PktRef} {pl : List Byte} : Keeps s0 (s.submit ref pl) :=
  h.replyFree.ite (h.replyFree.ite (h.replyFree.ite h.onCmd))

theorem withdraw (h : Keeps s0 s) {ref : PktRef} : Keeps s0 (s.withdraw ref) := by
  simp only [Device.withdraw]
  split
  exacts [h.replyFree, h.onCmd.reply.replyFree]

theorem abort (h : Keeps s0 s) {ref : PktRef} : Keeps s0 (s.abort ref) :=
  h.endJob.replyFree.ite h.replyFree

theorem yieldPacket (h : Keeps s0 s) {ref : PktRef} {pl : List Byte} : Keeps s0 (s.yieldPacket ref pl) :=
  h.replyFree.ite (h.replyFree.ite ((h.onCmd.foldl (fun _ _ h1 => h1.replyFree)).replyFree.ite (h.reply.ite h.onCmd)))

theorem seqJoin (h : Keeps s0 s) {ref : PktRef} {pl : List Byte} : Keeps s0 (s.seqJoin ref pl) :=
  h.replyFree.ite (h.replyFree.ite (h.onJob.replyFree.ite (h.replyFree.ite (h.replyFree.ite h.onCmd))))

theorem seqLeave (h : Keeps s0 s) {ref : PktRef} {pl : List Byte} : Keeps s0 (s.seqLeave ref pl) :=
  h.replyFree.ite (h.onCmd.ite (h.onCmd.ite h.replyFree))

theorem decayAll (h : Keeps s0 s) : Keeps s0 s.decayAll := by
  unfold Device.decayAll
  exact h.onCmd

theorem takeJob (h : Keeps s0 s) : Keeps s0 s.takeJob := by
  simp only [Device.takeJob]
  split
  exacts [h.decayAll, h.decayAll.onCmd.setDState.wipeSet.ite h.decayAll.onCmd.setDState]

theorem chooseJob (h : Keeps s0 s) : Keeps s0 s.chooseJob :=
  h.takeJob.ite h

theorem loadFault (h : Keeps s0 s) {far : Bool} {a n : Nat} : Keeps s0 (s.loadFault far a n) := by
  simp only [Device.loadFault]
  split
  exacts [h.failAccess, h]

theorem loadBytes (h : Keeps s0 s) {far : Bool} {a : Nat} {bs : List Byte} : Keeps s0 ((s.loadBytes far a bs).1) := by
  simp only [Device.loadBytes]
  split
  exacts [h.writeBytes, h.loadFault]

theorem loadSegment (h : Keeps s0 s) {svc : Nat} {g : Segment} {data : SegData} : Keeps s0
    (Device.loadSegment svc s g data).1 := by
  cases data with
  | none => exact h
  | some bs =>
    unfold Device.loadSegment
    dsimp only
    split
    · exact h.loadBytes
    · exact h.loadBytes
    · split
      · exact h
      · dsimp only
        exact (h.foldl fun _ _ h1 => h1.busWrite).foldl fun _ _ h1 => h1.postCommit
    · split
      · exact h
      · dsimp only
        exact h.onFab
    · split
      · dsimp only
        exact h.loadBytes.onFab
      · exact h.loadBytes

theorem loadAll {svc : Nat} : ∀ {gs : List (Segment × SegData)} {s : Device}, Keeps s0 s → Keeps s0 (s.loadAll svc gs).1
  | [], _, h => h
  | g :: gs, s, h => by
    simp only [Device.loadAll]
    split
    · exact loadAll h.loadSegment
    · exact h.loadSegment

theorem clearCounters (h : Keeps s0 s) : Keeps s0 s.clearCounters :=
  ((h.foldl (fun _ _ h1 => h1.setFld)).foldl (fun _ _ h1 => h1.setFld)).setFld

theorem latchFarMap (h : Keeps s0 s) : Keeps s0 s.latchFarMap :=
  h.same

theorem latchModes (h : Keeps s0 s) : Keeps s0 s.latchModes :=
  h.applyUnit.applyUnit.latchFarMap.same.setFld.setFld.clearCounters

theorem enterRunning (h : Keeps s0 s) {d : JobDesc} : Keeps s0 (s.enterRunning d) :=
  h.interim.noteWhole.onJob.setDState.runTransfers

theorem startJob (h : Keeps s0 s) {svc : Nat} {segs : List SegData} : Keeps s0 (s.startJob svc segs) := by
  simp only [Device.startJob]
  split
  exacts [h,
    h.endJob.ite (h.endJob.ite (h.loadAll.ite (h.loadAll.endJob.ite (h.loadAll.ite h.loadAll.setFld).latchModes.enterRunning)))]

theorem refuseRest (h : Keeps s0 s) : Keeps s0 s.refuseRest :=
  h.foldl (fun _ _ h1 => h1.replyFree)

theorem closeJob (h : Keeps s0 s) : Keeps s0 s.closeJob := by
  simp only [Device.closeJob]
  split
  exacts [h,
    h.ite ((h.returnJoins.departAll.ite h.returnJoins).answerJob.refuseRest.wipeBetween.ite (h.returnJoins.departAll.ite h.returnJoins).answerJob.refuseRest.wipeBetween.wipeSet).onJob.clearJob.settle]

theorem chargeJob (h : Keeps s0 s) : Keeps s0 s.chargeJob := by
  simp only [Device.chargeJob]
  split
  exacts [h.ite (h.decayAll.onCmd.takeJob.ite h.decayAll.onCmd.setDState), h]

theorem startWipe (h : Keeps s0 s) : Keeps s0 s.startWipe := by
  simp only [Device.startWipe]
  split
  exacts [h.onJob.wipeSet, h.onCmd.onJob, h]

theorem afterWipe (h : Keeps s0 s) : Keeps s0 s.afterWipe :=
  h.ite (h.startWipe.ite h.chargeJob)

theorem wipeDone (h : Keeps s0 s) : Keeps s0 s.wipeDone :=
  h.ite h.setFld.afterWipe.runTransfers

theorem linkDown_ (h : Keeps s0 s) : Keeps s0 s.linkDown_ :=
  h.onCmd

theorem linkUp_ (h : Keeps s0 s) {width rate : Byte} : Keeps s0 (s.linkUp_ width rate) :=
  h.ite h.onCmd.flushAll

theorem hotReset (h : Keeps s0 s) : Keeps s0 s.hotReset :=
  h.linkDown_.foldl (fun _ _ h1 => h1.stopRing)

theorem sigReject (h : Keeps s0 s) : Keeps s0 s.sigReject :=
  h.event

theorem deferActivation (h : Keeps s0 s) {ref : PktRef} : Keeps s0 (s.deferActivation ref) :=
  h.freeWord.interim.post.ite h

theorem abandonActivation (h : Keeps s0 s) : Keeps s0 s.abandonActivation := by
  simp only [Device.abandonActivation]
  split
  exacts [h, h.onCmd.post.replyFree.ite h]

theorem calRestore (h : Keeps s0 s) {ref : PktRef} : Keeps s0 (s.calRestore ref) :=
  h.replyFree.ite h.onCmd

theorem closeBatches (h : Keeps s0 s) : Keeps s0 s.closeBatches :=
  h.foldl (fun _ _ h1 => h1.closeFilling)

theorem acknowledged (h : Keeps s0 s) {xs : List Outgoing} : Keeps s0 (s.acknowledged xs) :=
  h.onFab

theorem reEvaluate (h : Keeps s0 s) : Keeps s0 s.reEvaluate :=
  h.setFld.setFld.ite h.setFld

theorem frameCommits (h : Keeps s0 s) : Keeps s0 s.frameCommits :=
  ((h.applyUnit.onFrm.onFab.ite h.applyUnit).foldl (fun _ _ h1 => h1.applyUnit.applyUnit)).applyUnit.applyUnit.reEvaluate

theorem showYield (h : Keeps s0 s) : Keeps s0 s.showYield :=
  h.ite (h.onCmd.onJob.foldl (fun _ _ h1 => h1.reply))

theorem applyLeaves (h : Keeps s0 s) : Keeps s0 s.applyLeaves :=
  (h.onCmd.foldl (fun _ _ h1 => h1.replyFree)).foldl (fun _ _ h1 => h1.reply)

theorem tryJoin {z : Device × Bool} (h : Keeps s0 z.1) {j : Join} : Keeps s0 (Device.tryJoin z j).1 := by
  obtain ⟨s, blocked⟩ := z
  have h : Keeps s0 s := h
  unfold Device.tryJoin
  dsimp only
  split
  · dsimp only
    exact h.replyFree
  · split
    · dsimp only
      exact h.replyFree
    · split
      · dsimp only
        exact h.onCmd.reply
      · dsimp only
        exact (h.foldl fun _ _ h1 => h1.event.count).onCmd

theorem admission (h : Keeps s0 s) {joins : Bool} : Keeps s0 (s.admission joins) := by
  refine h.applyLeaves.ite ?_
  have h1 : Keeps s0 (s.applyLeaves.onCmd fun c => { c with joins := [] }) := h.applyLeaves.onCmd
  exact foldlFst (z := (_, false)) h1 fun _ _ h2 => h2.tryJoin

theorem diesOn (h : Keeps s0 s) {f : Device → Die → Device} (hf : ∀ v d, Keeps s0 v → Keeps s0 (f v d)) : Keeps s0
    (s.diesOn f) :=
  h.foldl fun _ _ h1 => h1.whileOn fun _ h2 => hf _ _ h2

theorem stampWatch (h : Keeps s0 s) {d : Die} : Keeps s0 (s.stampWatch d) := by
  unfold Device.stampWatch
  exact h.recording (fun _ h1 => h1.writeBytes)

theorem clearHistograms (h : Keeps s0 s) : Keeps s0 s.clearHistograms :=
  h.foldl fun _ _ h1 => h1.recording fun _ h2 => h2.setMemory fun w => Memory.clear_wf w.near.1 _ _

theorem stepStart (h : Keeps s0 s) {j : Job} {switched : Bool} : Keeps s0 (s.stepStart j switched) := by
  unfold Device.stepStart
  exact ((h.onFrm.onJob.clearHistograms.onFab.onFab.diesOn (fun _ _ h1 => h1.stampWatch.discardLeftover.cuffStepStart.onPalm)).diesOn (fun _ _ h1 => h1.gntStepStart)).whileOn (fun _ h1 => h1.sendLeaving.openShards)

theorem pulse (h : Keeps s0 s) : Keeps s0 s.pulse :=
  ((h.onFrm.raise.ite h.onFrm).send.ite (h.onFrm.raise.ite h.onFrm)).countLost

theorem overrun (h : Keeps s0 s) : Keeps s0 s.overrun :=
  ((h.ite h.eventCount.count.onFrm.post).eventCount.diesOn (fun _ _ h1 => h1.gntDeadline)).ite (h.ite h.eventCount.count.onFrm.post).eventCount

theorem boundary (h : Keeps s0 s) : Keeps s0 s.boundary.1 := by
  unfold Device.boundary
  extract_lets s1 s2 s3
  have h1 : Keeps s0 s1 := (h.diesOn fun _ _ h1 => h1.gntDeadline).ite h
  have h2 : Keeps s0 s2 := h1.noteRoots.diesOn fun _ _ h1 => h1.gntCommit
  have h3 : Keeps s0 s3 := (h2.whileOn fun _ h1 => h1.releasePins.rejoin).whileOn fun _ h1 => h1.publishAll
  clear_value s3
  split
  · exact h3.onJob.frameCommits.reshardTick
  · exact h3.frameCommits

theorem afterBoundary (h : Keeps s0 s) {switched : Bool} : Keeps s0 (s.afterBoundary switched) := by
  unfold Device.afterBoundary
  exact h.whileOn (fun _ h1 => by split; exacts [h1, by split; exacts [h1.admission.endJob, h1.showYield.admission.stepStart]])

theorem tick (h : Keeps s0 s) {done : ProgDone} : Keeps s0 (s.tick done) := by
  unfold Device.tick
  extract_lets s1 s2 s3 z
  have h1 : Keeps s0 s1 := h.pulse
  have h2 : Keeps s0 s2 := h1.acknowledged
  have h3 : Keeps s0 s3 := (h2.closeBatches.ite h2).sendEnds
  exact h1.frameCommits.ite (h3.overrun.ite (h3.boundary.afterBoundary.ite h3.frameCommits.afterBoundary))

theorem inPlace (h : Keeps s0 s) : Keeps s0 s.inPlace :=
  h.onFrm.onFab

theorem frameTick (h : Keeps s0 s) {done : ProgDone} : Keeps s0 (s.frameTick done) :=
  h.ite (h.tick.inPlace.ite h.tick)

theorem tickLost (h : Keeps s0 s) {done : ProgDone} : Keeps s0 (s.tickLost done) :=
  h.ite h.event.post.onFrm.tick.onFrm.inPlace

theorem externalTick (h : Keeps s0 s) {cycles : Nat} {spaced : Bool} {done : ProgDone} : Keeps s0
    (s.externalTick cycles spaced done) :=
  h.ite ((h.event.onFrm.ite (h.ite (h.onFrm.ite h.onFrm.tick))).ite (h.event.ite h.onFrm.tick))

theorem tickIn (h : Keeps s0 s) {cycles : Nat} {done : ProgDone} : Keeps s0 (s.tickIn cycles done) :=
  h.externalTick.ite h

theorem fabricTick (h : Keeps s0 s) {done : ProgDone} : Keeps s0 (s.fabricTick done) :=
  h.externalTick.ite h

theorem recordReset (h : Keeps s0 s) {cause : Nat} : Keeps s0 (s.recordReset cause) :=
  h.setLining.setBk

/-- The Lining becomes another memory in canonical form. -/
theorem withLining (h : Keeps s0 s) {m : Memory} (hm : MemInv s → m.wf = true) : Keeps s0 { s with lining := m } where
  duty := h.duty
  err := h.err
  mem w :=
    have w := h.mem w
    ⟨w.tile, w.scratch, w.near, w.far, hm w, w.rest.2⟩

theorem wipeLining (h : Keeps s0 s) : Keeps s0 s.wipeLining :=
  h.withLining fun _ => Memory.writeLE_wf (Memory.writeLE_wf (Memory.writeLE_wf rfl _ _ _) _ _ _) _ _ _

theorem clearArea (h : Keeps s0 s) {i : Nat} : Keeps s0 (s.clearArea i) := by
  unfold Device.clearArea
  split
  · exact (h.withLining fun w => Memory.clear_wf w.rest.1 _ _).post
  · exact h

theorem checkLining (h : Keeps s0 s) {bad : List Nat} : Keeps s0 (s.checkLining bad) := by
  unfold Device.checkLining
  have h1 := h.foldl (l := bad) (f := Device.clearArea) fun _ _ h1 => h1.clearArea
  exact h1.ite (h1.withLining fun _ => Memory.writeLE_wf (Memory.writeLE_wf rfl _ _ _) _ _ _).setFld

theorem inResetFrom (h : Keeps s0 s) {cause : Nat} : Keeps s0 (s.inResetFrom cause) where
  duty _ := dutyInv_default
  err _ := errInv_default
  mem w :=
    have w := h.mem w
    ⟨fun d => by fin_cases d <;> exact ⟨rfl, fun _ _ => rfl⟩, fun d => by fin_cases d <;> exact ⟨rfl, fun _ _ => rfl⟩,
      ⟨rfl, fun _ _ => rfl⟩, rfl, w.rest.1, w.rest.2.1, fun p => by fin_cases p <;> rfl⟩

theorem armPower (h : Keeps s0 s) : Keeps s0 s.armPower :=
  h.onPwr

theorem startProcessors (h : Keeps s0 s) : Keeps s0 s.startProcessors := by
  unfold Device.startProcessors
  exact (h.foldl fun _ _ h1 => h1.setProc fun _ => rfl).setCause.flushAll

theorem runBundle (h : Keeps s0 s) {b : List Byte} : Keeps s0 (s.runBundle b) :=
  h.same.startProcessors

end Keeps

end Sys2Proof.Machine
end

section
/-! What each operation of the machine leads to: registers, packets, firmware, resets, lifecycle and TAP. -/

set_option Elab.async false

namespace Sys2Proof.Machine

open Sys2Proof.Safety Device

/-- What a step may do to the fuses: it keeps their invariant and takes back none that is blown. -/
structure Burns (m n : Nv) : Prop where
  inv : FuseInv m → FuseInv n
  words : FuseInv m → ∀ i : Fin 4, m.words.get i ≤ n.words.get i
  minSv : m.minSv ≤ n.minSv
  revoked : m.root0Revoked = true → n.root0Revoked = true

namespace Burns

theorem refl (m : Nv) : Burns m m := ⟨id, fun _ _ => le_rfl, le_rfl, id⟩

theorem trans {k m n : Nv} (h : Burns k m) (g : Burns m n) : Burns k n :=
  ⟨fun w => g.inv (h.inv w), fun w i => (h.words w i).trans (g.words (h.inv w) i), h.minSv.trans g.minSv, fun w => g.revoked (h.revoked w)⟩

/-- A change of nothing that the fuses' invariant speaks of. -/
theorem same {m n : Nv} (hw : n.words = m.words := by rfl) (hs : n.minSv = m.minSv := by rfl) (hu : n.uds = m.uds := by rfl)
    (hr : n.root0Revoked = m.root0Revoked := by rfl) : Burns m n where
  inv w := ⟨hw ▸ w.words, hs ▸ w.minSv, by rw [hw, hu]; exact w.secret⟩
  words _ i := by rw [hw]
  minSv := hs.ge
  revoked h := hr.trans h

theorem setSlot (m : Nv) (k : Nat) (b : List Byte) (good : Bool) : Burns m (m.setSlot k b good) := by
  unfold Nv.setSlot
  split <;> exact .same

theorem word_le {m : Nv} (w : FuseInv m) (i : Fin 4) : m.words.get i ≤ 32 :=
  w.words _ (by fin_cases i <;> simp [Quad.get, Quad.toList])

/-- A word of 32 blown fuses takes none back. -/
theorem setWord_words {m : Nv} (w : FuseInv m) (i j : Fin 4) : m.words.get j ≤ (m.words.set i 32).get j := by
  by_cases h : j = i
  · rw [h, Quad.get_set_self]; exact word_le w i
  · rw [Quad.get_set_ne _ _ h]

theorem setWord_le {m : Nv} (w : FuseInv m) (i : Fin 4) : ∀ x ∈ (m.words.set i 32).toList, x ≤ 32 := by
  have h (j : Fin 4) : (m.words.set i 32).get j ≤ 32 := by
    by_cases hj : j = i
    · rw [hj, Quad.get_set_self]
    · rw [Quad.get_set_ne _ _ hj]; exact word_le w j
  simp only [Quad.toList, List.mem_cons, List.not_mem_nil, or_false]
  rintro x (rfl | rfl | rfl | rfl)
  · exact h 0
  · exact h 1
  · exact h 2
  · exact h 3

end Burns

/-- A state that a command leads to: the device is as well formed as before, and no blown fuse is taken back. -/
structure Goes (s t : State) : Prop where
  dev : Keeps s.dev t.dev
  nv : Burns s.nv t.nv

namespace Goes

variable {s t : State}

theorem refl : Goes s s := ⟨.refl, .refl _⟩

theorem trans {u : State} (h : Goes s t) (g : Goes t u) : Goes s u :=
  ⟨⟨fun w => g.dev.duty (h.dev.duty w), fun w => g.dev.err (h.dev.err w), fun w => g.dev.mem (h.dev.mem w)⟩, h.nv.trans g.nv⟩

theorem ite {c : Prop} {_ : Decidable c} {a b : State} (ha : Goes s a) (hb : Goes s b) : Goes s (if c then a else b) := by
  split
  · exact ha
  · exact hb

/-- A change of neither device nor fuses. -/
theorem same (h : Goes s t) {u : State} (hd : u.dev = t.dev := by rfl) (hn : u.nv = t.nv := by rfl) : Goes s u :=
  ⟨hd ▸ h.dev, hn ▸ h.nv⟩

/-- Another device. -/
theorem setDev (h : Goes s t) {v : Device} (hv : Keeps t.dev v) : Goes s { t with dev := v } :=
  h.trans ⟨hv, .refl _⟩

theorem onDevice (h : Goes s t) {f : Device → Device} (hf : ∀ v, Keeps s.dev v → Keeps s.dev (f v)) : Goes s (t.onDevice f) :=
  ⟨hf _ h.dev, h.nv⟩

theorem onNv (h : Goes s t) {f : Nv → Nv} (hf : Burns t.nv (f t.nv)) : Goes s (t.onNv f) := ⟨h.dev, h.nv.trans hf⟩

/-! ## Reads and writes of registers -/

theorem regRead (h : Goes s t) {off : Nat} {mirror : Bool} : Goes s (t.regRead off mirror).2 := by
  unfold State.regRead
  extract_lets v x u w
  have hw : Goes s w := (h.onDevice fun _ h1 => h1.same).ite h
  split
  · exact h.setDev (Keeps.refl.indRead)
  · split
    · dsimp only
      exact h.onDevice fun _ h1 => h1.same
    · exact (hw.onDevice fun _ h1 => h1.statusEffect).ite hw

theorem busRead (h : Goes s t) {off : Nat} : Goes s (t.busRead off).2 := by
  unfold State.busRead
  extract_lets mirror reg
  split
  · exact h.regRead
  · split
    · exact h
    · exact h.onDevice fun _ h1 => h1.unmappedAccess

theorem complete (h : Goes s t) {v : W64} : Goes s (t.complete v) := h.onDevice fun _ h1 => h1.withRegs

theorem hostRead (h : Goes s t) {off : Nat} {w : Width} : Goes s (t.hostRead off w) := by
  cases w with
  | b64 => exact h.busRead.busRead.complete
  | b32 => exact h.busRead.complete
  | b16 => exact h.busRead.complete
  | b8 => exact h.busRead.complete

theorem narrowWrite (h : Goes s t) {off : Nat} : Goes s (t.onDevice fun v =>
    if t.mapped off true then v.event R.GLB_STAT_WIDTH_ERR else (v.event R.GLB_STAT_WIDTH_ERR).unmappedAccess off) :=
  h.onDevice fun _ h1 => h1.event.ite h1.event.unmappedAccess

theorem hostWrite (h : Goes s t) {off : Nat} {w : Width} {v : W64} : Goes s (t.hostWrite off w v) := by
  cases w with
  | b64 => exact (h.onDevice fun _ h1 => h1.busWrite).onDevice fun _ h1 => h1.busWrite
  | b32 => exact h.onDevice fun _ h1 => h1.busWrite
  | b16 => exact h.narrowWrite
  | b8 => exact h.narrowWrite

/-! ## I3C -/

theorem busHeld (h : Goes s t) : Goes s t.busHeld := h.setDev Keeps.refl.same

theorem onI3c (h : Goes s t) {f : I3c → I3c} : Goes s (t.onI3c f) := h.onDevice fun _ h1 => h1.same

theorem i3cError (h : Goes s t) : Goes s t.i3cError := h.onI3c

theorem i3cData (h : Goes s t) : Goes s t.i3cData.2 := by
  unfold State.i3cData
  extract_lets a off x
  have hx : Goes s x.2 := by
    dsimp only [x]
    split
    · split
      · exact h.busRead
      · exact h.i3cError
    · split
      · next v u hw => exact h.setDev (Keeps.refl.windowRead hw)
      · exact h.i3cError
    · split
      · next v u hw => exact h.setDev (Keeps.refl.windowRead hw)
      · exact h.i3cError
    · exact h.i3cError
  dsimp only
  exact hx.onI3c

theorem i3cWrite (h : Goes s t) {v : W32} : Goes s (t.i3cWrite v) := by
  unfold State.i3cWrite
  extract_lets a off u
  have hu : Goes s u := by
    dsimp only [u]
    split
    · split
      · exact h.onDevice fun _ h1 => h1.busWrite
      · exact h.i3cError
    · split
      · next w hw => exact h.setDev (Keeps.refl.windowWrite hw)
      · exact h.i3cError
    · exact h.i3cError
  exact hu.onI3c

/-! ## Packets, firmware and calibration -/

theorem reply (h : Goes s t) {ref : PktRef} {status result : Nat} : Goes s (t.reply ref status result) := h.onDevice fun _ h1 => h1.reply

theorem replyFree (h : Goes s t) {ref : PktRef} {status : Nat} : Goes s (t.replyFree ref status) := h.onDevice fun _ h1 => h1.replyFree

theorem packet (h : Goes s t) {p : Pkt} {op : Nat} {body : PktRef → List Byte → State → State}
    (hb : ∀ ref pl u, Goes s u → Goes s (body ref pl u)) : Goes s (t.packet p op body) := by
  unfold State.packet
  extract_lets v op ref t1 t2
  have h1 : Goes s t1 := h.onDevice fun _ h1 => h1.passPacket
  have h2 : Goes s t2 := h1.onDevice fun _ h1 => h1.onRing
  refine .ite (.ite (h.onDevice fun _ h1 => h1.onRing) h) (.ite (h.onDevice fun _ h1 => h1.event.stopRing) (.ite ?_ (.ite ?_ (.ite h2 ?_))))
  · exact h.onDevice fun _ h1 => h1.turnAway
  · exact h1.onDevice fun _ h1 => h1.turnAway
  · split
    · exact h2.onDevice fun _ h1 => h1.turnAway
    · exact hb _ _ _ (h2.onDevice fun _ h1 => h1.onRing)

theorem advanceActivation (h : Goes s t) : Goes s t.advanceActivation := by
  unfold State.advanceActivation
  split
  · exact h
  · exact (h.setDev Keeps.refl.onCmd.loadImages).ite (h.setDev Keeps.refl.onCmd)

theorem stage (h : Goes s t) {ref : PktRef} {pl bundle : List Byte} : Goes s (t.stage ref pl bundle) := by
  unfold State.stage
  extract_lets len k b
  refine h.replyFree.ite ?_
  split
  · exact ((h.onNv (f := fun n => n.setSlot k [] false) (.setSlot ..)).onDevice fun _ h1 => h1.sigReject).replyFree
  · exact h.replyFree
  · exact (h.onNv (f := fun n => n.setSlot k b true) (.setSlot ..)).replyFree

theorem activate (h : Goes s t) {ref : PktRef} {pl : List Byte} : Goes s (t.activate ref pl) :=
  h.replyFree.ite (h.replyFree.ite (h.onDevice fun _ h1 => h1.onCmd.deferActivation).advanceActivation)

theorem finishActivation (h : Goes s t) : Goes s t.finishActivation := by
  unfold State.finishActivation
  split
  · exact h
  · refine Goes.ite ?_ h
    exact (((h.onNv .same).onDevice fun _ h1 => h1.same).onDevice fun _ h1 => h1.onCmd.post).reply

theorem calWrite (h : Goes s t) {ref : PktRef} {set : List Byte} : Goes s (t.calWrite ref set) :=
  (h.onNv .same).replyFree.ite h.replyFree

theorem calRestored (h : Goes s t) : Goes s t.calRestored := by
  unfold State.calRestored
  split
  · exact h
  · refine .ite (h.onDevice fun _ h1 => h1.onCmd) ?_
    exact ((h.onNv .same).onDevice fun _ h1 => h1.onCmd).replyFree

theorem procReady (h : Goes s t) {x : Losing Proc} : Goes s (t.procReady x) := by
  have h1 := h.onDevice (f := fun v => (v.processorReady x.subject x.waits).afterWipe) fun _ h1 => h1.processorReady.afterWipe
  exact (h1.calRestored.ite h1).advanceActivation

/-! ## Resets -/

theorem beginReset (h : Goes s t) {cause : Nat} : Goes s (t.beginReset cause) := h.onDevice fun _ h1 => h1.recordReset.inResetFrom

theorem renewNonce (h : Goes s t) : Goes s t.renewNonce := h.trans ⟨Keeps.refl.same, .same⟩

theorem repairWords {n : Nv} : Burns n { n with
    words := n.words.map fun w => if cutOff w then 32 else w, uds := if cutOff n.words.q3 then none else n.uds } := by
  have up (w : Nat) (hw : w ≤ 32) : w ≤ (if cutOff w then 32 else w) ∧ (if cutOff w then 32 else w) ≤ 32 := by split <;> omega
  refine ⟨fun w => ⟨?_, w.minSv, ?_⟩, fun w i => ?_, le_rfl, id⟩
  · simp only [Quad.toList, Quad.map, List.mem_cons, List.not_mem_nil, or_false]
    rintro x (rfl | rfl | rfl | rfl)
    · exact (up _ (Burns.word_le w 0)).2
    · exact (up _ (Burns.word_le w 1)).2
    · exact (up _ (Burns.word_le w 2)).2
    · exact (up _ (Burns.word_le w 3)).2
  · intro h24
    dsimp only [Quad.map] at h24 ⊢
    split
    · rfl
    · next hc => exact w.secret (by simpa [hc] using h24)
  · rw [Quad.get_map]
    exact (up _ (Burns.word_le w i)).1

theorem repairFuses (h : Goes s t) : Goes s t.repairFuses := by
  unfold State.repairFuses
  exact .ite ((h.onNv repairWords).onDevice fun _ h1 => h1.wipeLining.event.post.wipeDies.wipeWhole) h

theorem takeCal (h : Goes s t) : Goes s t.takeCal := by
  unfold State.takeCal
  exact .ite (h.onDevice fun _ h1 => h1.same) (h.onDevice fun _ h1 => Keeps.post h1.same)

theorem seesReset (h : Goes s t) {high : Bool} : Goes s (t.seesReset high) := h.ite h.same

theorem clockReturns (h : Goes s t) : Goes s t.clockReturns := .ite h.same (Goes.beginReset h.same)

theorem release (h : Goes s t) {x : Release} : Goes s (t.release x) := by
  unfold State.release
  extract_lets t1 t2 t3 t4
  have h1 : Goes s t1 := (h.clockReturns.ite h).seesReset
  have h2 : Goes s t2 := h1.onDevice fun _ h1 => (Keeps.checkLining h1.same).setFld
  have h3 : Goes s t3 := h2.repairFuses.takeCal.renewNonce
  have h4 : Goes s t4 := h3.onDevice fun _ h1 => h1.armPower.beginWipe
  exact h1.ite (.ite (h4.onDevice fun _ h1 => h1.runBundle) (h4.onDevice fun _ h1 => h1.same))

theorem bootSlot (h : Goes s t) {k : Nat} : Goes s (t.bootSlot k) := by
  unfold State.bootSlot
  extract_lets u
  have hu : Goes s u := h.onNv .same
  exact hu.onDevice fun v h1 => Keeps.runBundle (s := { v with keys := u.nv.uds.isSome }) h1.same

theorem bootFailed (h : Goes s t) : Goes s t.bootFailed := by
  unfold State.bootFailed
  extract_lets u
  have hu : Goes s u := h.onNv .same
  exact hu.onDevice fun v h1 => Keeps.enterHold (s := { v with booting := false }) h1.same

theorem bootVerify (h : Goes s t) : Goes s t.bootVerify := by
  unfold State.bootVerify
  refine h.ite (.ite h.bootSlot (.ite (.ite (h.bootSlot.onDevice fun _ h1 => ?_) h.bootSlot) h.bootFailed))
  exact Keeps.post (Keeps.event h1.same)

theorem hostReset (h : Goes s t) {ref : PktRef} {pl : List Byte} : Goes s (t.hostReset ref pl) :=
  h.replyFree.ite (h.ite h.beginReset)

theorem powerOn (h : Goes s t) : Goes s t.powerOn := (Goes.busHeld h.same).ite h.same

theorem vinShutdown (h : Goes s t) : Goes s t.vinShutdown := .ite (Goes.same h.beginReset) h

theorem vauxLoss (h : Goes s t) : Goes s t.vauxLoss := by
  have hl := (Keeps.refl (s := t.dev)).inResetFrom (cause := 0) |>.withLining (m := []) fun _ => rfl
  exact Goes.busHeld (h.trans ⟨hl, .refl _⟩)

theorem resetN (h : Goes s t) : Goes s t.resetN := h.ite (.ite h.same (Goes.beginReset h.same))

/-! ## Attestation and lifecycle -/

theorem attest (h : Goes s t) {ref : PktRef} {pl : List Byte} : Goes s (t.attest ref pl) :=
  h.replyFree.ite (h.replyFree.ite (h.onDevice fun _ h1 => h1.setHost).reply)

/-- What a lifecycle state programs, where the transition is one of R415. -/
theorem program (h : Goes s t) {l : Lifecycle} {data : List Byte} {c : Bool} (hl : t.nv.lifecycle.mayAdvance l c = true) :
    Goes s (t.program l data) := by
  have word (i : Fin 4) {n : Nv} (hw : n.words = t.nv.words.set i 32) (hs : n.minSv = t.nv.minSv)
      (hu : FuseInv t.nv → 24 ≤ n.words.q3 → n.uds = none) (hr : n.root0Revoked = t.nv.root0Revoked) : Burns t.nv n :=
    ⟨fun w => ⟨hw ▸ Burns.setWord_le w i, hs ▸ w.minSv, hu w⟩, fun w j => hw ▸ Burns.setWord_words w i j, hs.ge, fun r => hr.trans r⟩
  unfold State.program
  cases l with
  | test => exact h
  | provision =>
    refine h.onNv (word 0 rfl rfl (fun _ h24 => absurd h24 ?_) rfl)
    intro h3
    have h3 : t.nv.words.q3 ≥ 24 := h3
    simp [Nv.lifecycle, h3, Lifecycle.mayAdvance] at hl
  | field => exact h.onNv (word 1 rfl rfl (fun w h24 => w.secret h24) rfl)
  | ret => exact h.onNv (word 2 rfl rfl (fun w h24 => w.secret h24) rfl)
  | end_ => exact h.onNv (word 3 rfl rfl (fun _ _ => rfl) rfl)

/-- An accepted request raises MIN_SV inside its 64 fuses. -/
theorem raiseMinSv {n : Nv} {a : Nat} (h : n.minSv < a ∧ a ≤ 64) : Burns n { n with minSv := a } :=
  ⟨fun w => ⟨w.words, h.2, w.secret⟩, fun _ _ => le_rfl, h.1.le, id⟩

theorem revokeRoot0 {n : Nv} : Burns n { n with root0Revoked := true } :=
  ⟨fun w => ⟨w.words, w.minSv, w.secret⟩, fun _ _ => le_rfl, le_rfl, fun _ => rfl⟩

theorem accept (h : Goes s t) {ref : PktRef} {r : Request} (hr : t.requestAllowed r = true) : Goes s (t.accept ref r) := by
  unfold State.accept
  unfold State.requestAllowed at hr
  dsimp only at hr ⊢
  split <;> rename_i ho <;> simp only [ho] at hr
  · split at hr
    · next l hl =>
      rw [hl]
      exact ((h.program hr).reply.onDevice fun _ h1 => h1.wipeLining.beginWipe.wipeDies.wipeWhole).beginReset
    · cases hr
  · exact (h.onNv .same).reply
  · exact (h.onNv revokeRoot0).reply
  · simp only [Bool.and_eq_true, decide_eq_true_eq] at hr
    exact (h.onNv (raiseMinSv ⟨hr.1.1, hr.2⟩)).reply
  · exact h

theorem request (h : Goes s t) {ref : PktRef} {pl : List Byte} : Goes s (t.request ref pl) := by
  unfold State.request
  extract_lets r c
  split
  · exact h.replyFree
  · split
    · exact (h.onDevice fun _ h1 => h1.sigReject).replyFree
    · split
      · exact h.replyFree
      · next hr => exact h.replyFree.ite (h.accept (not_not.1 hr))

theorem lifecyclePacket (h : Goes s t) {p : Pkt} : Goes s (t.lifecyclePacket p) := by
  have hp := h.packet (p := p) (op := 0x71) (body := fun ref pl t => t.request ref pl) fun _ _ _ h1 => h1.request
  exact hp.renewNonce.ite hp

/-! ## The TAP -/

theorem onTap (h : Goes s t) {f : Tap → Tap} : Goes s (t.onTap f) := h.same

theorem loadIr (h : Goes s t) {op : Byte} {captured : W32} : Goes s (t.loadIr op captured) := h.onTap

theorem scanBoundary (h : Goes s t) : Goes s t.scanBoundary := h.onTap.setDev Keeps.refl.same

theorem testInstruction (h : Goes s t) {op : Byte} : Goes s (t.testInstruction op) :=
  h.ite ((h.loadIr.onDevice fun _ h1 => h1.same).ite h.loadIr)

theorem updateBoundary (h : Goes s t) {cells : BitVec 15} : Goes s (t.updateBoundary cells) := h.scanBoundary.onTap.ite h

end Goes

end Sys2Proof.Machine
end

section
/-! Every command keeps the invariants, and so does every step (O4 to O7). -/

set_option Elab.async false

namespace Sys2Proof.Machine

open Sys2Proof.Safety Device

/-- Where a command completes, it leads to such a state. -/
def Ends (s : State) (o : Host.Outcome State Fault Refusal) : Prop := ∀ t, o = .next t → Goes s t

namespace Ends

variable {s t : State}

theorem next (h : Goes s t) : Ends s (.next t) := fun _ e => Host.Outcome.next.inj e ▸ h

theorem fault {f : Fault} : Ends s (.fault f) := fun _ e => by cases e

theorem ite {c : Prop} {_ : Decidable c} {a b : Host.Outcome State Fault Refusal} (ha : Ends s a) (hb : Ends s b) :
    Ends s (if c then a else b) := by
  split
  · exact ha
  · exact hb

theorem onDev {f : Device → Device} (hf : ∀ v, Keeps s.dev v → Keeps s.dev (f v)) : Ends s (Machine.onDev s f) :=
  .ite (.next .refl) (.next (Goes.refl.setDev (hf _ .refl)))

theorem onManagement {f : Device → Device} (hf : ∀ v, Keeps s.dev v → Keeps s.dev (f v)) : Ends s (Machine.onManagement s f) :=
  .ite (.next .refl) (.next (Goes.refl.setDev (hf _ .refl)))

theorem issue {d : Die} {f : Device → Device} (hf : ∀ v, Keeps s.dev v → Keeps s.dev (f v)) : Ends s (Machine.issue s d f) :=
  onDev fun _ h => (hf _ h).ite h

theorem issueOp {i : Issuer} {op : EngineOp} : Ends s (Machine.issueOp s i op) := issue fun _ h => h.issueInOrder

theorem onLanes {d : Die} {f : Device → Device} (hf : ∀ v, Keeps s.dev v → Keeps s.dev (f v)) : Ends s (Machine.onLanes s d f) :=
  onDev fun _ h => h.ite (hf _ h)

theorem palmStep {i : PalmIssue} {o : PalmOp} : Ends s (Machine.palmStep i o s) := onDev fun _ h => h.palmIssue.ite h

theorem onBus {f : State → State} (hf : ∀ u, Goes s u → Goes s (f u)) : Ends s (Machine.onBus s f) := .ite (.next .refl) (.next (hf _ .refl))

theorem onI3c {f : State → State} (hf : ∀ u, Goes s u → Goes s (f u)) : Ends s (Machine.onI3c s f) := .ite (.next .refl) (.next (hf _ .refl))

theorem onCcc {f : State → State} (hf : ∀ u, Goes s u → Goes s (f u)) : Ends s (Machine.onCcc s f) := onI3c fun _ h => hf _ h.onI3c

theorem onTap {f : State → State} (hf : ∀ u, Goes s u → Goes s (f u)) : Ends s (Machine.onTap s f) :=
  .ite (.next (hf _ .refl).busHeld) (.next .refl)

theorem onPacket {p : Pkt} {op : Nat} {f : PktRef → List Byte → State → State} (hf : ∀ ref pl u, Goes s u → Goes s (f ref pl u)) :
    Ends s (Machine.onPacket p op s f) := .ite (.next .refl) (.next (Goes.refl.packet hf))

theorem devPacket {p : Pkt} {op : Nat} {f : PktRef → List Byte → Device → Device}
    (hf : ∀ ref pl v, Keeps s.dev v → Keeps s.dev (f ref pl v)) : Ends s (Machine.devPacket p op s f) :=
  onPacket fun _ _ _ h => h.onDevice fun _ h1 => hf _ _ _ h1

theorem onLifecycle {p : Pkt} : Ends s (Machine.onLifecycle p s) := .ite (.next .refl) (.next Goes.refl.lifecyclePacket)

theorem refclkLost : Ends s (execRefclkLost s) :=
  .ite (.next .refl) (.ite (.next (Goes.same .refl)) (.next (Goes.setDev (Goes.same .refl) Keeps.refl.refclkLost)))

theorem memWrite {p : Pkt} {data : List Byte} : Ends s (execMemWrite p data s) := devPacket fun _ _ _ h => by
  split
  · exact h.startTransfer
  · exact h.replyFree

theorem memRead {p : Pkt} {o : ReadOutcome} {good : Nat} : Ends s (execMemRead p o good s) := devPacket fun _ _ _ h => by
  split
  · exact h.startTransfer
  · exact h.replyFree

theorem unmappedAccess {off : Nat} {write : Bool} {w : Width} : Ends s (execUnmappedAccess off write w s) := onBus fun t h => by
  refine h.ite ?_
  have hu := h.onDevice (f := fun v => (if w = .b64 then [off / 8 * 8, off / 8 * 8 + 4] else [off / 4 * 4]).foldl
    (fun v o => v.unmappedAccess o) (if write = true ∧ decide (w = .b8 ∨ w = .b16) = true then v.event R.GLB_STAT_WIDTH_ERR else v))
    fun _ h1 => (h1.event.ite h1).foldl fun _ _ h2 => h2.unmappedAccess
  exact hu.ite hu.complete

theorem i3cPrivateWrite {index : Byte} {data : Option W32} : Ends s (execI3cPrivateWrite index data s) := onI3c fun t h => by
  extract_lets u
  have hu : Goes s u := h.onI3c
  clear_value u
  split
  · exact hu.onI3c
  · exact hu.i3cWrite
  · exact hu

theorem i3cPrivateRead : Ends s (execI3cPrivateRead s) := onI3c fun t h => by
  split
  · exact h.complete
  · exact h.i3cData.complete
  · exact h.complete
  · exact h.complete

/-- Every command keeps the device as well formed as it was, and takes back no blown fuse. -/
theorem exec (s : State) : ∀ i : Instr, Ends s (Machine.exec i s)
  | .frameTick done => show Ends s (execFrameTick done s) from .onDev fun _ h => h.frameTick
  | .tickInEdge cycles done => show Ends s (execTickInEdge cycles done s) from .onDev fun _ h => h.ite h.tickIn
  | .fabricTick done => show Ends s (execFabricTick done s) from .onDev fun _ h => h.fabricTick
  | .tickLost done => show Ends s (execTickLost done s) from .onDev fun _ h => h.tickLost
  | .mma d x => show Ends s (execMma d x s) from .issueOp
  | .mmaFx d x => show Ends s (execMmaFx d x s) from .ite (.issueOp) (.issue (fun _ h => h.mmaFx))
  | .mdrain d pc lm tile => show Ends s (execMdrain d pc lm tile s) from .issueOp
  | .rowStoreHalfFree d => show Ends s (execRowStoreHalfFree d s) from .onDev fun _ h => h.halfFree.sendEnds
  | .tileDispatch d lm => show Ends s (execTileDispatch d lm s) from .issue fun _ h => h.dispatch
  | .tileDrain d lm => show Ends s (execTileDrain d lm s) from .onDev fun _ h => h.drainAndLetIn
  | .tapTileDrain d lm => show Ends s (execTapTileDrain d lm s) from .onDev fun _ h => h.tapDrain.sendEnds
  | .longSplitCombine d lm tile part level => show Ends s (execLongSplitCombine d lm tile part level s) from .onDev fun _ h => h.combine
  | .profileSwitch d lm => show Ends s (execProfileSwitch d lm s) from .onDev fun _ h => h.profileSwitch.mittApplied.ite h
  | .visorCheckComplete d => show Ends s (execVisorCheckComplete d s) from .onDev fun _ h => h.visorCheck
  | .vcvt d x => show Ends s (execVcvt d x s) from .issueOp
  | .vcvtB d x => show Ends s (execVcvtB d x s) from .issueOp
  | .vcvtU d x => show Ends s (execVcvtU d x s) from .issueOp
  | .vsplitF d x p1 p2 => show Ends s (execVsplitF d x p1 p2 s) from .issueOp
  | .vsplitI d x p1 p2 => show Ends s (execVsplitI d x p1 p2 s) from .issueOp
  | .vnarrowQ d x => show Ends s (execVnarrowQ d x s) from .issueOp
  | .vmax d x src2 => show Ends s (execVmax d x src2 s) from .issueOp
  | .vmin d x src2 => show Ends s (execVmin d x src2 s) from .issueOp
  | .vectorFp32Add issue out stream => show Ends s (execVectorFp32Add issue out stream s) from .issueOp
  | .hpush d x => show Ends s (execHpush d x s) from .issueOp
  | .hpop d x => show Ends s (execHpop d x s) from .issueOp
  | .gsolve issue index => show Ends s (execGsolve issue index s) from .issueOp
  | .prun issue layer => show Ends s (execPrun issue layer s) from .issue fun _ h => h.prun
  | .runpack issue index dst form => show Ends s (execRunpack issue index dst form s) from .issueOp
  | .jendDone d pc => show Ends s (execJendDone d pc s) from .issueOp
  | .jendRelease d pc => show Ends s (execJendRelease d pc s) from .issueOp
  | .jstat issue => show Ends s (execJstat issue s) from .issueOp
  | .mgopen issue gid => show Ends s (execMgopen issue gid s) from .issueOp
  | .madd issue target key epoch src line0 endMark => show Ends s (execMadd issue target key epoch src line0 endMark s) from .issueOp
  | .mskip issue gid key epoch => show Ends s (execMskip issue gid key epoch s) from .issueOp
  | .lineArrival d gid key epoch item => show Ends s (execLineArrival d gid key epoch item s) from .onDev fun _ h => h.arrive
  | .endMarker d gid key epoch => show Ends s (execEndMarker d gid key epoch s) from .onDev fun _ h => h.arrive
  | .stagingRetry d => show Ends s (execStagingRetry d s) from .onDev fun _ h => h.stagingRetry
  | .keyApply d gid => show Ends s (execKeyApply d gid s) from .onDev fun _ h => h.keyApply
  | .keyApplied d gid => show Ends s (execKeyApplied d gid s) from .onDev fun _ h => h.keyApplied
  | .memorySideAdd op addr words flagAddr mask => show Ends s (execMemorySideAdd op addr words flagAddr mask s) from .onDev fun _ h => h.integerAdd
  | .fold d => show Ends s (execFold d s) from .onDev fun _ h => h.foldBegin
  | .foldComplete d => show Ends s (execFoldComplete d s) from .onDev fun _ h => h.foldEnd
  | .solveStart d => show Ends s (execSolveStart d s) from .onLanes fun _ h => h.solveStart
  | .assemblyStart d => show Ends s (execAssemblyStart d s) from .onDev fun _ h => h.assemblyStart
  | .assemblyComplete d => show Ends s (execAssemblyComplete d s) from .onDev fun _ h => h.assemblyComplete
  | .panelComplete d => show Ends s (execPanelComplete d s) from .onLanes fun _ h => h.panelComplete.ite h
  | .iterationComplete d => show Ends s (execIterationComplete d s) from .onLanes fun _ h => h.iterationComplete.ite h
  | .finalTestComplete d => show Ends s (execFinalTestComplete d s) from .onLanes fun _ h => h.finalTest
  | .palmRunStart d => show Ends s (execPalmRunStart d s) from .issue fun _ h => h.palmStart
  | .palmRunComplete d => show Ends s (execPalmRunComplete d s) from .onDev fun _ h => h.palmEnd
  | .copyRun entry => show Ends s (execCopyRun entry s) from .onDev fun _ h => h.copyRun
  | .palmNop issue => show Ends s (execPalmNop issue s) from .palmStep
  | .ld issue => show Ends s (execLd issue s) from .palmStep
  | .st issue => show Ends s (execSt issue s) from .palmStep
  | .ldw issue => show Ends s (execLdw issue s) from .palmStep
  | .ldwo issue => show Ends s (execLdwo issue s) from .palmStep
  | .stw issue => show Ends s (execStw issue s) from .palmStep
  | .wcp issue => show Ends s (execWcp issue s) from .palmStep
  | .lds issue => show Ends s (execLds issue s) from .palmStep
  | .ldh issue => show Ends s (execLdh issue s) from .palmStep
  | .sts issue => show Ends s (execSts issue s) from .palmStep
  | .srd issue => show Ends s (execSrd issue s) from .palmStep
  | .idxr issue => show Ends s (execIdxr issue s) from .palmStep
  | .idxc issue => show Ends s (execIdxc issue s) from .palmStep
  | .fadd issue => show Ends s (execFadd issue s) from .palmStep
  | .fsub issue => show Ends s (execFsub issue s) from .palmStep
  | .fmul issue => show Ends s (execFmul issue s) from .palmStep
  | .fma issue => show Ends s (execFma issue s) from .palmStep
  | .fnma issue => show Ends s (execFnma issue s) from .palmStep
  | .fdiv issue => show Ends s (execFdiv issue s) from .palmStep
  | .fsqrt issue => show Ends s (execFsqrt issue s) from .palmStep
  | .frsq issue => show Ends s (execFrsq issue s) from .palmStep
  | .fmax issue => show Ends s (execFmax issue s) from .palmStep
  | .fmin issue => show Ends s (execFmin issue s) from .palmStep
  | .fabs issue => show Ends s (execFabs issue s) from .palmStep
  | .fneg issue => show Ends s (execFneg issue s) from .palmStep
  | .fcps issue => show Ends s (execFcps issue s) from .palmStep
  | .fscl issue => show Ends s (execFscl issue s) from .palmStep
  | .fexp2 issue => show Ends s (execFexp2 issue s) from .palmStep
  | .flog2 issue => show Ends s (execFlog2 issue s) from .palmStep
  | .rndbf issue => show Ends s (execRndbf issue s) from .palmStep
  | .rnde4 issue => show Ends s (execRnde4 issue s) from .palmStep
  | .iadd issue => show Ends s (execIadd issue s) from .palmStep
  | .iand issue => show Ends s (execIand issue s) from .palmStep
  | .cvtfi issue => show Ends s (execCvtfi issue s) from .palmStep
  | .cvtif issue => show Ends s (execCvtif issue s) from .palmStep
  | .fcmp issue => show Ends s (execFcmp issue s) from .palmStep
  | .fcls issue => show Ends s (execFcls issue s) from .palmStep
  | .pand issue => show Ends s (execPand issue s) from .palmStep
  | .por issue => show Ends s (execPor issue s) from .palmStep
  | .pnot issue => show Ends s (execPnot issue s) from .palmStep
  | .sel issue => show Ends s (execSel issue s) from .palmStep
  | .mov issue => show Ends s (execMov issue s) from .palmStep
  | .bsum issue => show Ends s (execBsum issue s) from .palmStep
  | .bssq issue => show Ends s (execBssq issue s) from .palmStep
  | .bmax issue => show Ends s (execBmax issue s) from .palmStep
  | .bmin issue => show Ends s (execBmin issue s) from .palmStep
  | .bcnt issue => show Ends s (execBcnt issue s) from .palmStep
  | .accs issue => show Ends s (execAccs issue s) from .palmStep
  | .dsExport layer shard => show Ends s (execDsExport layer shard s) from .onDev fun _ h => h.exportShard
  | .recordAck peer host version => show Ends s (execRecordAck peer host version s) from .onDev fun _ h => h.ackRecord
  | .flit p x => show Ends s (execFlit p x s) from .onDev fun _ h => h.receive
  | .flitReplay x => show Ends s (execFlitReplay x s) from .onDev fun _ h => h.replay
  | .portLaneFail x => show Ends s (execPortLaneFail x s) from .onDev fun _ h => h.portDown'
  | .portUp p lanes partner => show Ends s (execPortUp p lanes partner s) from .onDev fun _ h => h.portTrained
  | .heartbeatSend => show Ends s (execHeartbeatSend s) from .onDev fun _ h => h.sendBeats
  | .heartbeat p x => show Ends s (execHeartbeat p x s) from .onDev fun _ h => h.beat
  | .linkSilent x => show Ends s (execLinkSilent x s) from .onDev fun _ h => h.portDown'
  | .linkDown x waits => show Ends s (execLinkDown x waits s) from .onDev fun _ h => h.heard.linkLost
  | .linkUp a b => show Ends s (execLinkUp a b s) from .onDev fun _ h => h.ite h.mapLink.heard
  | .departed x => show Ends s (execDeparted x s) from .onDev fun _ h => h.peerGone.partition
  | .lost x => show Ends s (execLost x s) from .onDev fun _ h => h.post.ite h.peerGone.partition
  | .publishNotice entry version digest => show Ends s (execPublishNotice entry version digest s) from .onDev fun _ h => h.notice.ite h.forBand
  | .shardFetch from_ entry version epoch pin => show Ends s (execShardFetch from_ entry version epoch pin s) from .onDev fun _ h => h.fetch
  | .fetchResponse entry version mb addr data x => show Ends s (execFetchResponse entry version mb addr data x s) from .onDev fun _ h => h.fetchAnswer
  | .pinRelease from_ entry version => show Ends s (execPinRelease from_ entry version s) from .onDev fun _ h => h.onFab
  | .abandon from_ mb => show Ends s (execAbandon from_ mb s) from .onDev fun _ h => h.abandonMb
  | .cutoff => show Ends s (execCutoff s) from .onDev fun _ h => h.cutoff
  | .skipNotice owner entry k n late step epoch => show Ends s (execSkipNotice owner entry k n late step epoch s) from .onDev fun _ h => h.skipNotice
  | .reshardAck peer epoch => show Ends s (execReshardAck peer epoch s) from .onDev fun _ h => h.reshardAcked
  | .shardMigration x => show Ends s (execShardMigration x s) from .onDev fun _ h => h.migrate
  | .spareFramesExpiry lostPeer => show Ends s (execSpareFramesExpiry lostPeer s) from .onDev fun _ h => h.spareExpiry
  | .takeover lostPeer spare => show Ends s (execTakeover lostPeer spare s) from .onDev fun _ h => h.takeOver.ite h.forBand
  | .restoreComplete x => show Ends s (execRestoreComplete x s) from .onDev fun _ h => h.restore.ite h.forBand
  | .doorbell r tail => show Ends s (execDoorbell r tail s) from .onDev fun _ h => h.writeReserved.doorbell
  | .ringEnable r value => show Ends s (execRingEnable r value s) from .onDev fun _ h => h.rctlWrite
  | .ringDisable r value => show Ends s (execRingDisable r value s) from .onDev fun _ h => h.rctlWrite
  | .statusRingHead r value => show Ends s (execStatusRingHead r value s) from .onDev fun _ h => h.sheadWrite
  | .nop p => show Ends s (execNop p s) from .devPacket fun _ _ _ h => h
  | .version p => show Ends s (execVersion p s) from .onPacket fun _ _ _ h => h.onDevice fun _ h => h.version
  | .status p => show Ends s (execStatus p s) from .devPacket fun _ _ _ h => h.reply
  | .hostColdReset p => show Ends s (execHostColdReset p s) from .onPacket fun _ _ _ h => h.hostReset
  | .hostWarmReset p => show Ends s (execHostWarmReset p s) from .onPacket fun _ _ _ h => h.hostReset
  | .jobSubmit p => show Ends s (execJobSubmit p s) from .devPacket fun _ _ _ h => h.submit
  | .jobWithdraw p => show Ends s (execJobWithdraw p s) from .devPacket fun _ _ _ h => h.withdraw
  | .jobYield p => show Ends s (execJobYield p s) from .devPacket fun _ _ _ h => h.yieldPacket
  | .yieldCancel p => show Ends s (execYieldCancel p s) from .devPacket fun _ _ _ h => h.yieldPacket
  | .jobAbort p => show Ends s (execJobAbort p s) from .devPacket fun _ _ _ h => h.abort
  | .jobQuery p => show Ends s (execJobQuery p s) from .devPacket fun _ _ _ h => h.jobQuery
  | .acctRead p => show Ends s (execAcctRead p s) from .devPacket fun _ _ _ h => h.acctRead
  | .seqJoin p => show Ends s (execSeqJoin p s) from .devPacket fun _ _ _ h => h.seqJoin
  | .seqLeave p => show Ends s (execSeqLeave p s) from .devPacket fun _ _ _ h => h.seqLeave
  | .reshard p image => show Ends s (execReshard p image s) from .devPacket fun _ _ _ h => h.reshard
  | .baseExport p => show Ends s (execBaseExport p s) from .devPacket fun _ _ _ h => h.baseExport
  | .dsHostRing p => show Ends s (execDsHostRing p s) from .devPacket fun _ _ _ h => h.hostRingSet
  | .dsAck p => show Ends s (execDsAck p s) from .devPacket fun _ _ _ h => h.dsAck
  | .memWrite p data => show Ends s (execMemWrite p data s) from .memWrite
  | .memRead p outcome good => show Ends s (execMemRead p outcome good s) from .memRead
  | .fwStage p bundle => show Ends s (execFwStage p bundle s) from .onPacket fun _ _ _ h => h.stage
  | .fwActivate p => show Ends s (execFwActivate p s) from .onPacket fun _ _ _ h => h.activate
  | .calRead p => show Ends s (execCalRead p s) from .onPacket fun _ _ _ h => (h.onDevice fun _ h => h.setHost).replyFree
  | .calWrite p set => show Ends s (execCalWrite p set s) from .onPacket fun _ _ _ h => h.calWrite
  | .calRestore p => show Ends s (execCalRestore p s) from .devPacket fun _ _ _ h => h.calRestore
  | .calRestoreDone => show Ends s (execCalRestoreDone s) from .ite (.next .refl) (.next (Goes.refl.calRestored))
  | .attest p => show Ends s (execAttest p s) from .onPacket fun _ _ _ h => h.attest
  | .advance p => show Ends s (execAdvance p s) from .onLifecycle
  | .installIdCert p => show Ends s (execInstallIdCert p s) from .onLifecycle
  | .revokeRoot0 p => show Ends s (execRevokeRoot0 p s) from .onLifecycle
  | .raiseMinSv p => show Ends s (execRaiseMinSv p s) from .onLifecycle
  | .jobChoose => show Ends s (execJobChoose s) from .onDev fun _ h => h.chooseJob
  | .jobStart segs => show Ends s (execJobStart segs s) from .ite (.next .refl) (.ite .fault (.next (Goes.refl.setDev Keeps.refl.startJob)))
  | .endingExportDone => show Ends s (execEndingExportDone s) from .onDev fun _ h => h.closeJob
  | .pcieLinkDown => show Ends s (execPcieLinkDown s) from .onDev fun _ h => h.linkDown_
  | .pcieLinkUp width rate => show Ends s (execPcieLinkUp width rate s) from .onDev fun _ h => h.linkUp_
  | .pcieHotReset => show Ends s (execPcieHotReset s) from .onDev fun _ h => h.hotReset
  | .commitPost value => show Ends s (execCommitPost value s) from .onDev fun _ h => h.writeReserved.commitWrite
  | .commitApply group d unit => show Ends s (execCommitApply group d unit s) from .onDev fun _ h => h.applyUnit.ite h
  | .registerWrite off w value => show Ends s (execRegisterWrite off w value s) from .onBus fun _ h => h.hostWrite
  | .unmappedAccess off write w => show Ends s (execUnmappedAccess off write w s) from .unmappedAccess
  | .statusRead off w => show Ends s (execStatusRead off w s) from .onBus fun _ h => h.hostRead
  | .statusWriteBack off value => show Ends s (execStatusWriteBack off value s) from .onBus fun _ h => h.onDevice fun _ h => h.busWrite
  | .counterLoRead off => show Ends s (execCounterLoRead off s) from .onBus fun _ h => h.hostRead
  | .paritySweep => show Ends s (execParitySweep s) from .onDev fun _ h => h.paritySweep
  | .indAddrWrite value => show Ends s (execIndAddrWrite value s) from .onDev fun _ h => h.indAddrWrite
  | .indDataRead => show Ends s (execIndDataRead s) from .onBus fun _ h => h.hostRead
  | .indDataWrite value => show Ends s (execIndDataWrite value s) from .onDev fun _ h => h.indWrite
  | .indTimeout write => show Ends s (execIndTimeout write s) from .onBus fun _ h => .ite (h.onDevice fun _ h => h.setFld) (h.onDevice fun _ h => h.setFld).complete
  | .errRetire value => show Ends s (execErrRetire value s) from .onDev fun _ h => h.errRetire
  | .mittBlockReset index => show Ends s (execMittBlockReset index s) from .onDev fun _ h => h.blockReset
  | .cuffBlockReset index => show Ends s (execCuffBlockReset index s) from .onDev fun _ h => h.blockReset
  | .gauntletBlockReset index => show Ends s (execGauntletBlockReset index s) from .onDev fun _ h => h.blockReset
  | .palmBlockReset index => show Ends s (execPalmBlockReset index s) from .onDev fun _ h => h.blockReset
  | .vectorBlockReset index => show Ends s (execVectorBlockReset index s) from .onDev fun _ h => h.blockReset
  | .visorBlockReset index => show Ends s (execVisorBlockReset index s) from .onDev fun _ h => h.blockReset
  | .washaPortReset index => show Ends s (execWashaPortReset index s) from .onDev fun _ h => h.blockReset
  | .cxlPortReset index => show Ends s (execCxlPortReset index s) from .onDev fun _ h => h.blockReset
  | .blockResetDone target index => show Ends s (execBlockResetDone target index s) from .onDev fun _ h => h.blockDone
  | .i3cPrivateWrite index data => show Ends s (execI3cPrivateWrite index data s) from .i3cPrivateWrite
  | .i3cPrivateRead => show Ends s (execI3cPrivateRead s) from .i3cPrivateRead
  | .entdaa addr => show Ends s (execEntdaa addr s) from .onCcc fun _ h => h.onI3c
  | .setdasa static addr => show Ends s (execSetdasa static addr s) from .onCcc fun _ h => h.onI3c.ite h
  | .setnewda addr => show Ends s (execSetnewda addr s) from .onCcc fun _ h => h.onI3c
  | .rstdaa => show Ends s (execRstdaa s) from .onCcc fun _ h => h.onI3c
  | .getpid => show Ends s (execGetpid s) from .onCcc fun _ h => h.complete
  | .getbcr => show Ends s (execGetbcr s) from .onCcc fun _ h => h.complete
  | .getdcr => show Ends s (execGetdcr s) from .onCcc fun _ h => h.complete
  | .getstatus => show Ends s (execGetstatus s) from .onCcc fun _ h => h.complete
  | .getmwl => show Ends s (execGetmwl s) from .onCcc fun _ h => h.complete
  | .getmrl => show Ends s (execGetmrl s) from .onCcc fun _ h => h.complete
  | .setmwl n => show Ends s (execSetmwl n s) from .onCcc fun _ h => h.onI3c
  | .setmrl n => show Ends s (execSetmrl n s) from .onCcc fun _ h => h.onI3c
  | .enec events => show Ends s (execEnec events s) from .onCcc fun _ h => h.onI3c
  | .disec events => show Ends s (execDisec events s) from .onCcc fun _ h => h.onI3c
  | .rstact action => show Ends s (execRstact action s) from .onCcc fun _ h => h.onI3c
  | .extest => show Ends s (execExtest s) from .onTap fun _ h => h.scanBoundary.onTap
  | .idcode => show Ends s (execIdcode s) from .onTap fun _ h => h.loadIr
  | .samplePreload preload => show Ends s (execSamplePreload preload s) from .onTap fun _ h => h.scanBoundary.onTap
  | .clamp => show Ends s (execClamp s) from .onTap fun _ h => h.loadIr
  | .highz => show Ends s (execHighz s) from .onTap fun _ h => h.loadIr
  | .bypass opcode => show Ends s (execBypass opcode s) from .onTap fun _ h => h.loadIr.ite h
  | .lumovTestInstruction opcode => show Ends s (execLumovTestInstruction opcode s) from .onTap fun _ h => h.testInstruction
  | .burstRead far addr outcome by_ => show Ends s (execBurstRead far addr outcome by_ s) from .onDev fun _ h => h.burstRead
  | .patrolScrub outcome => show Ends s (execPatrolScrub outcome s) from .onDev fun _ h => h.scrub
  | .bonnetLoop temps => show Ends s (execBonnetLoop temps s) from .onDev fun _ h => h.bonnetLoop
  | .stackTrainingDone k failedLanes => show Ends s (execStackTrainingDone k failedLanes s) from .onDev fun _ h => h.trainingDone
  | .stackRetrain k done => show Ends s (execStackRetrain k done s) from .onDev fun _ h => h.retrain
  | .cxlEnumerate p capacity width rate => show Ends s (execCxlEnumerate p capacity width rate s) from .onDev fun _ h => h.enumerate
  | .memFarDown p => show Ends s (execMemFarDown p s) from .onDev fun _ h => h.farDown
  | .memFarEvent p addr => show Ends s (execMemFarEvent p addr s) from .onDev fun _ h => h.farEvent
  | .wipeComplete => show Ends s (execWipeComplete s) from .onDev fun _ h => h.wipeDone
  | .powerOn => show Ends s (execPowerOn s) from .next Goes.refl.powerOn
  | .resetNAssert => show Ends s (execResetNAssert s) from .next Goes.refl.resetN
  | .resetRelease x => show Ends s (execResetRelease x s) from .next Goes.refl.release
  | .bootVerify => show Ends s (execBootVerify s) from .ite (.next .refl) (.next Goes.refl.bootVerify)
  | .vinShutdown => show Ends s (execVinShutdown s) from .next Goes.refl.vinShutdown
  | .vauxLoss => show Ends s (execVauxLoss s) from .next Goes.refl.vauxLoss
  | .refclkLost => show Ends s (execRefclkLost s) from .refclkLost
  | .refclkPcieLost => show Ends s (execRefclkPcieLost s) from .onManagement fun _ h => h.linkDown_
  | .refclkCxlLost p => show Ends s (execRefclkCxlLost p s) from .onManagement fun _ h => h.farDown
  | .refclkWashaLost x => show Ends s (execRefclkWashaLost x s) from .onManagement fun _ h => h.foldl (fun _ _ h1 => h1.portDown')
  | .watchdogExpiry p => show Ends s (execWatchdogExpiry p s) from .onDev fun _ h => h.processorFailure
  | .processorFailure p => show Ends s (execProcessorFailure p s) from .onDev fun _ h => h.processorFailure
  | .processorReady x => show Ends s (execProcessorReady x s) from .ite (.next .refl) (.next Goes.refl.procReady)
  | .restartTimeout p => show Ends s (execRestartTimeout p s) from .onDev fun _ h => h.restartTimeout
  | .fwStable p => show Ends s (execFwStable p s) from .onDev fun _ h => h.fwStable
  | .sensorSample diodes => show Ends s (execSensorSample diodes s) from .onManagement fun _ h => h.sensorSample
  | .bucketUpdate vin current => show Ends s (execBucketUpdate vin current s) from .onManagement fun _ h => h.bucketUpdate
  | .clampEnforce => show Ends s (execClampEnforce s) from .onManagement fun _ h => h.clampEnforce
  | .clampHandback => show Ends s (execClampHandback s) from .onDev fun _ h => h.clampHandback
  | .crownLoop => show Ends s (execCrownLoop s) from .onDev fun _ h => h.crownLoop
  | .activationWaitExpiry => show Ends s (execActivationWaitExpiry s) from .ite (.next .refl) (.next Goes.refl.advanceActivation)
  | .fwAbandoned => show Ends s (execFwAbandoned s) from .onDev fun _ h => h.abandonActivation
  | .fwActivated => show Ends s (execFwActivated s) from .ite (.next .refl) (.next Goes.refl.finishActivation)
  | .tickOutLow => show Ends s (execTickOutLow s) from .onDev fun _ h => h.onFrm
  | .applyF d pc fder fparam src dst side => show Ends s (execApplyF d pc fder fparam src dst side s) from .issueOp
  | .testLogicReset => show Ends s (execTestLogicReset s) from .onTap fun _ h => h.onTap
  | .boundaryRegisterUpdate cells => show Ends s (execBoundaryRegisterUpdate cells s) from .onTap fun _ h => h.updateBoundary

/-- So does every step of the block. -/
theorem step (h : Machine.step s = .next t) : Goes s t := by
  unfold Machine.step at h
  split at h
  · exact next .refl t h
  · next c rest _ =>
    have he := exec { s with pending := rest } c t h
    exact ⟨he.dev, he.nv⟩

end Ends

/-! ## The statements -/

/-- Settles O4: what every command may do to the fuses (`Burns`) holds of every step. -/
theorem fuseInvKept : Obligations.FuseInvKept := by
  intro s t w h
  have hb := (Ends.step h).nv
  exact ⟨hb.inv w, hb.words w, hb.minSv, hb.revoked⟩

/-- Settles O5: every operation keeps the duties' bounds, and the duty in force is the least of them, or 0 under THERM. -/
theorem dutiesKept : Obligations.DutiesKept := by
  intro s t w h
  have hd := (Ends.step h).dev.duty w
  refine ⟨hd, fun d => ?_⟩
  cases hc : t.dev.pwr.causes.getD 6 false with
  | false => exact .inr (Device.duty_of_not_therm hd hc d)
  | true =>
    cases hl : t.dev.pwr.clamp with
    | false => exact .inr (Device.crown_duty hd hl d)
    | true => exact .inl (by simp only [Device.duty, hl, hc, if_true])

/-- Settles O6: every operation keeps the form of the error queue, which bounds its depth. -/
theorem errorQueueKept : Obligations.ErrorQueueKept := by
  intro s t w h
  have he := (Ends.step h).dev.err w
  exact ⟨he, ErrQueue.depth_le he⟩

/-- Settles O7: every operation keeps every memory's form. -/
theorem memoriesKeepForm : Obligations.MemoriesKeepForm := fun _ _ w h => (Ends.step h).dev.mem w

end Sys2Proof.Machine
end

section
/-! Steps, the reset state, and two statements that fail (O1, O3, O2, O34). -/

set_option Elab.async false

namespace Sys2Proof.Machine
open Sys2Proof.Safety

/-- Settles O1: by definition. -/
theorem frontCommandRuns : Obligations.FrontCommandRuns := fun _ _ _ => rfl

/-- Settles O3: the reset state's queue is empty, its memories are empty, and its duties are the largest. -/
theorem invariantsAtReset : Obligations.InvariantsAtReset := by
  refine ⟨⟨by decide, by decide, by decide⟩, dutyInv_default, errInv_default, ⟨by decide, by decide⟩, ?_⟩
  refine ⟨fun d => ?_, fun d => ?_, ⟨rfl, fun _ _ => rfl⟩, rfl, rfl, rfl, fun p => ?_⟩
  · fin_cases d <;> exact ⟨rfl, fun _ _ => rfl⟩
  · fin_cases d <;> exact ⟨rfl, fun _ _ => rfl⟩
  · fin_cases p <;> rfl

/-- A measured calibration waits for Crown, the last of the processors that is not up. -/
def awaitsCrown : State where
  dev := {
    inReset := false
    images := [default]
    procs := { q0 := { up := false, restarting := true }, q1 := { up := true }, q2 := { up := true }, q3 := { up := true } }
    cmd := { dstate := .ready, calRestore := some default, calDone := true } }

theorem awaitsCrown_draws : (awaitsCrown.procReady ⟨.crown, []⟩).nv.draws = awaitsCrown.nv.draws + 1 := by decide +kernel

/-- Refutes O2: a processor that becomes ready lets a CAL_RESTORE that has waited for it store its set, though
PROCESSOR_READY is none of the commands named. -/
theorem not_queueAndFusesKept : ¬ Obligations.QueueAndFusesKept := by
  intro h
  have run : exec (.processorReady ⟨.crown, []⟩) awaitsCrown = .next (awaitsCrown.procReady ⟨.crown, []⟩) := rfl
  have kept := (h _ _ _ run).2 trivial
  have drawn := awaitsCrown_draws
  rw [kept] at drawn
  exact absurd drawn (by decide)

/-- A device of which 63 warnings are HANDLED and none is retired, in a step whose last tap batch no mitt of its own can take (its mitt has
another profile than I16), with the event of it enabled. -/
def fullQueue : Device where
  inReset := false
  regs := RegFile.setFld {} R.CUFF_CTL_EVENT 1
  err := { slots := (List.range 63).map fun i =>
    (i, some { seq := 1 + BitVec.ofNat 32 i, code := 0x0201, sev := 1, state := .handled, occ := 1, unit := 0, step := 0, frm := 0, detail := 0 }) }
  frm := { started := true, stepRun := true }
  pwr := { clamp := false, causes := List.replicate 7 false }
  cmd := { dstate := .running, job := some { phase := .running, desc := { id := 7, self := 0xFFFF } } }
  procs := Quad.all { up := true }
  dies := { q0 := { cuff := { h0 := { state := .filling, rows := 1, mitts := [0], desc := { i16 := true } } } }, q1 := {}, q2 := {}, q3 := {} }
  fab := { outgoing := [{ peer := 1 }] }

/-- The tick at which the program has issued all of its step closes the batch; its event finds no free entry, and QUEUE_OVERFLOW ends the
job, so that nothing runs which could overrun. -/
theorem fullQueue_tick : (fullQueue.tick { issued := true }).frm.overran = false := by decide +kernel

theorem fullQueue_overrun : ((fullQueue.pulse.acknowledged []).closeBatches.sendEnds.overrun).frm.overran = true := by decide +kernel

/-- Refutes O34: a tick that closes the last tap batch may end the job, by the event of the batch in a full error queue, before it finds
the step overrun. -/
theorem not_ticksCount : ¬ Obligations.TicksCount := by
  intro h
  obtain ⟨-, -, -, -, unacknowledged⟩ := h fullQueue { issued := true }
  have same := unacknowledged { peer := 1 } rfl rfl (by decide +kernel) (by decide +kernel) (by decide) rfl
  exact absurd ((congrArg (·.frm.overran) same).symm.trans fullQueue_tick) (by rw [fullQueue_overrun]; decide)

end Sys2Proof.Machine
end

section
/-! The near interleave, the order of keys, the words of Palm instructions and the V registers (O53, O26, O22, O23). -/

set_option Elab.async false

namespace Sys2Proof.Machine

/-! ## The near interleave -/

/-- The hash takes bits 8 to 14 of the offset as they are, and folds what lies above them onto these. -/
theorem nearHash_eq (a : Nat) : nearHash a = (a % 2 ^ 38 / 2 ^ 8 % 128) ^^^
    ((a % 2 ^ 38 / 2 ^ 15 ^^^ a % 2 ^ 38 / 2 ^ 15 / 2 ^ 7 ^^^ a % 2 ^ 38 / 2 ^ 15 / 2 ^ 14 ^^^ a % 2 ^ 38 / 2 ^ 15 / 2 ^ 21) % 128) := by
  simp only [nearHash, Nat.shiftRight_eq_div_pow, Nat.div_div_eq_div_mul, Nat.xor_assoc]
  exact Nat.xor_mod_two_pow (n := 7)

theorem nearHash_lt (a : Nat) : nearHash a < 128 := Nat.mod_lt _ (by decide)

/-- Settles O53: with the hash and what lies above bit 15 equal, the bits that the hash takes as they are are equal too. -/
theorem nearMapIsOneToOne : Obligations.NearMapIsOneToOne := by
  intro a b ha hb
  refine ⟨by unfold pseudoAddr; omega, fun hs hc hp hx => ?_⟩
  have hash : nearHash a = nearHash b := by
    have := nearHash_lt a
    have := nearHash_lt b
    unfold stackOf channelOf pseudoOf at *
    omega
  have high : a % 2 ^ 38 / 2 ^ 15 = b % 2 ^ 38 / 2 ^ 15 := by unfold pseudoAddr at hx; omega
  rw [nearHash_eq, nearHash_eq, high] at hash
  have mid := Nat.xor_left_injective hash
  unfold stackOf pseudoAddr at *
  omega

/-! ## The order of keys -/

/-- Settles O26: the first key that is unresolved or ended has none of these below it. -/
theorem keysApplyInOrder : Obligations.KeysApplyInOrder := by
  intro g k h
  unfold Group.next at h
  split at h
  next j hj =>
    obtain ⟨-, hmem, hmin⟩ := List.find?_range_eq_some.1 hj
    split at h
    · cases h
      refine ⟨List.mem_range.1 hmem, ‹_›, fun i hi => ?_⟩
      simpa using hmin i hi
    · cases h
  next => cases h

/-! ## The V registers of a Palm -/

theorem vReg_setV_self (z : PalmSet) (n : Nat) (l : List W32) : (z.setV n l).vReg n = l := Sparse.get_put_self

theorem vReg_setV_ne (z : PalmSet) {n m : Nat} (l : List W32) (h : m ≠ n) : (z.setV n l).vReg m = z.vReg m := Sparse.get_put_ne h

/-- Settles O23: the written list holds the new value in the selected lanes, and no other register is written. -/
theorem writtenRegisterLanes : Obligations.WrittenRegisterLanes := by
  intro k x f j n hj
  refine ⟨?_, fun h => vReg_setV_ne _ _ fun e => h (BitVec.eq_of_toNat_eq e)⟩
  unfold Chunk.writeV
  rw [vReg_setV_self]
  simp [List.getD_eq_getElem?_getD, hj]

/-! ## The words of Palm instructions -/

theorem PalmOp.ofCode_code (o : PalmOp) : PalmOp.ofCode o.code = some o := by
  cases o <;> rfl

theorem PalmOp.code_of_ofCode {c : BitVec 8} {o : PalmOp} (h : PalmOp.ofCode c = some o) : o.code = c := by
  simpa using List.find?_some h

/-- The fields of a word one behind the other, with the width that their sum is: `encodePalm` has it as 64. -/
def palmFields (o : PalmOp) (x : PalmArgs) : BitVec (16 + 5 + 1 + 1 + 1 + 3 + 1 + 1 + 3 + 6 + 6 + 6 + 6 + 8) :=
  x.imm ++ (0 : BitVec 5) ++ BitVec.ofBool x.sc ++ BitVec.ofBool x.sb ++ BitVec.ofBool x.sa ++ x.m ++ BitVec.ofBool x.ge
    ++ BitVec.ofBool x.gn ++ x.g ++ x.c ++ x.b ++ x.a ++ x.d ++ o.code

theorem encodePalm_extractLsb' (o : PalmOp) (x : PalmArgs) (i n : Nat) :
    (encodePalm o x).extractLsb' i n = (palmFields o x).extractLsb' i n := rfl

theorem encodePalm_getLsbD (o : PalmOp) (x : PalmArgs) (i : Nat) : (encodePalm o x).getLsbD i = (palmFields o x).getLsbD i := rfl

theorem getLsbD_append_low {n m i : Nat} (x : BitVec n) (y : BitVec m) (h : i < m) : (x ++ y).getLsbD i = y.getLsbD i := by
  rw [BitVec.getLsbD_append, if_pos h]

theorem getLsbD_append_high {n m i : Nat} (x : BitVec n) (y : BitVec m) (h : m ≤ i) : (x ++ y).getLsbD i = x.getLsbD (i - m) := by
  rw [BitVec.getLsbD_append, if_neg (by omega)]

theorem palmArgs_encodePalm (o : PalmOp) (x : PalmArgs) : palmArgs (encodePalm o x) = x := by
  unfold palmArgs
  simp only [encodePalm_extractLsb', encodePalm_getLsbD]
  unfold palmFields
  simp (disch := decide) only [BitVec.extractLsb'_append_eq_of_le, BitVec.extractLsb'_append_eq_of_add_le, getLsbD_append_low,
    getLsbD_append_high]
  simp

theorem code_encodePalm (o : PalmOp) (x : PalmArgs) : (encodePalm o x).extractLsb' 0 8 = o.code := by
  rw [encodePalm_extractLsb', palmFields, BitVec.extractLsb'_append_eq_of_add_le (by decide), BitVec.extractLsb'_eq_self]

theorem zeros_encodePalm (o : PalmOp) (x : PalmArgs) : (encodePalm o x).extractLsb' 43 5 = 0 := by
  rw [encodePalm_extractLsb', palmFields]
  simp (disch := decide) only [BitVec.extractLsb'_append_eq_of_le, BitVec.extractLsb'_append_eq_of_add_le]
  rfl

theorem ofBool_getLsbD_eq_extractLsb' {n : Nat} (w : BitVec n) (i : Nat) : BitVec.ofBool (w.getLsbD i) = w.extractLsb' i 1 := by
  ext j hj
  obtain rfl : j = 0 := by omega
  simp

theorem encodePalm_palmArgs {w : W64} {o : PalmOp} (hz : w.extractLsb' 43 5 = 0) (ho : o.code = w.extractLsb' 0 8) :
    encodePalm o (palmArgs w) = w := by
  change palmFields o (palmArgs w) = w
  unfold palmFields palmArgs
  rw [← hz, ho]
  simp only [ofBool_getLsbD_eq_extractLsb']
  iterate 13 rw [BitVec.extractLsb'_append_extractLsb'_eq_extractLsb' (by decide)]
  exact BitVec.extractLsb'_eq_self

/-- Settles O22: each field is read from the bits it was put at, and the fields, the opcode and the five zero bits are the word. -/
theorem palmWordsRoundTrip : Obligations.PalmWordsRoundTrip := by
  intro o x
  refine ⟨by simp [decodePalm, zeros_encodePalm, code_encodePalm, PalmOp.ofCode_code, palmArgs_encodePalm], fun w h => ?_⟩
  unfold decodePalm at h
  split at h
  next hz =>
    obtain ⟨p, hp, e⟩ := Option.map_eq_some_iff.1 h
    cases e
    exact encodePalm_palmArgs hz (PalmOp.code_of_ofCode hp)
  next => cases h

end Sys2Proof.Machine
end

section
/-! Memories bit by bit, and packed elements (O15). -/

set_option Elab.async false

namespace Sys2Proof.Machine

/-! ## Memory bit by bit -/

/-- Bit `k` of a memory, the bits of its bytes counted through. -/
def Memory.bit (m : Memory) (k : Nat) : Bool := (m.read (k / 8)).toNat.testBit (k % 8)

theorem testBit_leVal : ∀ (bs : List Byte) (k : Nat), (leVal bs).testBit k = (bs.getD (k / 8) 0).toNat.testBit (k % 8)
  | [], k => by simp [leVal]
  | b :: bs, k => by
    have split := Nat.testBit_two_pow_mul_add (leVal bs) (i := 8) b.isLt k
    rw [Nat.add_comm] at split
    rw [leVal, show (256 : Nat) = 2 ^ 8 from rfl, split]
    by_cases hk : k < 8
    · rw [if_pos hk, Nat.div_eq_of_lt hk, Nat.mod_eq_of_lt hk]; rfl
    · obtain ⟨j, rfl⟩ : ∃ j, k = j + 8 := ⟨k - 8, by omega⟩
      rw [if_neg hk, Nat.add_sub_cancel, testBit_leVal bs, Nat.add_div_right j (by decide), Nat.add_mod_right]
      rfl

theorem readBytes_getD (m : Memory) : ∀ (a n i : Nat), (m.readBytes a n).getD i 0 = if i < n then m.read (a + i) else 0
  | _, 0, _ => by simp [Memory.readBytes]
  | a, n + 1, 0 => by simp [Memory.readBytes]
  | a, n + 1, i + 1 => by
    have ih := readBytes_getD m (a + 1) n i
    simp only [Memory.readBytes, List.getD_cons_succ, ih, Nat.add_lt_add_iff_right, Nat.add_assoc, Nat.add_comm 1]

theorem testBit_readLE (m : Memory) (a n k : Nat) : (m.readLE a n).testBit k = (decide (k < 8 * n) && m.bit (8 * a + k)) := by
  have hdiv : (8 * a + k) / 8 = a + k / 8 := by omega
  have hmod : (8 * a + k) % 8 = k % 8 := by omega
  rw [Memory.readLE, testBit_leVal, readBytes_getD, Memory.bit, hdiv, hmod]
  by_cases hk : k < 8 * n
  · rw [if_pos (by omega), decide_eq_true hk, Bool.true_and]
  · rw [if_neg (by omega), decide_eq_false hk, Bool.false_and]; simp

theorem readLE_lt (m : Memory) (a n : Nat) : m.readLE a n < 2 ^ (8 * n) :=
  Nat.lt_pow_two_of_testBit _ fun k hk => by rw [testBit_readLE, decide_eq_false (by omega), Bool.false_and]

/-- A bit of what was stored, and every other bit. -/
theorem bit_writeLE (m : Memory) (a n v k : Nat) (hv : v < 2 ^ (8 * n)) :
    (m.writeLE a n v).bit k = if 8 * a ≤ k ∧ k < 8 * (a + n) then v.testBit (k - 8 * a) else m.bit k := by
  split
  next h =>
    obtain ⟨j, rfl⟩ : ∃ j, k = 8 * a + j := ⟨k - 8 * a, by omega⟩
    have back := congrArg (Nat.testBit · j) (Memory.readLE_writeLE m a n v)
    rw [testBit_readLE, decide_eq_true (by omega), Bool.true_and, show (256 : Nat) ^ n = 2 ^ (8 * n) by rw [Nat.pow_mul],
      Nat.mod_eq_of_lt hv] at back
    rw [back, Nat.add_sub_cancel_left]
  next h => rw [Memory.bit, Memory.bit, Memory.read_writeLE_out (by omega)]

/-! ## Fields of a number -/

/-- A number with a field of `w` bits at `lo` replaced: the new field's bits there, the old ones elsewhere. -/
theorem testBit_insertBits (v lo w x k : Nat) (hw : 0 < w) :
    (insertBits v lo w x).testBit k = if lo ≤ k ∧ k < lo + w then x.testBit (k - lo) else v.testBit k := by
  have hb : bitsOf v (lo + w - 1) lo = v / 2 ^ lo % 2 ^ w := by rw [bitsOf, show lo + w - 1 + 1 - lo = w by omega]
  have whole : v = 2 ^ lo * (2 ^ w * (v / 2 ^ lo / 2 ^ w)) + 2 ^ lo * (v / 2 ^ lo % 2 ^ w) + v % 2 ^ lo := by
    rw [← Nat.mul_add, Nat.div_add_mod, Nat.div_add_mod]
  have made : insertBits v lo w x = 2 ^ lo * (2 ^ w * (v / 2 ^ lo / 2 ^ w) + x % 2 ^ w) + v % 2 ^ lo := by
    rw [insertBits, hb, Nat.mul_comm _ (2 ^ lo), Nat.mul_comm _ (2 ^ lo), Nat.mul_add]
    omega
  have lowLt : v % 2 ^ lo < 2 ^ lo := Nat.mod_lt _ (Nat.two_pow_pos _)
  have fieldLt : x % 2 ^ w < 2 ^ w := Nat.mod_lt _ (Nat.two_pow_pos _)
  rw [made, Nat.testBit_two_pow_mul_add _ lowLt]
  by_cases hlo : k < lo
  · rw [if_pos hlo, if_neg (by omega), Nat.testBit_mod_two_pow, decide_eq_true hlo, Bool.true_and]
  · rw [if_neg hlo, Nat.testBit_two_pow_mul_add _ fieldLt]
    by_cases hhi : k - lo < w
    · rw [if_pos hhi, if_pos (by omega), Nat.testBit_mod_two_pow, decide_eq_true hhi, Bool.true_and]
    · rw [if_neg hhi, if_neg (by omega), Nat.testBit_div_two_pow, Nat.testBit_div_two_pow]
      congr 1
      omega

/-! ## Packed elements -/

theorem testBit_packedCode (m : Memory) (a bits i k : Nat) :
    (packedCode m a bits i).testBit k = (decide (k < bits) && m.bit (8 * a + i * bits + k)) := by
  have place : 8 * (a + i * bits / 8) + (i * bits % 8 + k) = 8 * a + i * bits + k := by omega
  rw [packedCode, Nat.testBit_mod_two_pow, Nat.testBit_div_two_pow, testBit_readLE, Nat.add_comm k, place]
  by_cases hk : k < bits
  · rw [decide_eq_true (p := i * bits % 8 + k < _) (by omega), Bool.true_and]
  · rw [decide_eq_false hk, Bool.false_and, Bool.false_and]

/-- A stored element changes its own bits of the memory and no other. -/
theorem bit_setPacked (m : Memory) (a bits i code k : Nat) (hb : 0 < bits) :
    (setPacked m a bits i code).bit k =
      if 8 * a + i * bits ≤ k ∧ k < 8 * a + i * bits + bits then code.testBit (k - (8 * a + i * bits)) else m.bit k := by
  let b := a + i * bits / 8
  let lo := i * bits % 8
  let n := (lo + bits + 7) / 8
  have hplace : 8 * b + lo = 8 * a + i * bits := by omega
  have fits : insertBits (m.readLE b n) lo bits code < 2 ^ (8 * n) := by
    refine Nat.lt_pow_two_of_testBit _ fun j hj => ?_
    rw [testBit_insertBits _ _ _ _ _ hb, if_neg (by omega), testBit_readLE, decide_eq_false (by omega), Bool.false_and]
  rw [show setPacked m a bits i code = m.writeLE b n (insertBits (m.readLE b n) lo bits code) from rfl, bit_writeLE _ _ _ _ _ fits]
  by_cases hk : 8 * b ≤ k ∧ k < 8 * (b + n)
  · rw [if_pos hk, testBit_insertBits _ _ _ _ _ hb, testBit_readLE]
    by_cases hin : 8 * a + i * bits ≤ k ∧ k < 8 * a + i * bits + bits
    · rw [if_pos (by omega), if_pos hin, show k - 8 * b - lo = k - (8 * a + i * bits) by omega]
    · rw [if_neg (by omega), if_neg hin, decide_eq_true (by omega), Bool.true_and, show 8 * b + (k - 8 * b) = k by omega]
  · rw [if_neg hk, if_neg (by omega)]

/-- Settles O15, bit by bit. -/
theorem packedElementsReadBack : Obligations.PackedElementsReadBack := by
  intro m a bits i code hb
  refine ⟨Nat.eq_of_testBit_eq fun k => ?_, fun j hj => Nat.eq_of_testBit_eq fun k => ?_, fun k hk => ?_⟩
  · rw [testBit_packedCode, Nat.testBit_mod_two_pow, bit_setPacked _ _ _ _ _ _ hb]
    by_cases hk : k < bits
    · rw [if_pos (by omega), Nat.add_sub_cancel_left]
    · rw [decide_eq_false hk, Bool.false_and, Bool.false_and]
  · rw [testBit_packedCode, testBit_packedCode, bit_setPacked _ _ _ _ _ _ hb]
    by_cases hk : k < bits
    · have apart : i * bits + bits ≤ j * bits ∨ j * bits + bits ≤ i * bits := by
        rcases Nat.lt_or_gt_of_ne hj with h | h
        · exact .inr (by rw [← Nat.succ_mul]; exact Nat.mul_le_mul_right _ h)
        · exact .inl (by rw [← Nat.succ_mul]; exact Nat.mul_le_mul_right _ h)
      rw [if_neg (by omega)]
    · rw [decide_eq_false hk, Bool.false_and, Bool.false_and]
  · exact Memory.read_writeLE_out hk

end Sys2Proof.Machine
end

section
/-! New entries of the error queue, and the end of a job (O48, O49). -/

set_option Elab.async false

namespace Sys2Proof.Machine
open Sys2Proof.Safety

/-! ## A new entry of the error queue -/

namespace ErrQueue

@[simp] theorem slot_setSlot_self (q : ErrQueue) (i : Nat) (o : Option ErrEntry) : (q.setSlot i o).slot i = o := Sparse.get_put_self

/-- The entries behind a slot that takes an entry: those of the other slots, around the new one. -/
theorem entries_setSlot (q : ErrQueue) (i : Nat) (e : ErrEntry) : (q.setSlot i (some e)).entries =
    q.entries.filter (fun x => decide (x.1 < i)) ++ (i, e) :: q.entries.filter (fun x => decide (i < x.1)) := by
  have kept (p : Nat → Bool) : (Sparse.keep p q.slots).filterMap (fun x => x.2.map fun e => (x.1, e))
      = q.entries.filter (fun x => p x.1) := by
    unfold Sparse.keep entries
    induction q.slots with
    | nil => rfl
    | cons c l ih => obtain ⟨k, o⟩ := c; cases o <;> by_cases hp : p k = true <;> simp_all
  have cell : Sparse.cell none i (some e) = [(i, some e)] := if_neg (by simp)
  simp only [setSlot, entries, Sparse.put, cell, List.filterMap_append] at kept ⊢
  rw [kept, kept]
  simp

/-- An entry that takes the next number leaves the entries numbered as they came. -/
theorem numbered_setSlot {q : ErrQueue} (h : Numbered q) (hn : q.nextSeq + 1 ≠ 0) (i : Nat) {e : ErrEntry} (he : e.seq = q.nextSeq) :
    Numbered { q.setSlot i (some e) with nextSeq := q.nextSeq + 1 } := by
  have ents : ErrQueue.entries { q.setSlot i (some e) with nextSeq := q.nextSeq + 1 } = _ := entries_setSlot q i e
  have old : ∀ x ∈ q.entries, x.2.seq ≠ e.seq := fun x hx => by have := h.below x hx; bv_omega
  have inj : ∀ x ∈ q.entries, ∀ y ∈ q.entries, x.2.seq = y.2.seq → x = y := fun x hx y hy => List.inj_on_of_nodup_map h.once hx hy
  constructor
  · intro x hx
    rw [ents, List.mem_append, List.mem_cons] at hx
    have hlt : x.2.seq < q.nextSeq ∨ x.2.seq = q.nextSeq := by
      rcases hx with hx | rfl | hx
      · exact .inl (h.below x (List.mem_of_mem_filter hx))
      · exact .inr he
      · exact .inl (h.below x (List.mem_of_mem_filter hx))
    show x.2.seq < q.nextSeq + 1
    bv_omega
  · rw [ents, List.map_append, List.map_cons, List.nodup_append, List.nodup_cons]
    refine ⟨h.once.sublist (List.filter_sublist.map _), ⟨?_, h.once.sublist (List.filter_sublist.map _)⟩, ?_⟩
    · intro hm
      obtain ⟨x, hx, e1⟩ := List.mem_map.1 hm
      exact old x (List.mem_of_mem_filter hx) e1
    · intro a ha b hb
      obtain ⟨x, hx, rfl⟩ := List.mem_map.1 ha
      rcases List.mem_cons.1 hb with rfl | hb
      · exact old x (List.mem_of_mem_filter hx)
      · obtain ⟨y, hy, rfl⟩ := List.mem_map.1 hb
        intro e1
        rw [List.mem_filter] at hx hy
        have := inj x hx.1 y hy.1 e1
        simp_all
        omega

end ErrQueue

theorem ErrEntry.bytes_length (e : ErrEntry) : e.bytes.length = 32 := by
  simp [ErrEntry.bytes]

/-- What was stored first of a longer list is read back. -/
theorem Memory.readBytes_writeBytes_append (m : Memory) (a : Nat) (bs cs : List Byte) :
    (m.writeBytes a (bs ++ cs)).readBytes a bs.length = bs := by
  refine Memory.readBytes_eq fun i hi => ?_
  rw [Memory.read_writeBytes (by simp; omega), List.getD_append _ _ _ _ hi]

namespace Device

@[simp] theorem alerting_err (s : Device) (f : Device → Device) : (s.alerting f).err = (f s).err := by
  unfold alerting; dsimp only; split <;> rfl

@[simp] theorem alerting_lining (s : Device) (f : Device → Device) : (s.alerting f).lining = (f s).lining := by
  unfold alerting; dsimp only; split <;> rfl

theorem create_err (s : Device) (i : Nat) (e : ErrEntry) : (s.create i e).err =
    { s.err.setSlot i (some { e with seq := s.err.nextSeq }) with nextSeq := s.err.nextSeq + 1 } := by
  unfold create
  extract_lets e' s1 s2 s3
  have h1 : s1.err = { s.err.setSlot i (some e') with nextSeq := s.err.nextSeq + 1 } := alerting_err _ _
  split
  · exact h1
  · exact h1

theorem create_lining (s : Device) (i : Nat) (e : ErrEntry) : (s.create i e).lining =
    if 2 ≤ e.sev then s.lining.writeBytes 0x100 ({ e with seq := s.err.nextSeq }.bytes ++ s.lining.readBytes 0x100 224) else s.lining := by
  unfold create
  extract_lets e' s1 s2 s3
  have h1 : s1.lining = s.lining := alerting_lining _ _
  split
  · exact congrArg (fun m : Memory => m.writeBytes 0x100 (e'.bytes ++ m.readBytes 0x100 224)) h1
  · exact h1

end Device

/-- Settles O48. -/
theorem postedErrors : Obligations.PostedErrors := by
  intro s code unit sev detail
  refine ⟨fun i e hj => by simp only [Device.post, hj], ?_⟩
  rintro i v hj hf rfl
  obtain ⟨hfree, -, hbelow⟩ := List.find?_range_eq_some.1 hf
  refine ⟨by simp only [Device.post, hj, hf], hfree, fun j hlt => ?_, ?_, ?_, ?_, ?_, ?_⟩
  · rw [← Option.not_isNone, hbelow j hlt]
  · rw [Device.create_err]
  · intro hn h0
    rw [Device.create_err]
    exact ErrQueue.numbered_setSlot hn h0 i rfl
  · rw [Device.create_err]
    exact ErrQueue.slot_setSlot_self _ _ _
  · intro hs
    rw [Device.create_lining, if_neg (by show ¬ 2 ≤ sev; omega)]
  · intro hs
    rw [Device.create_lining, if_pos (show 2 ≤ (s.entryOf code sev unit detail).sev from hs),
      ← ErrEntry.bytes_length { s.entryOf code sev unit detail with seq := s.err.nextSeq }]
    exact Memory.readBytes_writeBytes_append _ _ _ _

/-! ## The end of a job -/

namespace Device

/-- What an error and the end of a job say of the job, of the step and of the dies, and no reply changes. -/
def jobPart (s : Device) : Option Job × List Join × DState × Frame × Quad DieState :=
  (s.cmd.job, s.cmd.joins, s.cmd.dstate, s.frm, s.dies)

@[simp] theorem jobPart_writeReply (s : Device) (r : Fin 4) : (s.writeReply r).jobPart = s.jobPart := by
  unfold writeReply
  split
  · rfl
  · split
    · rfl
    · extract_lets q s1 w s2 s3
      have h3 : s3.jobPart = s.jobPart := by
        dsimp only [s3]
        split <;> rfl
      split
      · exact h3
      · exact h3

@[simp] theorem jobPart_flushN (r : Fin 4) : ∀ (n : Nat) (s : Device), (flushN r n s).jobPart = s.jobPart
  | 0, _ => rfl
  | n + 1, s => by rw [flushN, jobPart_flushN r n, jobPart_writeReply]

@[simp] theorem jobPart_queueReply (s : Device) (ref : PktRef) (st n : Nat) : (s.queueReply ref st n).jobPart = s.jobPart := by
  unfold queueReply
  split
  · rfl
  · exact jobPart_flushN _ _ _

@[simp] theorem jobPart_replyFree (s : Device) (ref : PktRef) (st : Nat) : (s.replyFree ref st).jobPart = s.jobPart :=
  jobPart_queueReply _ _ _ _

theorem jobPart_foldl {α : Type} {f : Device → α → Device} (hf : ∀ s x, (f s x).jobPart = s.jobPart) :
    ∀ (l : List α) (s : Device), (l.foldl f s).jobPart = s.jobPart
  | [], _ => rfl
  | x :: l, s => (jobPart_foldl hf l _).trans (hf s x)

theorem jobPart_setDState (s : Device) (d : DState) : (s.setDState d).jobPart = (s.cmd.job, s.cmd.joins, d, s.frm, s.dies) := by
  unfold setDState
  split
  next h => rw [← h]; rfl
  next => rfl

theorem jobPart_returnJoins {s : Device} {job : Option Job} {js : List Join} {d : DState} {f : Frame} {q : Quad DieState}
    (h : s.jobPart = (job, js, d, f, q)) :
    s.returnJoins.jobPart = (job.map fun j => { j with joinsReturned := j.joinsReturned + js.length }, [], d, f, q) := by
  obtain ⟨hjob, hjs, hd, hf, hq⟩ : s.cmd.job = job ∧ s.cmd.joins = js ∧ s.cmd.dstate = d ∧ s.frm = f ∧ s.dies = q := by
    simpa [jobPart] using h
  subst hjob hjs hd hf hq
  exact jobPart_foldl (fun _ _ => jobPart_replyFree _ _ _) _ _

/-- The job that has ended: with its status and code, its joins returned, its step stopped, and its units too. -/
theorem jobPart_endJob {s : Device} {j : Job} (hj : s.cmd.job = some j) (hp : ∀ w, j.phase ≠ .ending w) (st code : W16) :
    (s.endJob st code).jobPart =
      (some { j with
          phase := .ending false, endStatus := st, errCode := code, endFrm := s.frm.count,
          joinsReturned := j.joinsReturned + s.cmd.joins.length }, [],
        if s.cmd.dstate = .hold then .hold else .ending, { s.frm with stepRun := false, overran := false }, s.stopUnits.dies) := by
  unfold endJob
  rw [hj]
  dsimp only
  split
  · exact absurd ‹_› (hp _)
  · have h := jobPart_returnJoins (jobPart_setDState
      { s.onJob fun j => { j with phase := .ending false, endStatus := st, errCode := code, endFrm := s.frm.count } with
        frm := { s.frm with stepRun := false, overran := false } }.stopUnits (if s.cmd.dstate = .hold then .hold else .ending))
    rw [show ({ s.onJob fun j => { j with phase := .ending false, endStatus := st, errCode := code, endFrm := s.frm.count } with
        frm := { s.frm with stepRun := false, overran := false } } : Device).stopUnits.cmd.job = some { j with
          phase := .ending false, endStatus := st, errCode := code, endFrm := s.frm.count } from congrArg (Option.map _) hj] at h
    exact h

/-- An entry that ends the job: what follows the end itself writes registers and the error queue only. -/
theorem jobPart_act {s : Device} (i : Nat) {e : ErrEntry} (he : 2 ≤ e.sev) :
    (s.act i e).jobPart = ((s.onErr fun q => q.setSlot i (some { e with state := .active })).endJob JOB_FATAL e.code).jobPart := by
  unfold act
  rw [if_neg (by omega)]
  extract_lets s1 s2 s3
  have h3 : s3.jobPart = s2.jobPart := by
    dsimp only [s3]
    split <;> rfl
  split
  · exact h3
  · exact h3

theorem stopUnits_die (s : Device) (d : Die) : (s.stopUnits.die d).gnt = {} ∧ (s.stopUnits.palm d).queue = [] := by
  have hd : s.stopUnits.die d = { s.die d with
      mitts := (s.die d).mitts.map fun x => (x.1, stopMitt x.2), palm := stopPalm (s.die d).palm, gnt := {},
      cuff := { (s.die d).cuff with h0 := {}, h1 := {}, held := [] } } := Quad.get_map _ _ _
  refine ⟨by rw [hd], ?_⟩
  rw [palm, hd]
  dsimp only
  unfold stopPalm
  split
  · rfl
  · split <;> rfl

end Device

/-- Settles O49: the entry's action is the end of the job, whose parts no reply and no later turn of the action change. -/
theorem fatalErrorsEndTheJob : Obligations.FatalErrorsEndTheJob := by
  rintro s t i e j he hj hp rfl
  have h := (Device.jobPart_act (s := s) i he).trans
    (Device.jobPart_endJob (s := s.onErr fun q => q.setSlot i (some { e with state := .active })) hj hp JOB_FATAL e.code)
  simp only [Device.jobPart, Prod.mk.injEq] at h
  obtain ⟨hjob, hjoins, hstate, hfrm, hdies⟩ := h
  refine ⟨⟨_, hjob, rfl, rfl, rfl, rfl⟩, by rw [hfrm], hjoins, fun d => ?_, fun hs => ?_⟩
  · have hd : (s.act i e).die d = s.stopUnits.die d := congrArg (Quad.get · d) hdies
    have := Device.stopUnits_die s d
    exact ⟨by rw [hd]; exact this.1, by rw [Device.palm, hd]; exact this.2⟩
  · rw [hstate]
    exact if_neg hs

end Sys2Proof.Machine
end

section
/-! Integer cells and slots (O13). -/

set_option Elab.async false

namespace Sys2Proof.Machine

namespace Val

@[simp] theorem units_ofInt (v : Int) : (ofInt v 0).units 0 = v := by
  simp only [ofInt, units, Int.sub_self, Int.toNat_zero, Nat.pow_zero, Nat.mul_one, decide_eq_true_eq]
  split <;> omega

/-- Integers add as such: a zero sum of integers is +0, as no integer is -0. -/
theorem ofInt_add_ofInt (a b : Int) : (ofInt a 0).add (ofInt b 0) = ofInt (a + b) 0 := by
  have h : (ofInt a 0).add (ofInt b 0) =
      if a + b = 0 then .fin (decide (a < 0) && decide (b < 0) && a.natAbs == 0 && b.natAbs == 0) 0 0 else ofInt (a + b) 0 := by
    have ha := units_ofInt a
    have hb := units_ofInt b
    simp only [ofInt] at ha hb
    simp only [ofInt, add, Int.min_self, ha, hb]
  rw [h]
  split
  next h0 =>
    rw [h0]
    have : (decide (a < 0) && decide (b < 0)) = false := by simp; omega
    rw [this]
    rfl
  next => rfl

end Val

theorem satSigned_eq {n : Nat} {v : Int} (hl : -(2 ^ (n - 1)) ≤ v) (hu : v < 2 ^ (n - 1)) : satSigned n v = v := by
  unfold satSigned
  generalize (2 : Int) ^ (n - 1) = b at *
  omega

/-- A value that an integer slot holds without saturation. -/
def SlotKind.Holds (k : SlotKind) (v : Int) : Prop := -(2 ^ (k.bits - 1)) ≤ v ∧ v < 2 ^ (k.bits - 1)

theorem slotAdd_ofInt {k : SlotKind} (hk : k.isInt = true) (r : Rnd) {x z : Int} (h : k.Holds (x + z)) :
    slotAdd k r { v := x } (.ofInt z 0) = { v := x + z } := by
  simp [slotAdd, hk, satSigned_eq h.1 h.2]

namespace Cell

/-- A cell that an integer dot product has brought to `y`: what its slot holds and what its open group holds add up to it. -/
def Worth (c : Cell) (y : Int) : Prop :=
  ∃ v z, c.slot = { v } ∧ v + z = y ∧ (c.group = none ∧ z = 0 ∨ c.group = some (.ofInt z 0))

theorem take_ofInt (k : SlotKind) (g : Nat) (rnd : Nat → Rnd) (pos : Nat) {c : Cell} {z : Int} (p : Int)
    (hg : c.group = none ∧ z = 0 ∨ c.group = some (.ofInt z 0)) : c.take k g rnd pos (.ofInt p 0) =
      if (pos + 1) % g = 0 then { slot := slotAdd k (rnd (pos / g)) c.slot (.ofInt (z + p) 0) }
      else { c with group := some (.ofInt (z + p) 0) } := by
  rcases hg with ⟨hg, rfl⟩ | hg
  · simp only [Cell.take, hg, Int.zero_add]
  · simp only [Cell.take, hg, Val.ofInt_add_ofInt]

theorem take_worth {k : SlotKind} (hk : k.isInt = true) (g : Nat) (rnd : Nat → Rnd) (pos : Nat) {c : Cell} {y p : Int} (h : c.Worth y)
    (hy : k.Holds (y + p)) : (c.take k g rnd pos (.ofInt p 0)).Worth (y + p) := by
  obtain ⟨v, z, hv, rfl, hg⟩ := h
  rw [take_ofInt k g rnd pos p hg]
  rw [Int.add_assoc] at hy ⊢
  split
  · exact ⟨v + (z + p), 0, by rw [hv, slotAdd_ofInt hk _ hy], Int.add_zero _, .inl ⟨rfl, rfl⟩⟩
  · exact ⟨v, z + p, hv, rfl, .inr rfl⟩

theorem run_worth {k : SlotKind} (hk : k.isInt = true) (g : Nat) (rnd : Nat → Rnd) : ∀ (ps : List Int) (pos : Nat) {c : Cell} {y : Int},
    c.Worth y → (∀ n, n ≤ ps.length → k.Holds (y + (ps.take n).sum)) →
    (Cell.run k g rnd pos c (ps.map fun p => Val.ofInt p 0)).Worth (y + ps.sum)
  | [], _, _, y, h, _ => by simpa [Cell.run] using h
  | p :: ps, pos, c, y, h, hr => by
    have hp : k.Holds (y + p) := by simpa using hr 1 (by simp)
    have ih := run_worth hk g rnd ps (pos + 1) (take_worth hk g rnd pos h hp) fun n hn => by
      simpa [Int.add_assoc] using hr (n + 1) (by simpa using hn)
    simpa [Cell.run, Int.add_assoc] using ih

theorem flush_worth {k : SlotKind} (hk : k.isInt = true) (g : Nat) (rnd : Nat → Rnd) (pos : Nat) {c : Cell} {y : Int} (h : c.Worth y)
    (hy : k.Holds y) : c.flush k g rnd pos = { v := y } := by
  obtain ⟨v, z, hv, rfl, ⟨hg, rfl⟩ | hg⟩ := h
  · simp only [Cell.flush, hg, hv, Int.add_zero]
  · simp only [Cell.flush, hg, hv, slotAdd_ofInt hk _ hy]

end Cell

/-- Settles O13: slot and open group add up to the sum of the products so far. -/
theorem integerSlotsAreExact : Obligations.IntegerSlotsAreExact := by
  intro k g rnd ps x hk _ hr
  have start : Cell.Worth { slot := { v := x } } x := ⟨x, 0, rfl, Int.add_zero _, .inl ⟨rfl, rfl⟩⟩
  have whole : k.Holds (x + ps.sum) := by
    have := hr ps.length le_rfl
    rwa [List.take_length] at this
  exact Cell.flush_worth hk g rnd _ (Cell.run_worth hk g rnd ps 0 start hr) whole

end Sys2Proof.Machine
end

section
/-! Reads behind writes of the device's memories, and the records of the Hatbox (O29). -/

set_option Elab.async false

namespace Sys2Proof.Machine
open Sys2Proof.Safety

/-! ## Reads behind writes of the device's memories -/

namespace Device

/-- What an update of a die leaves of it, it leaves of every die. -/
theorem onDie_leaves {α : Type} (π : DieState → α) (s : Device) (d e : Die) {f : DieState → DieState}
    (hf : π (f (s.die d)) = π (s.die d)) : π ((s.onDie d f).die e) = π (s.die e) := by
  by_cases he : e = d
  · subst he; rw [die_onDie_self, hf]
  · rw [die_onDie_ne _ _ he]

/-- Another memory reads as before. -/
theorem memory_setMemory_ne (s : Device) {sp sq : Space} (m : Memory) (h : sq ≠ sp) : (s.setMemory sp m).memory sq = s.memory sq := by
  cases sp with
  | tile d =>
    cases sq with
    | tile e => exact congrArg DieState.tile (die_onDie_ne s _ fun he => h (he ▸ rfl))
    | scratch e => exact onDie_leaves DieState.scratch s d e rfl
    | near => rfl
    | far => rfl
  | scratch d =>
    cases sq with
    | tile e => exact onDie_leaves DieState.tile s d e rfl
    | scratch e => exact congrArg DieState.scratch (die_onDie_ne s _ fun he => h (he ▸ rfl))
    | near => rfl
    | far => rfl
  | near => cases sq with
    | near => exact absurd rfl h
    | tile e => rfl
    | scratch e => rfl
    | far => rfl
  | far => cases sq with
    | far => exact absurd rfl h
    | tile e => rfl
    | scratch e => rfl
    | near => rfl

theorem read_keep_below (m : Memory) {n k : Nat} (h : k < n) : Memory.read (Sparse.keep (fun j => decide (j < n)) m) k = m.read k := by
  rw [Memory.read, Sparse.get_keep, if_pos (decide_eq_true h)]; rfl

/-- A memory of a fixed size reads as it was set, inside that size. -/
theorem read_setMemory (s : Device) {sp : Space} (m : Memory) (hsp : sp ≠ .far) {k : Nat} (hk : k < sp.bytes) :
    ((s.setMemory sp m).memory sp).read k = m.read k := by
  cases sp with
  | tile d =>
    simp only [setMemory, memory, die_onDie_self]
    exact read_keep_below m hk
  | scratch d =>
    simp only [setMemory, memory, die_onDie_self]
    exact read_keep_below m hk
  | near => exact read_keep_below m hk
  | far => exact absurd rfl hsp

/-- A byte that a new memory has as the old one reads as before, as does every other memory, inside their size; far memory where it is not
interleaved. -/
theorem read_setMemory_same (s : Device) {sp sq : Space} {m : Memory} {k : Nat} (hk : k < sq.bytes) (hfar : sq = .far → s.mem.ilv = false)
    (h : sq = sp → m.read k = (s.memory sp).read k) : ((s.setMemory sp m).memory sq).read k = (s.memory sq).read k := by
  by_cases hs : sq = sp
  · subst hs
    by_cases hf : sq = .far
    · subst hf
      have hi := hfar rfl
      have far (v : Device) (hv : v.mem.ilv = false) : v.memory .far = v.mem.far := by
        simp only [memory, hv, Bool.false_eq_true, if_false]
      have set : (s.setMemory .far m).mem.ilv = false := hi
      rw [far _ set, far _ hi, Memory.read_setMemory_far hi, h rfl, far _ hi, ite_self]
    · rw [read_setMemory s _ hf hk, h rfl]
  · rw [memory_setMemory_ne s _ hs]

/-- What a write leaves: every other memory, and in its own every byte outside what it writes. -/
theorem read_writeBytes_out (s : Device) {sp sq : Space} {a k : Nat} {bs : List Byte} (hk : k < sq.bytes)
    (hfar : sq = .far → s.mem.ilv = false) (h : sq = sp → k < a ∨ a + bs.length ≤ k) :
    ((s.writeBytes sp a bs).memory sq).read k = (s.memory sq).read k :=
  read_setMemory_same s hk hfar fun e => Memory.read_writeBytes_out (h e)

/-- A byte that is written, in a memory of a fixed size, reads as written. -/
theorem read_writeBytes (s : Device) {sp : Space} (hsp : sp ≠ .far) {a i : Nat} {bs : List Byte} (hi : i < bs.length)
    (hk : a + i < sp.bytes) : ((s.writeBytes sp a bs).memory sp).read (a + i) = bs.getD i 0 := by
  rw [writeBytes, read_setMemory s _ hsp hk, Memory.read_writeBytes hi]

/-- The last of what is written reads back. -/
theorem readBytes_writeBytes_append (s : Device) {sp : Space} (hsp : sp ≠ .far) {a : Nat} {bs cs : List Byte}
    (hk : a + (bs ++ cs).length ≤ sp.bytes) : (s.writeBytes sp a (bs ++ cs)).readBytes sp (a + bs.length) cs.length = cs := by
  rw [List.length_append] at hk
  refine Memory.readBytes_eq fun i hi => ?_
  rw [Nat.add_assoc, read_writeBytes s hsp (by rw [List.length_append]; omega) (by omega),
    List.getD_append_right _ _ _ _ (Nat.le_add_right _ _), Nat.add_sub_cancel_left]

/-! ## The Hatbox -/

theorem recordHeader_length (s : Device) (x : HPush) (spilled : Bool) (len : Nat) (prev : W64) :
    (s.recordHeader x spilled len prev).length = 64 := by
  simp [recordHeader]

/-- A pop of the record on top of its micro-batch's segment. -/
theorem hpop_eq {s : Device} {d : Die} {x : HPop} {r : HbxRegion} {g : HbxSeg} {i : Nat} {z : HbxRec} {rest : List HbxRec}
    (hp : x.park = false) (hz : s.fld (regionFld R.HBX_SIZE_UNITS d x.stage.val) ≠ 0) (hr : r = s.region d x.stage.val)
    (hg : r.segs.zipIdx.find? (fun y => y.1.mb == x.mb && y.1.recs != []) = some (g, i)) (ht : g.recs = z :: rest)
    (hm : popMatches x z = true) : s.hpop d x = (s.deliver d x.stage.val x z).setRegion d x.stage.val
      ({ r with segs := r.segs.zipIdx.map fun y => if y.2 = i then popTop (i + 1 == r.segs.length) y.1 else y.1 } : HbxRegion).reclaim := by
  subst hr
  simp only [hpop, hz, hp, hg, ht, hm, if_false, Bool.false_eq_true, Option.bind_some, List.head?_cons, Option.filter_some, if_true,
    Option.map_some]

/-- A record written in a region where its bytes can be accessed: header and data. -/
theorem writeRecord_region {v : Device} {d : Die} {k : Nat} {x : HPush} {z : HbxRec} {prev : W64} {data : List Byte}
    (hp : z.place = .region) (hb : v.bad [(.near, v.regionBase d k + z.off, z.bytes)] = none) :
    v.writeRecord d k x z prev data (fun u => u) =
      v.writeBytes .near (v.regionBase d k + z.off) (v.recordHeader x false z.len prev ++ data) := by
  have ha : v.recordAddr d k z = (.near, v.regionBase d k + z.off) := by simp [recordAddr, hp]
  rw [writeRecord, ha]
  dsimp only
  rw [accessing_good _ hb, hp]
  rfl

end Device

/-- Settles O29. -/
theorem popReturnsTheNewest : Obligations.PopReturnsTheNewest := by
  constructor
  · rintro s d x r g i z rest ⟨⟨hl, hi⟩, hfree⟩ hp hz hr hg ht hlayer hkind hmb _
    have run : exec (.hpop d x) s = .next (into s (s.dev.hpop d x)) := issueOp_free (.hpop x) hl hi hfree
    have top : Device.popMatches x z = true := by simp [Device.popMatches, hlayer, hkind, hmb]
    rw [run, Device.hpop_eq hp hz hr hg ht top]
  · intro v d k x z prev data hp hlen hfit hb
    rw [Device.writeRecord_region hp hb, hlen, ← Device.recordHeader_length v x false z.len prev]
    refine Device.readBytes_writeBytes_append v (sp := .near) (by decide) ?_
    have : z.bytes = 64 + (z.len + 63) / 64 * 64 := rfl
    rw [List.length_append, Device.recordHeader_length]
    show _ ≤ 2 ^ 40
    omega

end Sys2Proof.Machine
end

section
/-! What a written plain tensor leaves (O16). -/

set_option Elab.async false

namespace Sys2Proof.Machine
open Sys2Proof.Safety

/-! ## What decides whether addresses can be accessed -/

namespace Device

/-- Whether addresses can be accessed is decided by registers and the far map alone. -/
theorem bad_congr {s t : Device} (hr : t.regs = s.regs) (hi : t.mem.ilv = s.mem.ilv) : t.bad = s.bad := by
  have hu : t.unmapped = s.unmapped := by
    funext far a
    unfold unmapped farCovered farCap stackState fld
    rw [hr, hi]
  have hd : t.downFar = s.downFar := by
    funext far a
    simp only [downFar, portDown, fld, hr, hi]
  have hs : t.stackState = s.stackState := by
    funext k
    simp only [stackState, fld, hr]
  funext xs
  unfold bad
  congr 1
  funext x
  simp only [badIn, hu, hd, hs]

@[simp] theorem setMemory_regs (s : Device) (sp : Space) (m : Memory) : (s.setMemory sp m).regs = s.regs := by cases sp <;> rfl
@[simp] theorem setMemory_frm (s : Device) (sp : Space) (m : Memory) : (s.setMemory sp m).frm = s.frm := by cases sp <;> rfl
@[simp] theorem setMemory_ilv (s : Device) (sp : Space) (m : Memory) : (s.setMemory sp m).mem.ilv = s.mem.ilv := by cases sp <;> rfl

/-- A range of near memory that can be accessed lies inside it. -/
theorem fits_of_bad_near {s : Device} {a n : Nat} (h : s.bad [(.near, a, n)] = none) (hn : 0 < n) : a + n ≤ 2 ^ 40 := by
  by_contra hc
  have hu (b : Nat) (hb : 2 ^ 40 ≤ b) : s.unmapped false b = true := by simp [unmapped]; omega
  simp only [bad, badIn, List.findSome?_cons, List.findSome?_nil] at h
  rw [if_neg (fun hf => hc hf.1)] at h
  have none_found : ∀ i, i < (a % 256 + n + 256 - 1) / 256 → s.unmapped false (max a (a / 256 * 256 + 256 * i)) = false := by
    intro i hi
    have hf : ((List.range ((a % 256 + n + 256 - 1) / 256)).map fun i => max a (a / 256 * 256 + 256 * i)).find? (s.unmapped false) = none := by
      cases hx : ((List.range ((a % 256 + n + 256 - 1) / 256)).map fun i => max a (a / 256 * 256 + 256 * i)).find? (s.unmapped false) with
      | none => rfl
      | some b => rw [hx] at h; cases h
    have := List.find?_eq_none.1 hf _ (List.mem_map.2 ⟨i, List.mem_range.2 hi, rfl⟩)
    simpa using this
  by_cases ha : 2 ^ 40 ≤ a
  · have := none_found 0 (by omega)
    rw [hu _ (by omega)] at this
    cases this
  · have := none_found (2 ^ 32 - a / 256) (by omega)
    rw [hu _ (by omega)] at this
    cases this

/-! ## The frame of a written plain tensor -/

/-- A device that differs from another in the contents of memories and in the histogram records still to clear, and there not in this
byte. -/
structure SameAt (s t : Device) (sp : Space) (k : Nat) : Prop where
  regs : t.regs = s.regs
  ilv : t.mem.ilv = s.mem.ilv
  step : t.frm.step = s.frm.step
  read : (t.memory sp).read k = (s.memory sp).read k

namespace SameAt

variable {s t : Device} {sp : Space} {k : Nat}

theorem refl : SameAt s s sp k := ⟨rfl, rfl, rfl, rfl⟩

theorem bad_eq (h : SameAt s t sp k) : t.bad = s.bad := bad_congr h.regs h.ilv

theorem setMemory (h : SameAt s t sp k) (hk : k < sp.bytes) (hfar : sp = .far → s.mem.ilv = false) {sq : Space} {m : Memory}
    (hm : sp = sq → m.read k = (t.memory sq).read k) : SameAt s (t.setMemory sq m) sp k where
  regs := by rw [setMemory_regs, h.regs]
  ilv := by rw [setMemory_ilv, h.ilv]
  step := by rw [setMemory_frm, h.step]
  read := by rw [read_setMemory_same t hk (fun e => by rw [h.ilv, hfar e]) hm, h.read]

theorem foldl {α : Type} {f : Device → α → Device} : ∀ {l : List α} {t : Device}, SameAt s t sp k →
    (∀ u, ∀ x ∈ l, SameAt s u sp k → SameAt s (f u x) sp k) → SameAt s (l.foldl f t) sp k
  | [], _, h, _ => h
  | x :: l, _, h, hf => foldl (l := l) (hf _ x (List.mem_cons_self ..) h) fun u y hy => hf u y (List.mem_cons_of_mem _ hy)

/-- One element written, whose bytes do not hold this one. -/
theorem putCode (h : SameAt s t sp k) (hk : k < sp.bytes) (hfar : sp = .far → s.mem.ilv = false) {d : TDesc} {f : Fmt} {r c code : Nat}
    (hf : f.blocked = false) (hb : sp = d.space →
      k < d.addr + (r * d.pitch + c) * f.bits / 8 ∨ d.addr + ((r * d.pitch + c + 1) * f.bits + 7) / 8 ≤ k) :
    SameAt s (t.putCode d f r c code) sp k := by
  refine h.setMemory hk hfar fun e => Memory.read_writeLE_out ?_
  have := hb e
  rw [show (r * d.pitch + c + 1) * f.bits = (r * d.pitch + c) * f.bits + f.bits from Nat.succ_mul _ _] at this
  simp only [TDescOps.stride, hf, Bool.false_eq_true, if_false]
  omega

/-- One row written into a plain destination. -/
theorem writePlainRow (h : SameAt s t sp k) (hk : k < sp.bytes) (hfar : sp = .far → s.mem.ilv = false) {d : TDesc} {f : Fmt} {r : Nat}
    {xs : List Conv} (hf : f.blocked = false) (hb : sp = d.space →
      k < d.addr + r * d.pitch * f.bits / 8 ∨ d.addr + ((r * d.pitch + xs.length) * f.bits + 7) / 8 ≤ k) :
    SameAt s (t.writePlainRow d f r xs).dev sp k := by
  refine foldl h fun u x hx hu => hu.putCode hk hfar hf fun e => ?_
  have hc : x.2 < xs.length := by
    have := List.mem_zipIdx hx
    omega
  have low : r * d.pitch * f.bits ≤ (r * d.pitch + x.2) * f.bits := Nat.mul_le_mul_right _ (Nat.le_add_right _ _)
  have high : (r * d.pitch + x.2 + 1) * f.bits ≤ (r * d.pitch + xs.length) * f.bits := Nat.mul_le_mul_right _ (by omega)
  have := hb e
  omega

theorem writeRow (h : SameAt s t sp k) (hk : k < sp.bytes) (hfar : sp = .far → s.mem.ilv = false) {d : TDesc} {f : Fmt} (rnd : BitVec 2)
    (inf : Bool) (n : Nat) (force : Nat → Nat → Bool) {w : Written} (hw : w.dev = t) {row : List Val × Nat} (hf : f.blocked = false)
    (hb : sp = d.space →
      k < d.addr + row.2 * d.pitch * f.bits / 8 ∨ d.addr + ((row.2 * d.pitch + row.1.length) * f.bits + 7) / 8 ≤ k) :
    SameAt s (Device.writeRow d f rnd inf n force w row).dev sp k := by
  subst hw
  unfold Device.writeRow
  rw [hf]
  exact h.writePlainRow hk hfar hf fun e => by simpa using hb e

/-- A change inside a record of near memory. -/
theorem setNearMemory (h : SameAt s t sp k) (hk : k < sp.bytes) (hfar : sp = .far → s.mem.ilv = false) {m : Memory}
    (hm : sp = .near → m.read k = t.mem.near.read k) : SameAt s (t.setMemory .near m) sp k :=
  h.setMemory hk hfar fun e => hm e

theorem setNear (h : SameAt s t sp k) (hk : k < sp.bytes) (hfar : sp = .far → s.mem.ilv = false) {a n v : Nat}
    (hb : sp = .near → k < a ∨ a + n ≤ k) : SameAt s (t.setNear a n v) sp k :=
  h.setNearMemory hk hfar fun e => Memory.read_writeLE_out (hb e)

theorem histMode (h : SameAt s t sp k) (hk : k < sp.bytes) (hfar : sp = .far → s.mem.ilv = false) {d : TDesc}
    (hb : sp = .near → k < d.histAddr ∨ d.histAddr + 0x110 ≤ k) : SameAt s (t.histMode d) sp k := by
  unfold Device.histMode
  split
  · exact ⟨h.regs, h.ilv, h.step, h.read⟩
  · split
    · exact h
    · have hc : SameAt s (t.setMemory .near (t.mem.near.clear d.histAddr 0x110)) sp k :=
        h.setNearMemory hk hfar fun e => by rw [Memory.read_clear, if_pos (hb e)]
      exact ⟨hc.regs, hc.ilv, hc.step, hc.read⟩

end SameAt

/-- The count of a bin lies in front of the record's flags. -/
theorem binAt_binOf_le (b : Int) (c : Conv) (v : Val) : binAt (binOf b c v) ≤ 0x108 := by
  unfold binOf
  split
  · decide
  · split
    · decide
    · split
      · decide
      · decide
      · split
        · decide
        · dsimp only
          split
          · decide
          · split
            · decide
            · simp only [binAt]
              omega

/-- Counting changes a record's own bytes only. -/
theorem read_histBump_out {m : Memory} {a k : Nat} {x : Bin} (hx : binAt x ≤ 0x108) (hk : k < a ∨ a + 0x110 ≤ k) :
    (histBump m a x).read k = m.read k := by
  unfold histBump
  dsimp only
  split
  · exact Memory.read_writeLE_out (by omega)
  · exact Memory.read_writeLE_out (by omega)

theorem read_histogram_out {a k : Nat} (b : Int) (hk : k < a ∨ a + 0x110 ≤ k) : ∀ (xs : List (Conv × Val)) (m : Memory),
    (xs.foldl (fun m x => histBump m a (binOf b x.1 x.2)) m).read k = m.read k
  | [], _ => rfl
  | _ :: xs, _ => (read_histogram_out b hk xs _).trans (read_histBump_out (binAt_binOf_le ..) hk)

theorem recording_good {s : Device} {unit : W16} {xs : List (Space × Nat × Nat)} (f : Device → Device) (h : s.bad xs = none) :
    s.recording unit xs f = f s := by simp [recording, h]

namespace SameAt

variable {s t : Device} {sp : Space} {k : Nat}

theorem histogram (h : SameAt s t sp k) (hk : k < sp.bytes) (hfar : sp = .far → s.mem.ilv = false) {d : TDesc} {xs : List (Conv × Val)}
    (hb : d.hist = true → s.bad [(.near, d.histAddr, 0x110)] = none ∧ (sp = .near → k < d.histAddr ∨ d.histAddr + 0x110 ≤ k)) :
    SameAt s (t.histogram d xs) sp k := by
  unfold Device.histogram
  split
  · exact h
  next hn =>
    obtain ⟨good, out⟩ := hb (by simp at hn; exact hn.1)
    have fits := fits_of_bad_near good (by decide)
    rw [if_neg (by omega), recording_good _ (by rw [h.bad_eq]; exact good)]
    refine (h.histMode hk hfar out).setNearMemory hk hfar fun e => ?_
    rw [read_histogram_out _ (out e)]
    exact Memory.read_writeLE_out (by have := out e; omega)

theorem digest (h : SameAt s t sp k) (hk : k < sp.bytes) (hfar : sp = .far → s.mem.ilv = false) {d : Die} {x : TDesc} {w : Nat}
    {xs : List (Nat × Nat)} (hw : w = s.watchRecord d s.frm.step.toNat x.layer.toNat)
    (hb : x.dkind ≠ 0 → s.bad [(.near, w, 0x80)] = none ∧ (sp = .near → k < w ∨ w + 0x80 ≤ k)) : SameAt s (t.digest d x xs) sp k := by
  have place : t.watchRecord d t.frm.step.toNat x.layer.toNat = w := by
    rw [hw]
    unfold watchRecord fld
    rw [h.regs, h.step]
  unfold Device.digest
  dsimp only
  split
  · exact h
  next hd =>
    obtain ⟨good, out⟩ := hb fun e => hd (.inl (by rw [e]; rfl))
    rw [place, recording_good _ (by rw [h.bad_eq]; exact good)]
    refine (h.setNear hk hfar fun e => ?_).setNear hk hfar fun e => ?_
    · have := out e; omega
    · have := out e; omega

theorem writeRows {f : Fmt} (hf : f.blocked = false) (hk : k < sp.bytes) (hfar : sp = .far → s.mem.ilv = false) {d : TDesc} (rnd : BitVec 2)
    (inf : Bool) (n : Nat) (force : Nat → Nat → Bool) : ∀ {rows : List (List Val × Nat)} {w : Written}, SameAt s w.dev sp k →
    (sp = d.space → ∀ x ∈ rows,
      k < d.addr + x.2 * d.pitch * f.bits / 8 ∨ d.addr + ((x.2 * d.pitch + x.1.length) * f.bits + 7) / 8 ≤ k) →
    SameAt s (rows.foldl (Device.writeRow d f rnd inf n force) w).dev sp k
  | [], _, h, _ => h
  | x :: rows, _, h, hb =>
    writeRows (rows := rows) hf hk hfar rnd inf n force (h.writeRow hk hfar rnd inf n force rfl hf fun e => hb e x (List.mem_cons_self ..))
      fun e y hy => hb e y (List.mem_cons_of_mem _ hy)

end SameAt

end Device

/-- Settles O16: rows, histogram record and watch record each leave the byte as it was. -/
theorem plainTensorFrame : Obligations.PlainTensorFrame := by
  intro s d t f rnd inf n rows force sp k w hf hk hfar hrows hhist hw hwatch
  have rowsDone := Device.SameAt.writeRows (w := { dev := s }) hf hk hfar rnd inf n force .refl hrows
  exact ((rowsDone.histogram hk hfar hhist).digest hk hfar hw hwatch).read

end Sys2Proof.Machine
end

section
/-! Integer adds, and accesses that fail (O27). -/

set_option Elab.async false

namespace Sys2Proof.Machine
open Sys2Proof.Safety

/-! ## Sums of elements -/

theorem signedOf_codeOf_sat (x : Int) : signedOf 64 (codeOf 64 (satSigned 64 x)) = satSigned 64 x := by
  unfold signedOf codeOf satSigned
  split <;> omega

theorem addElem_i64m_comm (o a b : Nat) :
    (addElem .i64m (addElem .i64m o a).1 b).1 = (addElem .i64m (addElem .i64m o b).1 a).1 := by
  simp only [addElem]
  omega

theorem addElem_u32s_comm (o a b : Nat) (h1 : (addElem .u32s o a).2 = false) (h2 : (addElem .u32s (addElem .u32s o a).1 b).2 = false) :
    (addElem .u32s o b).2 = false ∧ (addElem .u32s (addElem .u32s o b).1 a).2 = false ∧
      (addElem .u32s (addElem .u32s o b).1 a).1 = (addElem .u32s (addElem .u32s o a).1 b).1 := by
  simp only [addElem, satCount] at h1 h2 ⊢
  have h1 := of_decide_eq_false h1
  have h2 := of_decide_eq_false h2
  exact ⟨decide_eq_false (by omega), decide_eq_false (by omega), by omega⟩

/-- A saturating add that does not saturate is the sum itself. -/
theorem addElem_i64s_of_exact {o a : Nat} (h : (addElem .i64s o a).2 = false) :
    signedOf 64 (addElem .i64s o a).1 = signedOf 64 o + signedOf 64 a := by
  simp only [addElem, bne_eq_false_iff_eq] at h ⊢
  rw [signedOf_codeOf_sat, h]

theorem addElem_i64s_comm {o a b : Nat} (h1 : (addElem .i64s o a).2 = false) (h2 : (addElem .i64s o b).2 = false) :
    (addElem .i64s (addElem .i64s o b).1 a).1 = (addElem .i64s (addElem .i64s o a).1 b).1 := by
  have sum (p q : Nat) : (addElem .i64s p q).1 = codeOf 64 (satSigned 64 (signedOf 64 p + signedOf 64 q)) := rfl
  rw [sum (addElem .i64s o b).1 a, sum (addElem .i64s o a).1 b, addElem_i64s_of_exact h1, addElem_i64s_of_exact h2, Int.add_right_comm]

/-! ## Their frame -/

theorem read_addElems_out (op : AddOp) {a k : Nat} (m : Memory) (ws : List W64) (hk : k < a ∨ a + addBytes op * ws.length ≤ k) :
    (addElems op m a ws).1.read k = m.read k := by
  refine List.foldlRecOn (motive := fun z : Memory × Bool => z.1.read k = m.read k) _ _ rfl fun z hz w hw => ?_
  have hi : w.2 + 1 ≤ ws.length := by have := List.mem_zipIdx hw; omega
  have hb : addBytes op * (w.2 + 1) ≤ addBytes op * ws.length := Nat.mul_le_mul_left _ hi
  rw [Nat.mul_add, Nat.mul_one] at hb
  exact (Memory.read_writeLE_out (by omega)).trans hz

/-- Every other key reads as before, whatever an unlisted one reads as. -/
theorem Sparse.get_put_other {α : Type} [DecidableEq α] (d e v : α) {k j : Nat} (m : Sparse α) (h : j ≠ k) :
    get e j (put d k v m) = get e j m := by
  have hc : ∀ c ∈ cell d k v, c.1 ≠ j := fun c hc => by have := mem_cell hc; omega
  unfold put
  rcases Nat.lt_or_gt_of_ne h with hlt | hgt
  · rw [get_append_left (by rw [get_keep]; simp; omega), get_append_left (get_unlisted hc), get_keep]
    simp [hlt]
  · rw [List.append_assoc, get_append fun c hc => by have := mem_keep hc; simp at this; omega, get_append hc, get_keep]
    simp [hgt]

namespace RegFile

theorem liveAt_setFld_ne (r : RegFile) (f : Fld) (x : Nat) {off : Nat} (h : off ≠ f.off) : (r.setFld f x).liveAt off = r.liveAt off :=
  Sparse.get_put_other _ _ _ _ h

/-- A field of another register stays. -/
theorem fld_setFld_ne (r : RegFile) (f g : Fld) (x : Nat) (h : f.off ≠ g.off) : (r.setFld g x).fld f = r.fld f := by
  rw [fld, liveAt_setFld_ne r g x h, fld]

/-- An event changes its own register and the status register that numbers it. -/
theorem fld_event_ne (r : RegFile) (f g : Fld) (h : f.off ≠ g.off) (hs : f.off ≠ statOf g.off) : (r.event g).fld f = r.fld f :=
  (fld_setFld_ne _ f g _ h).trans (fld_setFld_ne r f (seqFld (statOf g.off)) _ hs)

end RegFile

namespace Device

/-! ## Accesses that fail, where the log lies in Bonnet's own entries -/

/-- What the end of a job and its errors leave: the memories of R1, the fabric, the power controls, the processors, the step and the
frame's count. -/
def framed (s : Device) : Memory × Memory × Bool × Quad (Memory × Memory) × Fabric × Power × Quad ProcState × W32 × W64 :=
  (s.mem.near, s.mem.far, s.mem.ilv, s.dies.map fun d => (d.tile, d.scratch), s.fab, s.pwr, s.procs, s.frm.step, s.frm.count)

theorem framed_deaf (u : Device) : Deaf fun s => s.framed = u.framed :=
  ⟨fun _ _ h => h, fun _ _ h => h, fun _ _ h => h, fun _ _ h => h, fun _ _ h => h, fun _ _ h => h, fun _ _ h => h,
    fun _ _ _ h => h, fun _ h => h⟩

theorem framed_post (s : Device) (code : W16) (sev : Nat) (unit : W16) (detail : W64) :
    (s.post code sev unit detail).framed = s.framed := (framed_deaf s).post code sev unit detail rfl

/-- An entry of the log in Bonnet's own memory. -/
theorem framed_memLog {s : Device} (h : s.fld R.MEM_LOG_BASE_UNITS = 0) (x : LogItem) : (s.memLog x).framed = s.framed := by
  unfold memLog
  rw [h]
  dsimp only
  rw [Nat.zero_mul, if_neg (by simp), if_neg (by simp)]
  split <;> rfl

theorem framed_uncorrectable {s : Device} (h : s.fld R.MEM_LOG_BASE_UNITS = 0) (x : LogItem) (sev : Nat) :
    (s.uncorrectable x sev).framed = s.framed := (framed_post _ _ _ _ _).trans (framed_memLog h x)

/-- An access that fails writes none of the memories, where the log lies in Bonnet's own entries. -/
theorem framed_failAccess {s : Device} (h : s.fld R.MEM_LOG_BASE_UNITS = 0) (far : Bool) (a : Nat) (unit : W16) (sev : Nat) :
    (s.failAccess far a unit sev).framed = s.framed := by
  unfold failAccess
  split
  · have he : (s.event R.MEM_STAT_MAP_ERR).fld R.MEM_LOG_BASE_UNITS = 0 :=
      (RegFile.fld_event_ne s.regs R.MEM_LOG_BASE_UNITS R.MEM_STAT_MAP_ERR (by decide) (by decide)).trans h
    unfold refuseAccess
    cases far with
    | true => exact framed_uncorrectable h _ _
    | false => exact framed_uncorrectable he _ _
  · exact framed_uncorrectable h _ _

/-- An access that can be made, or whose failure writes none of the memories, leaves a device as its work would. -/
theorem framed_accessing {s : Device} {xs : List (Space × Nat × Nat)} (h : s.fld R.MEM_LOG_BASE_UNITS = 0 ∨ s.bad xs = none) (unit : W16)
    {f : Device → Device} (hf : (f s).framed = s.framed) : (s.accessing unit xs f).framed = s.framed := by
  rcases accessing_cases s unit xs f with ⟨-, e⟩ | ⟨far, a, hb, e⟩
  · rw [e, hf]
  · rw [e]
    rcases h with h | h
    · exact framed_failAccess h far a unit 2
    · rw [h] at hb; cases hb

theorem near_of_framed {s t : Device} (h : t.framed = s.framed) : t.mem.near = s.mem.near := congrArg Prod.fst h

/-! ## An integer add -/

theorem read_integerAdd_out {s : Device} {op : AddOp} {a : Nat} {ws : List W64} {f : Nat} {mask : W32} {k : Nat}
    (hg : s.fld R.MEM_LOG_BASE_UNITS = 0 ∨ s.bad [(.near, a, addBytes op * ws.length)] = none ∧ s.bad [(.near, f, 4)] = none)
    (hk : k < 2 ^ 40) (he : k < a ∨ a + addBytes op * ws.length ≤ k)
    (hf : k < f ∨ f + 4 ≤ k ∨ (addElems op s.mem.near a ws).2 = false) :
    (s.integerAdd op a ws f mask).mem.near.read k = s.mem.near.read k := by
  have inside : k < Space.near.bytes := hk
  have nofar : Space.near = .far → s.mem.ilv = false := nofun
  have start : SameAt s s .near k := .refl
  have added : SameAt s (s.setMemory .near (addElems op s.mem.near a ws).1) .near k :=
    start.setNearMemory inside nofar fun _ => read_addElems_out op _ ws he
  unfold integerAdd
  split
  · rfl
  · rcases accessing_cases s _ _ _ with ⟨-, e⟩ | ⟨far, b, hb, e⟩
    · rw [e]
      dsimp only
      split
      next hsat =>
        rcases accessing_cases (s.setMemory .near (addElems op s.mem.near a ws).1) _ _ _ with ⟨-, e⟩ | ⟨far, b, hb, e⟩
        · rw [e]
          refine (added.setNear inside nofar fun _ => ?_).read
          rcases hf with hf | hf | hf
          · exact .inl hf
          · exact .inr hf
          · rw [hf] at hsat; cases hsat
        · rw [e]
          rcases hg with hg | hg
          · have kept := framed_failAccess (s := s.setMemory .near (addElems op s.mem.near a ws).1) hg far b (adderUnit (windowOf f)) 2
            exact (congrArg (Memory.read · k) (near_of_framed kept)).trans added.read
          · rw [added.bad_eq, hg.2] at hb; cases hb
      next => exact added.read
    · rw [e]
      rcases hg with hg | hg
      · exact congrArg (Memory.read · k) (near_of_framed (framed_failAccess hg _ _ _ _))
      · rw [hg.1] at hb; cases hb

end Device

/-- A device command leaves the state, or changes its device alone. -/
theorem onDev_cases {s t : State} {f : Device → Device} (h : onDev s f = .next t) : t = s ∨ t = { s with dev := f s.dev } := by
  unfold onDev at h
  split at h
  · exact .inl (Host.Outcome.next.inj h).symm
  · exact .inr (Host.Outcome.next.inj h).symm

/-- Settles O27. -/
theorem integerAdds : Obligations.IntegerAdds := by
  refine ⟨fun o a b => ⟨addElem_i64m_comm o a b, addElem_u32s_comm o a b, ?_⟩, ?_⟩
  · exact fun _ _ _ h1 _ h2 _ => addElem_i64s_comm h1 h2
  · intro s t op a ws f mask k hg hk run he hf
    rcases onDev_cases (f := fun v => v.integerAdd op a ws f mask) run with rfl | rfl
    · rfl
    · exact Device.read_integerAdd_out hg hk he hf

end Sys2Proof.Machine
end

section
/-! What a failed attempt leaves to commit (O32). -/

set_option Elab.async false

namespace Sys2Proof.Machine
open Sys2Proof.Safety

namespace Device

/-- No PASSED solve of a descriptor is left on a die for a tick to commit. -/
def NonePassed (d : Die) (index : Nat) (s : Device) : Prop := ∀ p ∈ (s.gnt d).passed, p.index ≠ index

theorem nonePassed_deaf (d : Die) (index : Nat) : Deaf (NonePassed d index) where
  regs _ _ h := h
  err _ _ h := h
  cmd _ _ h := h
  lining _ _ h := h
  host _ _ h := h
  free _ _ h := h
  i3c _ _ h := h
  step _ _ _ h := h
  stop s _ := by
    intro p hp
    rw [gnt, (stopUnits_die s d).1] at hp
    cases hp

namespace Deaf

variable {P : Device → Prop} (h : Deaf P)
include h

/-- An access that fails keeps what is deaf to errors and to the contents of near memory and of Bonnet's log. -/
theorem memLog (hm : ∀ s x, P s → P { s with mem := x }) {s : Device} (x : LogItem) (hs : P s) : P (s.memLog x) := by
  unfold Device.memLog
  dsimp only
  split
  · exact h.post _ _ _ _ (h.count _ _ (h.event _ (h.event _ hs)))
  · split
    · unfold ringLog
      split
      · exact hs
      · dsimp only
        split
        · exact h.count _ _ (h.setFld _ _ (hm _ _ hs))
        · exact h.setFld _ _ (hm _ _ hs)
    · split
      · exact h.count _ _ (h.setFld _ _ (hm _ _ hs))
      · exact h.setFld _ _ (hm _ _ hs)

theorem failAccess (hm : ∀ s x, P s → P { s with mem := x }) {s : Device} (far : Bool) (a : Nat) (unit : W16) (sev : Nat) (hs : P s) :
    P (s.failAccess far a unit sev) := by
  have uncorrectable {s : Device} (x : LogItem) (hs : P s) : P (s.uncorrectable x sev) :=
    h.post _ _ _ _ (h.count _ _ (h.event _ (h.memLog hm x hs)))
  unfold Device.failAccess
  split
  · unfold refuseAccess
    split
    · exact uncorrectable _ hs
    · exact uncorrectable _ (h.event _ hs)
  · exact uncorrectable _ hs

theorem ringEntry (hm : ∀ s x, P s → P { s with mem := x }) {s : Device} (unit : W16) (base size len : Nat) (next wraps : Fld)
    (e : List Byte) (hs : P s) : P (s.ringEntry unit base size len next wraps e).1 := by
  unfold Device.ringEntry
  dsimp only
  split
  · exact h.failAccess hm _ _ _ _ hs
  · unfold ringLog
    split
    · exact hs
    · dsimp only
      split
      · exact h.count _ _ (h.setFld _ _ (hm _ _ hs))
      · exact h.setFld _ _ (hm _ _ hs)

end Deaf

namespace NonePassed

variable {d : Die} {index : Nat} {s : Device}

theorem withMem (s : Device) (x : MemSys) (h : NonePassed d index s) : NonePassed d index { s with mem := x } := h

theorem writeNear (h : NonePassed d index s) (a : Nat) (bs : List Byte) : NonePassed d index (s.writeBytes .near a bs) := h

theorem writeResult (h : NonePassed d index s) (v : Solve) (outcome : Nat) (rho : Int) : NonePassed d index (s.writeResult v outcome rho) := by
  unfold Device.writeResult
  extract_lets x a ws digest s1 s2 s3
  have h3 : NonePassed d index s3 := ((h.writeNear _ _).writeNear _ _).writeNear _ _
  clear_value s3
  split
  · exact h
  · split
    · exact h3
    · exact h3.writeNear _ _

theorem deadlineRecord (h : NonePassed d index s) (v : Solve) (outcome : Nat) (rho : Int) :
    NonePassed d index (s.deadlineRecord d v outcome rho) := by
  unfold Device.deadlineRecord
  split
  · exact h
  · exact (nonePassed_deaf d index).ringEntry withMem _ _ _ _ _ _ _ h

theorem outcomeEvent (h : NonePassed d index s) (outcome : Nat) : NonePassed d index (s.outcomeEvent d outcome) := by
  unfold Device.outcomeEvent
  split
  · exact h
  · split
    · exact h
    · split
      · exact h
      · exact h

theorem countFailure (h : NonePassed d index s) (v : Solve) (outcome : Nat) : NonePassed d index (s.countFailure d v outcome) := by
  unfold Device.countFailure
  split
  · exact h
  · dsimp only
    split
    · exact (nonePassed_deaf d index).post _ _ _ _ h
    · exact h

end NonePassed

end Device

/-- Settles O32: the attempt's end takes its descriptor's PASSED solve out, and nothing after it brings one back. -/
theorem onlyPassedSolvesCommit : Obligations.OnlyPassedSolvesCommit := by
  intro s d v outcome rho ho
  unfold Device.endSolve
  extract_lets x pass s1 s2 s3
  have h1 : Device.NonePassed d v.index s1 := by
    intro p hp
    simp only [s1, Device.gnt, Device.onGnt, Device.die_onDie_self, if_neg ho, List.append_nil, List.mem_filter] at hp
    simpa using hp.2
  exact (((h1.writeResult v outcome rho).deadlineRecord v outcome rho).outcomeEvent outcome).countFailure v outcome

end Sys2Proof.Machine
end

section
/-! What a reset clears and keeps (O57). -/

set_option Elab.async false

namespace Sys2Proof.Machine
open Sys2Proof.Safety

theorem resetEntry_length (s : Device) (cause : Nat) : (resetEntry s cause).length = 16 := by
  simp [resetEntry]

namespace Device

theorem readLining_setLining_out (s : Device) {a b n : Nat} {bs : List Byte} (h : a + n ≤ b ∨ b + bs.length ≤ a) :
    (s.setLining b bs).lining.readLE a n = s.lining.readLE a n := Memory.readLE_writeBytes_out h

theorem bk_setBk_self (s : Device) (n v : Nat) : (s.setBk n v).bk n = v % 2 ^ 32 := Memory.readLE_writeLE s.lining (bkAddr n) 4 v

theorem bk_setBk_ne (s : Device) {m n : Nat} (v : Nat) (h : m ≠ n) : (s.setBk n v).bk m = s.bk m :=
  readLining_setLining_out s (by simp only [bkAddr, Memory.leBytes_length]; omega)

/-- The reset record lies below the backup registers. -/
theorem bk_recorded (s : Device) (cause n : Nat) : (s.setLining 0x10 (resetEntry s cause ++ s.lining.readBytes 0x10 112)).bk n = s.bk n :=
  readLining_setLining_out s (by
    rw [List.length_append, resetEntry_length, Memory.readBytes_length]
    simp only [bkAddr]
    omega)

theorem bk_recordReset (s : Device) (cause : Nat) : (s.recordReset cause).bk 8 = (s.bk 8 + 1) % 2 ^ 32 := bk_setBk_self ..

theorem bk_recordReset_ne (s : Device) (cause : Nat) {n : Nat} (h : n ≠ 8) : (s.recordReset cause).bk n = s.bk n :=
  (bk_setBk_ne _ _ h).trans (bk_recorded s cause n)

/-- The newest entry of the reset record. -/
theorem readLining_recordReset (s : Device) (cause : Nat) : (s.recordReset cause).lining.readBytes 0x10 16 = resetEntry s cause := by
  have first := Memory.readBytes_writeBytes_append s.lining 0x10 (resetEntry s cause) (s.lining.readBytes 0x10 112)
  rw [resetEntry_length] at first
  refine Eq.trans (Memory.readBytes_congr fun i hi => Memory.read_writeBytes_out ?_) first
  simp only [bkAddr, Memory.leBytes_length]
  omega

/-- A device in reset holds nothing in a memory that a space names. -/
theorem read_inResetFrom (s : Device) (cause : Nat) (sp : Space) (a : Nat) : ((s.inResetFrom cause).memory sp).read a = 0 := by
  cases sp with
  | tile d => fin_cases d <;> rfl
  | scratch d => fin_cases d <;> rfl
  | near => rfl
  | far => rfl

end Device

/-- Settles O57: what a reset keeps is the Lining as it is recorded there; all else is as in the reset state. -/
theorem resetClears : Obligations.ResetClears := by
  intro s cause t
  refine ⟨rfl, rfl, rfl, rfl, rfl, Device.bk_recordReset _ _, Device.readLining_recordReset _ _,
    fun n hn => Device.bk_recordReset_ne _ _ hn, fun off => ⟨rfl, rfl⟩, fun sp a => Device.read_inResetFrom _ _ sp a,
    rfl, rfl, rfl, rfl, rfl, rfl, fun hc => ?_, fun hc => ?_⟩
  · show (decide (2 ≤ cause) && s.dev.cmd.linkUp) = s.dev.cmd.linkUp
    rw [decide_eq_true hc, Bool.true_and]
  · show (decide (2 ≤ cause) && s.dev.cmd.linkUp) = false
    rw [decide_eq_false (by omega), Bool.false_and]

end Sys2Proof.Machine
end

section
/-! Instructions of a die that does not issue (O8). -/

set_option Elab.async false

namespace Sys2Proof.Machine
open Sys2Proof.Safety

/-! ## Instructions of the Palms -/

/-- Each lane instruction is a step of its Palm with its own opcode. -/
theorem exec_laneOp {p : (PalmIssue → Instr) × PalmOp} (h : p ∈ laneOps) (i : PalmIssue) (s : State) :
    exec (p.1 i) s = palmStep i p.2 s := by
  unfold laneOps at h
  fin_cases h <;> rfl

/-- Each block instruction over V registers too. -/
theorem exec_blockOp {p : (PalmIssue → Instr) × PalmOp} (h : p ∈ blockOps) (i : PalmIssue) (s : State) :
    exec (p.1 i) s = palmStep i p.2 s := by
  unfold blockOps at h
  fin_cases h <;> rfl

/-- Every instruction of the Palms is such a step. -/
theorem exec_palmInstr {q : PalmIssue → Instr} (h : q ∈ palmInstrs) (i : PalmIssue) (s : State) : ∃ o, exec (q i) s = palmStep i o s := by
  rcases List.mem_append.1 h with h | h
  · obtain ⟨p, hp, rfl⟩ := List.mem_map.1 h
    rcases List.mem_append.1 hp with hp | hp
    · exact ⟨_, exec_laneOp hp i s⟩
    · exact ⟨_, exec_blockOp hp i s⟩
  · fin_cases h <;> exact ⟨_, rfl⟩

/-- A Palm whose die does not issue does nothing, but for a run that stops while the duty is above zero. -/
theorem palmStep_silent {s : State} {i : PalmIssue} (o : PalmOp) (hi : s.dev.issues i.die = false)
    (h : s.dev.duty i.die = 0 ∨ ∀ r, (s.dev.palm i.die).run = some r → r.stopping = false) : palmStep i o s = .next s := by
  rcases h with h | h
  · simp [palmStep, onDev, hi, h]
  · cases hr : (s.dev.palm i.die).run with
    | none => simp [palmStep, onDev, hi, hr]
    | some r => simp [palmStep, onDev, hi, hr, h r hr]

theorem issueOp_silent {s : State} {i : Issuer} (op : EngineOp) (hi : s.dev.issues i.die = false) : issueOp s i op = .next s :=
  issue_silent _ hi

/-- Settles O8: an instruction of a die that does not issue waits. -/
theorem silentDieDoesNothing : Obligations.SilentDieDoesNothing := by
  intro s d hi
  have own (e : Engine) (a : W64) (op : EngineOp) : issueOp s (byEngine d e a) op = .next s := issueOp_silent op hi
  have sent (i : Issuer) (h : i.die = d) (op : EngineOp) : issueOp s i op = .next s := issueOp_silent op (h ▸ hi)
  refine ⟨fun x => own x.engine x.iaddr (.mma x), fun x => ?_, fun i l t _ => own i.engine i.iaddr (.mdrain l t),
    fun l => issue_silent (fun v => v.dispatch d l.val) hi, fun x => own x.engine x.iaddr (.vcvt x),
    fun x => own x.engine x.iaddr (.vcvtB x), fun x => own x.engine x.iaddr (.vcvtU x),
    fun x p q => own x.engine x.iaddr (.vsplitF x p q), fun x p q => own x.engine x.iaddr (.vsplitI x p q),
    fun x => own x.engine x.iaddr (.vnarrowQ x), fun x y => own x.engine x.iaddr (.vmax x y),
    fun x y => own x.engine x.iaddr (.vmin x y), fun i x y h => sent i h (.streamAdd x y), fun x => own x.engine x.iaddr (.hpush x),
    fun x => own x.engine x.iaddr (.hpop x), fun i n h => sent i h (.gsolve n), fun i l h => ?_,
    fun i n t f h => sent i h (.runpack n t f),
    fun i h => ⟨own i.engine i.iaddr (.jend .done), own i.engine i.iaddr (.jend .release), sent i h .jstat⟩,
    fun i g h => sent i h (.mgopen g), fun i g k e x l m h => sent i h (.madd g k e x l m), fun i g k e h => sent i h (.mskip g k e),
    fun i f p x y z _ => own i.engine i.iaddr (.applyF f p x y z), issue_silent (fun v => v.palmStart d) hi, fun q hq i h hr => ?_⟩
  · show execMmaFx d x s = .next s
    unfold execMmaFx
    split
    · exact own x.engine x.iaddr (.mmaFx x)
    · exact issue_silent _ hi
  · exact issue_silent (fun v => v.prun i l.toNat) (h ▸ hi)
  · subst h
    obtain ⟨o, ho⟩ := exec_palmInstr hq i s
    rw [ho, palmStep_silent o hi hr]

end Sys2Proof.Machine
end

section
/-! What the wrappers of the commands answer. -/

set_option Elab.async false

namespace Sys2Proof.Machine
open Sys2Proof.Safety

/-! ## The wrappers of the commands, with what they answer named -/

/-- A device command of a running core logic answers what it makes of the device. -/
theorem onDev_into {s : State} {f : Device → Device} {v : Device} (hl : Live s) (h : f s.dev = v) : onDev s f = .next (into s v) :=
  (onDev_live f hl).trans (by rw [h])

/-- An instruction of a die that issues answers what it makes of the device. -/
theorem issue_into {s : State} {d : Die} {f : Device → Device} {v : Device} (hi : Issues s d) (h : f s.dev = v) :
    issue s d f = .next (into s v) :=
  (issue_live f hi.1 hi.2).trans (by rw [h])

/-- An instruction of an engine that waits at no PRUN answers what it makes of the device. -/
theorem issueOp_into {s : State} {i : Issuer} {op : EngineOp} {v : Device} (hf : FreeFor s i) (h : s.dev.perform i op = v) :
    issueOp s i op = .next (into s v) :=
  (issueOp_free op hf.1.1 hf.1.2 hf.2).trans (by rw [h])

/-- Work of lanes that go on answers what it makes of the device. -/
theorem onLanes_into {s : State} {d : Die} {f : Device → Device} {v : Device} (hd : Lanes s d) (h : f s.dev = v) :
    onLanes s d f = .next (into s v) :=
  (onLanes_live f hd.1 hd.2).trans (by rw [h])

/-- Answers that differ in the device alone tell their devices. -/
theorem next_into_inj {s : State} {v w : Device}
    (h : (.next (into s v) : Host.Outcome State Fault Refusal) = .next (into s w)) : v = w := congrArg State.dev (Host.Outcome.next.inj h)

namespace Device

@[simp] theorem mitt_onMitt_self (s : Device) (d : Die) (m : Nat) (f : Mitt → Mitt) : (s.onMitt d m f).mitt d m = f (s.mitt d m) := by
  simp only [mitt, onMitt, setMitt, die_onDie_self, Sparse.get_put_self]

end Device

end Sys2Proof.Machine
end

section
/-! Mitts: MMA, Gauntlet passes, dispatch and the ends of tiles (O9, O10, O11). -/

set_option Elab.async false

namespace Sys2Proof.Machine
open Sys2Proof.Safety

namespace Device

/-! ## MMA -/

/-- An MMA that nothing waiting goes before runs where its verdict lets it. -/
theorem mma_of_run {s v : Device} {d : Die} {x : Mma} (hj : ((s.mitt d x.lm.val).jobs.any fun j => goesBefore j (.mma x)) = false)
    (ho : s.outranked d x = false) (h : s.tryMma d x = some v) : s.mma d x = v := by
  simp only [mma, hj, ho, h, Bool.or_self, Bool.false_eq_true, if_false, Option.getD_some]

end Device

/-- Settles O9, by the verdict on the MMA. -/
theorem mmaCompletes : Obligations.MmaCompletes := by
  rintro s d x af bf hfree hj ho haf hbf hlegal hab hbad
  have run (v : Device) (h : s.dev.tryMma d x = some v) : exec (.mma d x) s = .next (into s v) :=
    issueOp_into (i := byEngine d x.engine x.iaddr) (op := .mma x) hfree (Device.mma_of_run hj ho h)
  constructor
  · intro hc hod hv
    refine run _ ?_
    simp [Device.tryMma, haf, hbf, hlegal, hc, hod, hv, hab, Device.accessing_good _ hbad]
  · intro hc hv
    refine run _ ?_
    simp [Device.tryMma, haf, hbf, hlegal, hc, hv, Device.accessing_good _ hbad]

/-! ## Gauntlet passes, MDRAIN and dispatch -/

/-- What is put into a list by its order is in it, and the rest of it stays. -/
theorem mem_insertBy {α : Type} {le : α → α → Bool} {x y : α} : ∀ {l : List α}, y ∈ insertBy le x l ↔ y = x ∨ y ∈ l
  | [] => by simp [insertBy]
  | z :: l => by
    rw [insertBy]
    split
    · simp
    · simp only [List.mem_cons, mem_insertBy (l := l)]
      tauto

/-- A sorted list has the members of the list. -/
theorem mem_sortBy {α : Type} {le : α → α → Bool} {y : α} : ∀ {l : List α}, y ∈ sortBy le l ↔ y ∈ l
  | [] => Iff.rfl
  | _ :: _ => mem_insertBy.trans ((or_congr_right mem_sortBy).trans List.mem_cons.symm)

/-- The first of a list, sorted by a measure, has the least. -/
theorem head_sortBy {α : Type} (f : α → Nat) : ∀ {l rest : List α} {z : α},
    sortBy (fun a b => decide (f a ≤ f b)) l = z :: rest → ∀ y ∈ l, f z ≤ f y
  | [], _, _, h => by cases h
  | x :: l, rest, z, h => by
    have h : insertBy (fun a b => decide (f a ≤ f b)) x (sortBy (fun a b => decide (f a ≤ f b)) l) = z :: rest := h
    intro w hw
    cases hs : sortBy (fun a b => decide (f a ≤ f b)) l with
    | nil =>
      rw [hs] at h
      have hl : w ∉ l := fun hw => by
        have := mem_sortBy (le := fun a b => decide (f a ≤ f b)).2 hw
        rw [hs] at this
        cases this
      cases h
      exact ((List.mem_cons.1 hw).resolve_right hl) ▸ Nat.le_refl _
    | cons y r =>
      have hmin := head_sortBy f hs
      rw [hs, insertBy] at h
      split at h
      case isTrue hle =>
        cases h
        have hxy : f x ≤ f y := of_decide_eq_true hle
        exact (List.mem_cons.1 hw).elim (fun e => e ▸ Nat.le_refl _) fun hw => hxy.trans (hmin w hw)
      case isFalse hle =>
        cases h
        have hxy : ¬ f x ≤ f z := of_decide_eq_false (Bool.eq_false_iff.2 hle)
        exact (List.mem_cons.1 hw).elim (fun e => by subst e; omega) (hmin w)

namespace Device

theorem openPass_good {s : Device} {d : Die} {x : MmaFx} {p : Nat}
    (h : s.bad (TDescOps.ranges x.a .i16 ++ TDescOps.ranges x.b .i16) = none) : s.openPass d x p = passPart d x s p :=
  accessing_good _ h

/-- A mitt that can take no waiting part of a Gauntlet pass looks at its tap tiles. -/
theorem dispatch_of_not_fxFirst {s : Device} {d : Die} {m : Nat} (h : s.fxFirst d m = false) : s.dispatch d m = s.dispatchTap d m := by
  cases hf : (s.mitt d m).fx with
  | nil => rw [dispatch, hf]
  | cons p rest =>
    have : fxFits (s.mitt d m) p.1 = false := by simpa [fxFirst, hf] using h
    simp [dispatch, hf, this]

/-- A mitt with no tap tile that can be placed looks at the program's work. -/
theorem dispatchTap_none {s : Device} {d : Die} {m : Nat} (h : tapNext (s.mitt d m) = none ∨ tapId (s.mitt d m) = none) :
    s.dispatchTap d m = s.dispatchJob d m := by
  unfold dispatchTap
  split
  case h_1 ht hid => rw [ht, hid] at h; simp at h
  case h_2 => rfl

/-- Of the waiting work that can go on, what goes on is one that none goes before. -/
theorem dispatchJob_ready {s : Device} {d : Die} {m : Nat} :
    (s.readyOn d m = [] → s.dispatchJob d m = s) ∧
    (s.readyOn d m ≠ [] → ∃ z ∈ s.readyOn d m, s.dispatchJob d m = z.2 ∧
      ∀ y ∈ s.readyOn d m, workRank s.frm.served z.1 ≤ workRank s.frm.served y.1) := by
  constructor
  · intro h
    rw [dispatchJob, h]
    rfl
  · intro h
    cases hs : sortBy (fun (a b : MittJob × Device) => decide (workRank s.frm.served a.1 ≤ workRank s.frm.served b.1)) (s.readyOn d m) with
    | nil =>
      obtain ⟨y, hy⟩ := List.exists_mem_of_ne_nil _ h
      exact absurd (hs ▸ mem_sortBy.2 hy) List.not_mem_nil
    | cons z rest =>
      refine ⟨z, mem_sortBy.1 (hs ▸ List.mem_cons_self (a := z)), ?_, head_sortBy (fun a : MittJob × Device => workRank s.frm.served a.1) hs⟩
      rw [dispatchJob, hs]

end Device

/-- Settles O10, by the branches of a dispatch, in the order in which a mitt tries them. -/
theorem tileCommandsComplete : Obligations.TileCommandsComplete := by
  intro s d hi
  have dispatched (lm : Lm) (v : Device) (h : s.dev.dispatch d lm.val = v) : exec (.tileDispatch d lm) s = .next (into s v) := by
    show execTileDispatch d lm s = _
    exact issue_into hi h
  refine ⟨fun x v hx hv => ?_, fun i lm id t hd hf hj hn ht hc hp => ?_, fun lm x p rest v hfx hfit hv hb => dispatched lm _ ?_,
    fun lm t id hfx ht hid => dispatched lm _ ?_, fun lm ready hfx htap hr => ?_⟩
  · have hby : x.byProgram = false := by
      simp only [Device.fxLegal, Bool.and_eq_true, Bool.not_eq_true'] at hx
      simp_all
    have run (w : Device) (h : s.dev.mmaFx d x = w) : exec (.mmaFx d x) s = .next (into s w) := by
      show execMmaFx d x s = _
      rw [execMmaFx, hby]
      exact issue_into hi h
    have all : s.dev.mmaFx d x = (List.range (x.ksplit.toNat + 1)).foldl (Device.passArrives d x) v := by
      rw [Device.mmaFx, hx, hv]
      rfl
    refine ⟨run _ all, fun hk hb => run _ ?_⟩
    rw [all, hk]
    subst hv
    simp only [Device.openPass_good hb, Device.passArrives, Device.mitt_onMitt_self, Nat.add_zero, List.foldl_cons, List.foldl_nil,
      show List.range ((0 : BitVec 6).toNat + 1) = [0] from rfl]
    rfl
  · subst hd
    refine issueOp_into (i := byEngine i.die i.pc.engine i.pc.iaddr) (op := .mdrain lm id) hf ?_
    show s.dev.mdrain i.die i.iaddr lm.val id.toNat = _
    simp [Device.mdrain, hj, Device.drainRequest, hn, ht, hc, hp]
  · subst hv
    simp [Device.dispatch, hfx, hfit, Device.openPass_good hb]
  · rw [Device.dispatch_of_not_fxFirst hfx, Device.dispatchTap, ht, hid]
  · subst hr
    have job : s.dev.dispatch d lm.val = s.dev.dispatchJob d lm.val :=
      (Device.dispatch_of_not_fxFirst hfx).trans (Device.dispatchTap_none htap)
    obtain ⟨none, some⟩ := Device.dispatchJob_ready (s := s.dev) (d := d) (m := lm.val)
    refine ⟨fun h => dispatched lm s.dev (job.trans (none h)), fun h => ?_⟩
    obtain ⟨z, hz, hv, hmin⟩ := some h
    exact ⟨z, hz, dispatched lm _ (job.trans hv), hmin⟩

/-! ## What ends with a tile -/

namespace Device

/-- Nothing is let in where no engine waits. -/
theorem letIn_of_held_nil {s : Device} {d : Die} (h : (s.palm d).held = []) : s.letIn d = s := by
  rw [letIn, h]
  split <;> rfl

end Device

/-- Settles O11: each event finds its branch. -/
theorem tileEventsComplete : Obligations.TileEventsComplete := by
  intro s d hl
  refine ⟨fun lm id rest t hq ht => ⟨fun f hp hd hf hb hh => ?_, fun x hp hc hh => ?_, fun x hp hh => ?_⟩,
    fun lm id part level a b ha hb h1 h2 h3 h4 h5 h6 h7 h8 h9 => ?_, fun lm hs he => ?_, fun hh free hfree => ?_⟩
  · show execTileDrain d lm s = _
    refine onDev_into hl ?_
    have : s.dev.tileDrain d lm.val = (s.dev.drainJob d lm.val t).freeSlot d lm.val id := by simp [Device.tileDrain, hq, ht, hp, hd]
    rw [Device.drainAndLetIn, this, Device.letIn_of_held_nil hh]
  · show execTileDrain d lm s = _
    refine onDev_into hl ?_
    have : s.dev.tileDrain d lm.val = (s.dev.drainPass d t x).freeSlot d lm.val id := by simp [Device.tileDrain, hq, ht, hp, hc]
    rw [Device.drainAndLetIn, this, Device.letIn_of_held_nil hh]
  · show execTapTileDrain d lm s = _
    refine onDev_into hl ?_
    simp [Device.tapDrain, hq, ht, hp, hh]
  · show execLongSplitCombine d lm id part level s = _
    refine onDev_into hl ?_
    have cond : 1 ≤ level ∧ part % 2 ^ level = 0 ∧ a.purpose = b.purpose ∧ a.parts = b.parts ∧ part + 2 ^ (level - 1) < a.parts ∧
        a.part = part ∧ b.part = part + 2 ^ (level - 1) ∧ a.level = Device.lastLevel part a.parts level ∧
        b.level = Device.lastLevel (part + 2 ^ (level - 1)) a.parts level := ⟨h1, h2, h3, h4, h5, h6, h7, h8, h9⟩
    simp only [Device.combine, ha, hb]
    rw [if_pos cond]
  · show execProfileSwitch d lm s = _
    refine onDev_into hl ?_
    simp [Device.profileSwitch, hs, he]
  · show execRowStoreHalfFree d s = _
    refine onDev_into hl ?_
    have : free = fun h => if h.state = .issuing ∧ h.left = 0 then {} else h := funext hfree
    subst this
    have held : ((s.dev.onCuff d fun c => { c with
        h0 := if c.h0.state = .issuing ∧ c.h0.left = 0 then {} else c.h0
        h1 := if c.h1.state = .issuing ∧ c.h1.left = 0 then {} else c.h1 }).cuff d).held = [] := by
      simpa [Device.cuff, Device.onCuff] using hh
    simp only [Device.halfFree, held]
    rfl

end Sys2Proof.Machine
end

section
/-! Vector engines (O14). -/

set_option Elab.async false

namespace Sys2Proof.Machine
open Sys2Proof.Safety

namespace Device

/-- A source at hand is read at once. -/
theorem reading_atHand {s : Device} {t : TDesc} (f : Device → Device) (h : AtHand s t) : s.reading t f = f s := by
  unfold reading
  cases ht : t.shard with
  | none => rfl
  | some e =>
    rcases h e ht with ⟨ho, hm⟩ | ⟨ho, hr⟩
    · simp [ho, hm]
    · simp [ho, hr]

end Device

/-- Settles O14: each instruction passes the checks of its own, and its ranges can be accessed. -/
theorem vectorInstructionsComplete : Obligations.VectorInstructionsComplete := by
  intro s d x sf df hfree hsf hdf hrnd hdest hrank
  have run {op : EngineOp} {v : Device} (h : s.dev.perform (byEngine d x.engine x.iaddr) op = v) :
      issueOp s (byEngine d x.engine x.iaddr) op = .next (into s v) := issueOp_into hfree h
  have num {n : Nat} (h : x.np = BitVec.ofNat 2 n) (hn : n < 4) : x.np.toNat = n := by
    rw [h, BitVec.toNat_ofNat, Nat.mod_eq_of_lt hn]
  refine ⟨fun ha hs hd hb => run ?_, fun ha hs hd hb => run ?_, fun ha hs hd hb => run ?_, fun p1 p2 hs hd hp hb => run ?_,
    fun p1 p2 hs hd hp hb => run ?_, fun hs hd hb => run ?_, fun y hsd hm hy hb => ⟨run ?_, run ?_⟩⟩
  · show s.dev.reading x.src (fun v => v.vcvt d x) = _
    simp only [Device.reading_atHand _ ha, Device.vcvt, hsf, hdf, hrnd, hs, hd, hdest, hrank, Bool.false_eq_true, not_true_eq_false, or_self, if_false,
      Device.accessing_good _ hb]
  · show s.dev.reading x.src (fun v => v.vcvtB d x) = _
    simp only [Device.reading_atHand _ ha, Device.vcvtB, hsf, hdf, hrnd, hs, hd, hdest, hrank, Bool.false_eq_true, not_true_eq_false, or_self, if_false,
      Device.accessing_good _ hb]
  · show s.dev.reading x.src (fun v => v.vcvtU d x) = _
    simp only [Device.reading_atHand _ ha, Device.vcvtU, hsf, hdf, hrnd, hs, hd, hdest, hrank, Bool.false_eq_true, not_true_eq_false, or_self, if_false,
      Device.accessing_good _ hb]
  · subst hs hd
    show s.dev.vsplitF d x p1 p2 = _
    simp only [Device.vsplitF, hsf, hdf, hp, ne_eq, not_true_eq_false, Bool.false_eq_true, or_self, if_false,
      Device.accessing_good _ hb, Device.convPieceF, List.map_map, Function.comp_def]
  · subst hd
    show s.dev.vsplitI d x p1 p2 = _
    rcases hs with ⟨rfl, h⟩ | ⟨rfl, h⟩
    all_goals
      have hn := num h (by decide)
      simp only [Device.vsplitI, hsf, hdf, hp, hn, ne_eq, not_true_eq_false, not_false_eq_true, false_and, and_false, Bool.false_eq_true,
        or_self, if_true, if_false, Option.getD_some, reduceCtorEq, Option.some.injEq, Device.accessing_good _ hb, List.map_map,
        Function.comp_def]
  · show s.dev.vnarrowQ d x = _
    have h1 : ¬ (sf ≠ .q2 ∧ sf ≠ .q8) := by tauto
    have h2 : ¬ (df ≠ .f48 ∧ df ≠ .i32) := by tauto
    simp only [Device.vnarrowQ, hsf, hdf]
    rw [if_neg (by simp only [h1, h2, hrnd, hdest, hrank, Bool.false_eq_true, not_true_eq_false, or_self, not_false_eq_true]),
      Device.accessing_good _ hb]
  · show s.dev.vmaxMin d x y Val.max2 = _
    subst hsd
    simp only [Device.vmaxMin, hsf, hdf, hrnd, hm, hdest, hrank, hy, ne_eq, Bool.false_eq_true, not_true_eq_false, or_self, if_false,
      Device.accessing_good _ hb]
  · show s.dev.vmaxMin d x y Val.min2 = _
    subst hsd
    simp only [Device.vmaxMin, hsf, hdf, hrnd, hm, hdest, hrank, hy, ne_eq, Bool.false_eq_true, not_true_eq_false, or_self, if_false,
      Device.accessing_good _ hb]

end Sys2Proof.Machine
end

section
/-! Body instructions of the Palms (O17, O18). -/

set_option Elab.async false

namespace Sys2Proof.Machine
open Sys2Proof.Safety

namespace Device

theorem palm_onPalm_self (s : Device) (d : Die) (f : Palms → Palms) : (s.onPalm d f).palm d = f (s.palm d) := by
  simp only [palm, onPalm, die_onDie_self]

/-- A change of a run is known by what it makes of the run. -/
theorem onRun_congr {s : Device} {d : Die} {q : PalmRun} {f g : PalmRun → PalmRun} (hq : (s.palm d).run = some q) (h : f q = g q) :
    s.onRun d f = s.onRun d g := by
  have hq : (s.die d).palm.run = some q := hq
  unfold onRun onPalm onDie
  simp only [hq, Option.map_some, h]

theorem settleStop_going {s : Device} {d : Die} {q : PalmRun} (hq : (s.palm d).run = some q) (h : q.stopping = false) :
    s.settleStop d = s := by
  simp [settleStop, hq, h]

theorem run_onRun {s : Device} {d : Die} {q : PalmRun} (f : PalmRun → PalmRun) (hq : (s.palm d).run = some q) :
    ((s.onRun d f).palm d).run = some (f q) := by
  simp [onRun, palm_onPalm_self, hq]

end Device

/-- What a body instruction does to the run where the device keeps the run. -/
theorem runChunk_eq {s : Device} {i : PalmIssue} {o : PalmOp} {r q : PalmRun} {c slot : Nat} {fresh : Bool} {z w : PalmSet} {v : Device}
    {acc : Sparse W32} (hb : s.bodyInstr (chunkOf i r c z) o i.x = (v, w, { r.units.get i.palm with acc := acc }))
    (hq : (v.palm i.die).run = some q) (hd : q.desc = r.desc) :
    s.runChunk i.die r i.palm c slot z fresh o i.x =
      v.onRun i.die (afterInstr i slot fresh z w { r.units.get i.palm with acc := acc }) := by
  unfold chunkOf at hb
  simp only [Device.runChunk, hb]
  refine Device.onRun_congr hq ?_
  simp only [afterInstr, hd]

theorem afterInstr_stopping (i : PalmIssue) (slot : Nat) (fresh : Bool) (z v : PalmSet) (u : PalmUnit) (q : PalmRun) :
    (afterInstr i slot fresh z v u q).stopping = q.stopping := by
  unfold afterInstr
  dsimp only
  split <;> split <;> rfl

/-- A Palm of a die that issues carries the instruction out. -/
theorem palmStep_issues {s : State} {i : PalmIssue} (o : PalmOp) (h : Issues s i.die) :
    palmStep i o s = .next (into s (s.dev.palmIssue i o)) :=
  onDev_into h.1 (by simp only [h.2, Bool.true_or, if_true])

/-- An instruction of a body whose device keeps the run going: the chunk and its place move on. -/
theorem palmStep_body {s : State} {i : PalmIssue} {o : PalmOp} {r q : PalmRun} {c slot : Nat} {fresh : Bool} {z w : PalmSet} {v : Device}
    {acc : Sparse W32} (h : PalmAt s i o r c slot fresh z)
    (hb : s.dev.bodyInstr (chunkOf i r c z) o i.x = (v, w, { r.units.get i.palm with acc := acc }))
    (hq : (v.palm i.die).run = some q) (hd : q.desc = r.desc) (hs : q.stopping = false) :
    palmStep i o s = .next (into s (v.onRun i.die (afterInstr i slot fresh z w { r.units.get i.palm with acc := acc }))) := by
  obtain ⟨hi, hrun, hgo, hplace, hchunk, hword, horder⟩ := h
  rw [palmStep_issues o hi]
  refine congrArg (fun v => Host.Outcome.next (into s v)) ?_
  simp only [Device.palmIssue, hrun, hplace]
  have ok : o ≠ .accs ∨ Device.accsInOrder (r.units.get i.palm) c z.pc = true := by
    by_cases ho : o = .accs
    · exact .inr (horder ho)
    · exact .inl ho
  cases fresh with
  | true =>
    obtain ⟨hf, hbegin⟩ := hchunk
    have hpc : z.pc = 0 := by
      unfold Device.beginChunk at hbegin
      dsimp only at hbegin
      split at hbegin
      · cases hbegin; rfl
      · cases hbegin
    rw [hpc] at ok hword
    simp only [hf, hbegin]
    rw [if_pos ⟨hword, ok⟩, runChunk_eq hb hq hd]
  | false =>
    have hf : Device.findChunk (r.units.get i.palm) c = some (slot, z) := hchunk
    simp only [hf]
    rw [if_pos ⟨hword, ok⟩, runChunk_eq hb hq hd]
    exact Device.settleStop_going (Device.run_onRun _ hq) ((afterInstr_stopping ..).trans hs)

/-- The same of one that leaves the device as it is. -/
theorem palmStep_set {s : State} {i : PalmIssue} {o : PalmOp} {r : PalmRun} {c slot : Nat} {fresh : Bool} {z w : PalmSet}
    (h : PalmAt s i o r c slot fresh z) (hb : s.dev.bodyInstr (chunkOf i r c z) o i.x = (s.dev, w, r.units.get i.palm)) :
    palmStep i o s = .next (into s (s.dev.onRun i.die (afterInstr i slot fresh z w (r.units.get i.palm)))) :=
  palmStep_body (acc := (r.units.get i.palm).acc) h hb h.run rfl h.going

@[simp] theorem palm_cvtFlags (s : Device) (d e : Die) (f : Fmt) (cs : List Conv) : (s.cvtFlags d f cs).palm e = s.palm e := by
  unfold Device.cvtFlags
  dsimp only
  split
  · split <;> split <;> rfl
  · rfl

/-- Settles O17: the lane of each instruction, and of CVTFI its flags. -/
theorem laneInstructionsComplete : Obligations.LaneInstructionsComplete := by
  intro q hq s i r c slot fresh z k v h hk hv
  subst hk
  rw [exec_laneOp hq]
  by_cases hc : q.2 = .cvtfi
  · rw [if_pos hc] at hv
    subst hv
    obtain ⟨p, o⟩ := q
    cases hc
    exact palmStep_body (acc := (r.units.get i.palm).acc) h rfl ((congrArg _ (palm_cvtFlags ..)).trans h.run) rfl h.going
  · rw [if_neg hc] at hv
    subst hv
    refine palmStep_set h ?_
    unfold laneOps at hq
    fin_cases hq <;> first | rfl | exact absurd rfl hc

/-- Settles O18: the result of each instruction, by the table of R204. -/
theorem chunkInstructionsComplete : Obligations.ChunkInstructionsComplete := by
  intro s i r c slot fresh z k u x hk hu hx
  subst hk hu hx
  dsimp only
  refine ⟨(palmStep_set · rfl), (palmStep_set · rfl), (palmStep_set · rfl), (palmStep_set · rfl), (palmStep_set · rfl),
    (palmStep_set · rfl), (palmStep_set · rfl), (palmStep_set · rfl), (palmStep_set · rfl), (palmStep_set · rfl), (palmStep_set · rfl),
    (palmStep_set · rfl), (palmStep_set · rfl), fun q hq h => ?_, (palmStep_set · rfl), fun h => palmStep_body h rfl h.run rfl h.going⟩
  rw [exec_blockOp hq]
  refine palmStep_set h ?_
  unfold blockOps at hq
  fin_cases hq <;> rfl

end Sys2Proof.Machine
end

section
/-! A store that a full error queue stops (O19). -/

set_option Elab.async false

namespace Sys2Proof.Machine
open Sys2Proof.Safety

/-- STW of the S register 0. -/
def keepStore : PalmArgs := { sa := true }

/-- A run with one weight, which keeps the old weight where the new one is NaN: the only word of its body stores S register 0, which is
NaN, and its only chunk is in flight. -/
def nanRun : PalmRun :=
  { desc := { keep := true, body := 1, rows := 1, cols := 1, ncols := 1 }, words := [(encodePalm .stw keepStore).toNat],
    units := (Quad.all {}).set 0 { s := [(0, 0x7FC00000)], sets := [(0, { chunk := some 0 })] } }

/-- That run on die 0 of a device whose queue holds 63 warnings, with the Palms' events enabled. -/
def fullNan : State :=
  { dev := { fullQueue with
    regs := RegFile.setFld {} R.PALM_CTL_EVENT 1
    dies := { q0 := { palm := { run := some nanRun } }, q1 := {}, q2 := {}, q3 := {} } } }

/-- The place of the store. -/
def fullNanIssue : PalmIssue := { place := .chunk 0, x := keepStore }

theorem fullNan_issues : Issues fullNan 0 := ⟨show fullNan.dev.halted = false by decide +kernel, by decide +kernel⟩

theorem fullNan_at : PalmAt fullNan fullNanIssue .stw nanRun 0 0 false { chunk := some 0 } where
  issues := fullNan_issues
  run := rfl
  going := rfl
  place := rfl
  chunk := rfl
  word := by decide +kernel
  order := by decide

/-- The device after the store, as O19 has it: the run has stopped on its Palm. -/
def fullNanStored : Device :=
  (fullNan.dev.storeWeights (chunkOf fullNanIssue nanRun 0 { chunk := some 0 }) keepStore).onRun 0
    (afterInstr fullNanIssue 0 false { chunk := some 0 } { chunk := some 0 } (nanRun.units.get 0))

theorem fullNanStored_run : (fullNanStored.palm 0).run.isSome = true := by decide +kernel

/-- The store's last chunk has ended when the run is found stopped: the run has left the Palm. -/
theorem fullNan_stw : ((fullNan.dev.palmIssue fullNanIssue .stw).palm 0).run.isSome = false := by decide +kernel

/-- Refutes O19: where the error queue is full, the event of a kept weight (R214) ends the job and stops the run (R371, R374), and the run
leaves the Palm with its last chunk, which this store ends (R212). -/
theorem not_palmStoresComplete : ¬ Obligations.PalmStoresComplete := by
  intro h
  obtain ⟨-, -, stw⟩ := h fullNan fullNanIssue nanRun 0 0 false { chunk := some 0 } _ rfl nofun
  have said : exec (.stw fullNanIssue) fullNan = .next (into fullNan fullNanStored) := stw fullNan_at
  have run : exec (.stw fullNanIssue) fullNan = .next (into fullNan (fullNan.dev.palmIssue fullNanIssue .stw)) := by
    exact palmStep_issues (i := fullNanIssue) .stw fullNan_issues
  rw [run] at said
  have same : fullNan.dev.palmIssue fullNanIssue .stw = fullNanStored := next_into_inj said
  have left := fullNan_stw
  rw [same, fullNanStored_run] at left
  cases left

end Sys2Proof.Machine
end

section
/-! The prologue and the epilogue of a Palm program (O20). -/

set_option Elab.async false

namespace Sys2Proof.Machine
open Sys2Proof.Safety

/-- A Palm behind an instruction of a scalar section: its next word. -/
def onward (i : PalmIssue) (u w : PalmUnit) : PalmUnit := if i.place = .prologue then { w with pc := u.pc + 1 } else { w with epc := u.epc + 1 }

/-- The next word of the section that the issue names, prologue or epilogue, is this instruction. -/
def nextScalar (r : PalmRun) (i : PalmIssue) (u : PalmUnit) (o : PalmOp) : Prop :=
  (i.place = .prologue ∧ r.instrAt .prologue u.pc = some (o, i.x)) ∨
    (i.place = .epilogue ∧ r.chunksDone = true ∧ r.combined = true ∧ r.instrAt .epilogue u.epc = some (o, i.x))

theorem palm_scalarFlags (s : Device) (d e : Die) (u : PalmUnit) (o : PalmOp) (x : PalmArgs) :
    (s.scalarFlags d u o x).palm e = s.palm e := by
  unfold Device.scalarFlags
  split
  · exact palm_cvtFlags ..
  · rfl

section
variable {s : State} {i : PalmIssue} {r : PalmRun} {u : PalmUnit} {o : PalmOp} (hi : Issues s i.die)
  (hrun : (s.dev.palm i.die).run = some r) (hgo : r.stopping = false) (hu : u = r.units.get i.palm)
include hi hrun hgo hu

/-- An instruction of the prologue or the epilogue: its registers, its flags, and the next word; STS of Palm 0's epilogue also hands over
its word. -/
theorem palmStep_scalar (h : nextScalar r i u o) :
    palmStep i o s = .next (into s ((s.dev.scalarFlags i.die u o i.x).onRun i.die fun _ => { r with
      units := r.units.set i.palm (onward i u (s.dev.scalarInstr i.die r u o i.x)),
      sts := if i.place = .epilogue ∧ o = .sts ∧ i.palm = 0 then Sparse.put 0 i.x.imm.toNat (Sparse.get 0 i.x.a.toNat u.s) r.sts else r.sts })) := by
  subst hu
  rw [palmStep_issues o hi]
  refine congrArg (fun v => Host.Outcome.next (into s v)) ?_
  have hrun' : ((s.dev.scalarFlags i.die (r.units.get i.palm) o i.x).palm i.die).run = some r := (congrArg _ (palm_scalarFlags ..)).trans hrun
  rcases h with ⟨hp, hw⟩ | ⟨hp, hd, hc, hw⟩
  · simp only [Device.palmIssue, hrun, hp, hw, hgo, Bool.false_eq_true, not_false_eq_true, and_self, if_true]
    refine Device.onRun_congr hrun' ?_
    simp [onward, hp, hgo]
  · simp only [Device.palmIssue, hrun, hp, hw, hgo, hd, hc, Bool.false_eq_true, not_false_eq_true, and_self, if_true]
    refine Device.onRun_congr hrun' ?_
    simp [onward, hp]

/-- The same of one that hands no word over. -/
theorem palmStep_scalar_reg {w : PalmUnit} {v : Device} (h : nextScalar r i u o) (ho : o ≠ .sts) (hv : s.dev.scalarFlags i.die u o i.x = v)
    (hw : s.dev.scalarInstr i.die r u o i.x = w) :
    palmStep i o s = .next (into s (v.onRun i.die fun _ => { r with units := r.units.set i.palm (onward i u w) })) := by
  rw [palmStep_scalar hi hrun hgo hu h, hv, hw]
  simp only [ho, false_and, and_false, if_false]

end

/-- Settles O20: each instruction with its registers. -/
theorem scalarInstructionsComplete : Obligations.ScalarInstructionsComplete := by
  intro s i r u hi hrun hgo hu
  dsimp only
  refine ⟨fun h => palmStep_scalar_reg hi hrun hgo hu h nofun rfl rfl, fun h => palmStep_scalar_reg hi hrun hgo hu h nofun rfl rfl,
    fun h => palmStep_scalar_reg hi hrun hgo hu h nofun rfl rfl, fun q hq h => ?_, fun h hp => ?_⟩
  · rw [exec_laneOp hq]
    refine palmStep_scalar_reg (w := { u with s := Sparse.put 0 i.x.d.toNat (lane q.2 i.x.m 0
      (if q.2 = .mov ∧ i.x.a = 63 ∧ ¬ i.x.sa then i.x.imm ++ (0 : BitVec 16) else Sparse.get 0 i.x.a.toNat u.s)
      (Sparse.get 0 i.x.b.toNat u.s) (Sparse.get 0 i.x.c.toNat u.s)) u.s }) hi hrun hgo hu h ?_ rfl ?_
    · unfold laneOps at hq
      fin_cases hq <;> nofun
    · unfold laneOps at hq
      fin_cases hq <;> rfl
  · have := palmStep_scalar hi hrun hgo hu h
    simp only [hp, onward, true_and, if_false, reduceCtorEq] at this
    exact this

end Sys2Proof.Machine
end

section
/-! Runs of the Palms, and RUNPACK (O21). -/

set_option Elab.async false

namespace Sys2Proof.Machine
open Sys2Proof.Safety

@[simp] theorem Quad.set_set {α : Type} (q : Quad α) (i : Fin 4) (x y : α) : (q.set i x).set i y = q.set i y := by
  fin_cases i <;> rfl

namespace Device

theorem onDie_onDie (s : Device) (d : Die) (f g : DieState → DieState) : (s.onDie d f).onDie d g = s.onDie d fun x => g (f x) := by
  simp only [onDie, setDie, die, Quad.get_set_self, Quad.set_set]

theorem onPalm_onPalm (s : Device) (d : Die) (f g : Palms → Palms) : (s.onPalm d f).onPalm d g = s.onPalm d fun p => g (f p) :=
  onDie_onDie ..

/-- A change of the Palms of a die is known by what it makes of them. -/
theorem onPalm_congr {s : Device} {d : Die} {f g : Palms → Palms} (h : f (s.palm d) = g (s.palm d)) : s.onPalm d f = s.onPalm d g := by
  unfold onPalm onDie
  exact congrArg (fun p => s.setDie d { s.die d with palm := p }) h

/-- A change of the Palms touches no operand, no descriptor and no mitt, so that fences stay as they are. -/
theorem fenceClear_onPalm (s : Device) (d e : Die) (f : Palms → Palms) (g : Engine) (l : Nat) :
    (s.onPalm d f).fenceClear e g l = s.fenceClear e g l := by
  have mitts : ((s.onPalm d f).die e).mitts = (s.die e).mitts := by
    by_cases h : e = d
    · subst h
      simp only [onPalm, die_onDie_self]
    · simp only [onPalm, die_onDie_ne s _ h]
  unfold fenceClear
  rw [mitts]
  rfl

/-- What waits alone and can go on is let in where the die issues. -/
theorem letIn_single {s : Device} {d : Die} {h : HeldIssue} (hi : s.issues d = true) (hh : (s.palm d).held = [h])
    (hr : s.heldReady d h = true) :
    s.letIn d = (s.onPalm d fun p => { p with held := p.held.eraseIdx 0 }).perform h.by_ h.op := by
  rw [letIn, if_pos hi, hh]
  simp [admitRuns, hh, hr]

/-- A PRUN of a layer that has not run in the step enters the queue where nothing waits, its fence is clear and there is room. -/
theorem prun_enters {s : Device} {i : Issuer} {l : Nat} (hi : s.issues i.die = true) (hs : l ∉ (s.palm i.die).seen)
    (hh : (s.palm i.die).held = []) (hq : (s.palm i.die).queue.length < 64) (hf : s.fenceClear i.die i.engine l = true) :
    s.prun i l = (s.onPalm i.die fun p =>
      { p with seen := p.seen ++ [l], held := [], queue := p.queue ++ [l] }).starvation i.die l := by
  have hseen : ¬ (s.palm i.die).seen.any (· == l) = true := by
    rw [List.any_eq_true]
    rintro ⟨x, hx, e⟩
    exact hs (eq_of_beq e ▸ hx)
  let held (p : Palms) : Palms := { p with seen := p.seen ++ [l], held := p.held ++ [⟨i, .prun l⟩] }
  have waits : ((s.onPalm i.die held).palm i.die).held = [⟨i, .prun l⟩] := by rw [palm_onPalm_self]; simp [held, hh]
  have ready : (s.onPalm i.die held).heldReady i.die ⟨i, .prun l⟩ = true := by
    simp only [heldReady, fenceClear_onPalm, palm_onPalm_self]
    exact Bool.and_eq_true_iff.2 ⟨hf, decide_eq_true hq⟩
  rw [prun, if_neg hseen, issueBehind, onPalm_onPalm, letIn_single (s := s.onPalm i.die held) hi waits ready]
  show ((s.onPalm i.die held).onPalm i.die _).appendRun i.die l = _
  rw [onPalm_onPalm, appendRun, onPalm_onPalm]
  exact congrArg (starvation · i.die l) (onPalm_congr (by simp [held, hh]))

theorem applyUnit_idle {s : Device} {g : Nat} {d : Die} {u : Nat} (h : s.unitPends g d u = false) : s.applyUnit g d u = s := by
  rw [applyUnit, h]
  rfl

theorem any_shard_eq_false {o : Option Nat} {l : List Nat} (h : ∀ e, o = some e → e ∉ l) : l.any (fun e => o == some e) = false := by
  rw [List.any_eq_false]
  intro e he ho
  exact h e (eq_of_beq ho) he

/-- The run in front starts where nothing keeps it. -/
theorem palmStart_starts {s v : Device} {d : Die} {l : Nat} {rest : List Nat} {r : PalmRun} (hrun : (s.palm d).run = none)
    (hh : (s.palm d).held = []) (hq : (s.palm d).queue = l :: rest) (hp : s.unitPends 5 d 0 = false)
    (hen : s.flag (R.PALM_CTL_EN.die d) = true)
    (he : ∀ e, s.ownedShard l d = some e → e ∉ s.fab.exportDue ∧ e ∉ s.fab.copyDue ∧ e ∉ s.fab.copied)
    (hr : r = { layer := l, step := s.frm.step, desc := s.updateDesc d l,
                words := (List.range ((s.updateDesc d l).pro + (s.updateDesc d l).body + (s.updateDesc d l).epi)).map
                  fun i => s.near ((s.updateDesc d l).prog + 8 * i) 8,
                units := (s.palm d).regs.map fun z => { sets := z } })
    (hfr : s.frozenRun d r = false) (hacc : r.accepted = true) (hbad : s.bad (runRanges d (s.updateDesc d l)) = none)
    (hv : v = s.onPalm d (fun p => { p with queue := rest, run := some r, cur := l })) :
    s.palmStart d = (match s.ownedShard l d with
      | some e => v.breakPins e s.frm.step
      | none => v) := by
  subst hv
  have first : (if (s.palm d).run.isNone then s.applyUnit 5 d 0 else s) = s := by rw [applyUnit_idle hp, ite_self]
  have due : s.fab.exportDue.any (fun e => s.ownedShard l d == some e) = false := any_shard_eq_false fun e h => (he e h).1
  have copies : (s.fab.copyDue ++ s.fab.copied).any (fun e => s.ownedShard l d == some e) = false :=
    any_shard_eq_false fun e h => by simp [(he e h).2.1, (he e h).2.2]
  have again : (s.onPalm d fun p => { p with queue := rest }).letIn d = s.onPalm d fun p => { p with queue := rest } :=
    letIn_of_held_nil (by rw [palm_onPalm_self]; exact hh)
  unfold palmStart
  dsimp only
  rw [first, letIn_of_held_nil hh, hrun, hq]
  dsimp only
  rw [if_neg (by rw [hen, due]; decide), again, ← hr]
  rw [if_neg (by rw [show (s.onPalm d fun p => { p with queue := rest }).fab = s.fab from rfl, copies]; nofun),
    if_neg (by rw [show (s.onPalm d fun p => { p with queue := rest }).frozenRun d r = s.frozenRun d r from rfl, hfr]; nofun),
    if_neg (by rw [hacc]; exact not_not_intro rfl), accessing_good _ (show (s.onPalm d fun p => { p with queue := rest }).bad _ = none from hbad)]
  simp only [onPalm_onPalm]
  rfl

end Device

/-- Settles O21: each part finds its branch. -/
theorem palmRunsComplete : Obligations.PalmRunsComplete := by
  intro s d hl
  refine ⟨fun e a l hi hs hh hq hf => ?_, fun l rest r v hi hrun hh hq hp hen he hr hfr hacc hbad hv => ?_,
    fun r v hrun hover hgo hv => ?_, fun g a i t form f v code hfree hrank hbad hf hnone hsome => ?_⟩
  · show execPrun ⟨d, e, a⟩ l s = _
    exact issue_into ⟨hl, hi⟩ (Device.prun_enters (i := ⟨d, e, a⟩) hi hs hh hq hf)
  · show execPalmRunStart d s = _
    refine issue_into ⟨hl, hi⟩ (Device.palmStart_starts hrun hh hq hp hen he hr hfr hacc hbad hv)
  · show execPalmRunComplete d s = _
    refine onDev_into hl ?_
    subst hv
    simp only [Device.palmEnd, hrun, hover, hgo]
    rfl
  · refine issueOp_into (i := ⟨d, g, a⟩) (op := .runpack i t form) hfree ?_
    show s.dev.runpack d a i.toNat t form.toNat = _
    subst hf
    have zero : (form.toNat = 0) = (form = 0) :=
      propext ⟨fun h => BitVec.eq_of_toNat_eq h, fun h => h ▸ rfl⟩
    rw [Device.runpack, if_neg (by rw [hrank]; exact not_not_intro rfl), Device.accessing_good _ hbad]
    cases hin : s.dev.inForce (s.dev.solveDesc d i.toNat) with
    | none =>
      obtain ⟨rfl, rfl⟩ := hnone hin
      simp only [hin, zero]
      rfl
    | some c =>
      obtain ⟨rfl, rfl⟩ := hsome c hin
      simp only [hin, zero]
      rfl

end Sys2Proof.Machine
end

section
/-! Instructions of the memory-side adders (O24). -/

set_option Elab.async false

namespace Sys2Proof.Machine
open Sys2Proof.Safety

namespace Device

/-- A group that opens is the one its descriptor describes. -/
theorem group_of_openGroup {s v : Device} {d : Die} {gid : Nat} {o : Option Nat} {t : W32} (h : s.openGroup d gid o t = (v, true)) :
    ∃ g, v.group? d gid = some g ∧ g.lines = s.near (s.groupDesc d gid) 4 ∧ g.n = s.near (s.groupDesc d gid + 4) 2 ∧
      g.dest = s.near (s.groupDesc d gid + 8) 8 ∧ g.keys = [] ∧ g.ordered = !(s.near (s.groupDesc d gid + 6) 1).testBit 0 := by
  unfold openGroup at h
  extract_lets a lines n mode dest rec_ ordered staged need ranges s1 s2 g at h
  split at h
  · cases congrArg Prod.snd h
  split at h
  · cases congrArg Prod.snd h
  case isFalse hno =>
  split at h
  · cases congrArg Prod.snd h
  have hv : (s2.onAdders d fun x => { x with groups := x.groups ++ [g] }) = v := congrArg Prod.fst h
  have absent : s.group? d gid = none := by
    simpa using fun hs => hno (.inl hs)
  have adders : s2.adders d = s.adders d := by
    unfold s2
    split <;> rfl
  refine ⟨g, ?_, rfl, rfl, rfl, rfl, rfl⟩
  subst hv
  unfold group? at absent ⊢
  simp only [Device.adders, onAdders, die_onDie_self] at adders absent ⊢
  rw [adders, List.find?_append, absent]
  simp [g]

/-- The first contribution of a key to another owner's sum, with its END. -/
theorem maddFar_first {s : Device} {e key l : Nat} {src : TDesc} (hp : s.peerDead (s.entryOwner e) = false)
    (hs : (s.fab.sums.any fun y => y.entry == e && y.key == key && y.step == s.frm.step) = false) :
    s.maddFar e key s.fab.epoch src l true = (s.onFab fun f => { f with sums := f.sums ++ [{
        entry := e, key := key, step := s.frm.step, epoch := s.fab.epoch,
        lines := (s.sourceLines src).zipIdx.map fun y => (l + y.2, y.1), ended := !s.tapsPending e, endDue := s.tapsPending e }] }).send
      (.contribution (s.entryOwner e) e key s.fab.epoch ((s.sourceLines src).zipIdx.map fun y => (l + y.2, y.1)) (!s.tapsPending e)) := by
  have none : ∀ y ∈ s.fab.sums, ¬ (y.entry == e && y.key == key && y.step == s.frm.step) = true := List.any_eq_false.1 hs
  have found : (s.fab.sums.find? fun y => y.entry == e && y.key == key && y.step == s.frm.step) = Option.none := List.find?_eq_none.2 none
  have kept : (s.fab.sums.filter fun y => !(y.entry == e && y.key == key && y.step == s.frm.step)) = s.fab.sums :=
    List.filter_eq_self.2 fun y hy => by rw [Bool.eq_false_iff.2 (none y hy)]; rfl
  unfold maddFar
  dsimp only
  rw [if_neg (by rw [hp]; nofun), if_neg (not_not_intro rfl), found]
  simp only [Option.getD_none, Bool.true_and, Bool.false_or, List.nil_append, Bool.false_eq_true, if_false]
  rw [show (s.onFab fun f => { f with sums := (f.sums.filter fun y => !(y.entry == e && y.key == key && y.step == s.frm.step)) ++ [_] }) = _
    from congrArg (fun l => s.onFab fun f => { f with sums := l ++ [_] }) kept]
  rfl

end Device

/-- Settles O24: each instruction finds its branch. -/
theorem adderInstructionsComplete : Obligations.AdderInstructionsComplete := by
  intro s d
  refine ⟨fun i gid v hd hf ho => ?_, fun i gid key epoch g hd hf hg he hk hu => ?_,
    fun i gid key epoch src l e v hd hf hr hb hv => ?_, fun i gid key src l z x ls w hd hf hw hr hb ho hp hs hls hx => ?_,
    fun op a ws f mask z v hl ha hw hb hbf hz hv => ?_⟩
  · subst hd
    exact ⟨issueOp_into (op := .mgopen gid) hf (congrArg Prod.fst ho), Device.group_of_openGroup ho⟩
  · subst hd
    refine issueOp_into (op := .mskip gid key epoch) hf ?_
    show s.dev.skip i.die gid.toNat key.toNat epoch = _
    simp only [Device.skip, hg, he, hu, ne_eq, not_true_eq_false, if_false]
    rw [if_neg (by omega)]
  · subst hd hv
    refine issueOp_into (op := .madd { gid } key epoch src l e) hf ?_
    show s.dev.maddAny i.die i.iaddr gid.toNat key.toNat epoch src l e none = _
    rw [Device.maddAny, if_neg (by rw [hr]; exact not_not_intro rfl), Device.accessing_good _ hb]
    rfl
  · subst hd
    refine issueOp_into (op := .madd ⟨gid, some z⟩ key s.dev.fab.epoch src l true) hf ?_
    show s.dev.maddAny i.die i.iaddr gid.toNat key.toNat s.dev.fab.epoch src l true (some z) = _
    rw [Device.maddAny, if_neg (by rw [hr]; exact not_not_intro rfl), Device.accessing_good _ hb]
    simp only [ho, if_false]
    subst hw hls hx
    exact Device.maddFar_first hp hs
  · show execMemorySideAdd op a ws f mask s = _
    refine onDev_into hl ?_
    subst hz hv
    rw [Device.integerAdd, if_neg (by omega), Device.accessing_good _ hb]
    have bad : (s.dev.setMemory .near (addElems op s.dev.mem.near a ws).1).bad = s.dev.bad := Device.bad_congr rfl rfl
    dsimp only
    split
    · rw [Device.accessing_good _ (by rw [bad]; exact hbf)]
    · rfl

end Sys2Proof.Machine
end

section
/-! Arrivals, ENDs and applied keys (O25). -/

set_option Elab.async false

namespace Sys2Proof.Machine
open Sys2Proof.Safety

namespace Device

/-- An arrival of a key with nothing held goes on at once. -/
theorem arrive_now {s : Device} {d : Die} {h : HeldLine} (hh : s.isHeld d h.gid h.key = false) : s.arrive d h = s.arriveNow d h := by
  rw [arrive, hh]
  rfl

/-- The first line of a contribution counts where its group is not ordered. -/
theorem countFirst {s v : Device} {g : Group} {k : GKey} {c : Nat}
    (hc : c = s.fld R.GLB_NDET_CNT_LO_VALUE + s.fld R.GLB_NDET_CNT_HI_VALUE * 2 ^ 32)
    (hv : v = (if g.ordered = true ∨ k.seen ≠ [] then s
      else if g.demoted = true then s.count R.GLB_NDET_DEMOTED_VALUE 1
      else ((if c = 0 then s.setFld R.GLB_NDET_FIRST_VALUE s.stepNo.toNat else s).setFld R.GLB_NDET_CNT_LO_VALUE
        ((c + 1) % 2 ^ 32)).setFld R.GLB_NDET_CNT_HI_VALUE ((c + 1) / 2 ^ 32 % 2 ^ 32))) :
    (if k.seen = [] then s.countUnordered g else s) = v := by
  subst hc hv
  by_cases hk : k.seen = []
  · simp only [hk, if_true, ne_eq, not_true_eq_false, or_false, countUnordered]
  · simp only [hk, if_false, ne_eq, not_false_eq_true, or_true, if_true]

section
variable {s : Device} {d : Die} {gid : Nat} {g : Group} {key n : Nat} {epoch : Byte} {ws : List W32} {k : GKey}
  (hg : s.group? d gid = some g) (he : g.epoch = epoch) (hk : key < g.n) (hkey : k = g.key key) (hu : k.state = .unresolved)
include hg he hk hkey hu

/-- A new line of an unresolved key that needs no room, or finds it. -/
theorem lineArrives_new {v : Device} (hn : n < g.lines) (hseen : n ∉ k.seen) (hroom : g.stages = true → s.admits d gid key = true)
    (hv : (if k.seen = [] then s.countUnordered g else s) = v) :
    s.lineArrives d { gid, key, epoch, item := some (.line n ws) } (.line n ws) =
      if g.stages then v.accessing (adderUnit d) [(.near, v.stageAddr d (v.freePlace d), 256)] fun u =>
        (u.writeBytes .near (u.stageAddr d (v.freePlace d)) (lineBytes ws)).onGroup d gid fun g =>
          g.setKey key { k with seen := k.seen ++ [n], staged := k.staged ++ [(n, v.freePlace d)] }
      else (v.onGroup d gid fun g => g.setKey key { k with seen := k.seen ++ [n] }).addLines d gid [(n, ws)] := by
  subst he hkey hv
  have seen : ¬ (n ≥ g.lines ∨ (g.key key).seen.any (· == n) = true) := by
    rw [List.any_eq_true]
    rintro (h | ⟨x, hx, e⟩)
    · omega
    · exact hseen (eq_of_beq e ▸ hx)
  have room : ¬ (g.stages = true ∧ ¬ s.admits d gid key = true) := fun h => h.2 (hroom h.1)
  simp only [lineArrives, hg, hu, ne_eq, not_true_eq_false, if_false]
  rw [if_neg (by omega), if_neg seen, if_neg room]

/-- An END of a key of this device's own groups, complete and without tap rows. -/
theorem endArrives_complete (hl : g.lines ≤ k.seen.length) (ht : k.taps = []) (hs : g.shard = none) :
    s.endArrives d { gid, key, epoch } = ((s.onGroup d gid fun g' =>
      g'.setKey key { k with state := if g.stages then .ended else .applied }).completeIf d gid) := by
  subst he hkey
  have kept (st : KeyState) : { g.key key with state := st, taps := [] } = ({ g.key key with state := st } : GKey) := by rw [← ht]
  simp only [endArrives, hg, hu, ne_eq, not_true_eq_false, if_false]
  rw [if_neg (by omega), if_neg (by omega), if_neg (by simp [tapWaits, ht]), ht, List.foldl_nil]
  simp only [ackTaps, hs, Option.isSome_none, Bool.false_eq_true, false_and, if_false, kept]

end

end Device

/-- Settles O25: each event finds its branch. -/
theorem adderEventsComplete : Obligations.AdderEventsComplete := by
  intro s d gid g hl hg
  refine ⟨fun key epoch n c ws k v hh he hk hkey hu hn hseen hc hv => ?_, fun key epoch k hh he hk hkey hu hlen ht hs => ?_,
    fun h rest v hh hv hlen => ?_, fun ha hs => ?_, fun k ha => ?_⟩
  · have line (w : Device) (hw : s.dev.lineArrives d { gid := gid.toNat, key := key.toNat, epoch, item := some (.line n ws) } (.line n ws) = w) :
        exec (.lineArrival d gid key epoch (.line n ws)) s = .next (into s w) := by
      show execLineArrival d gid key epoch (.line n ws) s = _
      exact onDev_into hl ((Device.arrive_now hh).trans hw)
    have new := Device.lineArrives_new (ws := ws) (v := v) hg he hk hkey hu hn hseen
    refine ⟨fun p hst hadm hp hb => line _ ?_, fun ho hd => line _ ?_⟩
    · have stages : g.stages = true := by simpa [Group.stages] using hst
      subst hp
      rw [new (fun _ => hadm) (Device.countFirst hc hv), if_pos stages, Device.accessing_good _ hb]
    · have stages : ¬ g.stages = true := by simp [Group.stages, ho, hd]
      rw [new (fun h => absurd h stages) (Device.countFirst hc hv), if_neg stages]
  · show execEndMarker d gid key epoch s = _
    exact onDev_into hl ((Device.arrive_now hh).trans (Device.endArrives_complete hg he hk hkey hu hlen ht hs))
  · show execStagingRetry d s = _
    refine onDev_into hl ?_
    subst hv
    have first : s.dev.retryAt d 0 = some ((s.dev.onAdders d fun x => { x with held := rest }).arriveNow d h) := by
      simp only [Device.retryAt, hh, List.getElem?_cons_zero, List.take_zero, List.any_nil, Bool.false_eq_true, if_false,
        List.eraseIdx_zero, List.tail_cons, List.length_cons]
      exact if_pos (by omega)
    simp [Device.stagingRetry, hh, List.range_succ_eq_map, first]
  · show execKeyApply d gid s = _
    refine onDev_into hl ?_
    simp [Device.keyApply, hg, ha, hs]
  · show execKeyApplied d gid s = _
    refine onDev_into hl ?_
    simp [Device.keyApplied, hg, ha]

end Sys2Proof.Machine
end

section
/-! Hatbox, residual stream, element-wise functions and folds (O28, O30). -/

set_option Elab.async false

namespace Sys2Proof.Machine
open Sys2Proof.Safety

namespace Device

/-- A push onto the newest segment of its micro-batch, which has room. -/
theorem pushSegment_newest {s : Device} {d : Die} {k : Nat} {x : HPush} {data : List Byte} {flags : Device → Device} {r : HbxRegion}
    {g : HbxSeg} {z : HbxRec} (hr : r = s.region d k) (hg : r.segs.getLast? = some g) (hmb : g.mb = x.mb) (hne : g.recs ≠ [])
    (hroom : r.roomAt (s.ringBytes d k) g.top (recordBytes data.length) = true)
    (hz : z = { layer := x.layer, kind := x.kind, mb := x.mb, place := .region, off := g.top, len := data.length }) :
    s.pushSegment d k x data flags = s.writeRecord d k x z (prevOff (some g)) data fun v =>
      flags ((v.setRegion d k { r with
        segs := r.segs.dropLast ++ [{ g with top := g.top + recordBytes data.length, ext := g.top + recordBytes data.length,
                                             recs := z :: g.recs }] }).raiseHwm d k) := by
  subst hr hz
  have newest : ((s.region d k).segs.getLast?.filter fun g => g.mb == x.mb && g.recs != []) = some g := by
    simp [hg, hmb, hne]
  simp only [pushSegment, newest, hroom, if_true]
  rfl

end Device

/-- Settles O28: each instruction passes its checks, and its ranges can be accessed. -/
theorem activationInstructionsComplete : Obligations.ActivationInstructionsComplete := by
  intro s d
  refine ⟨fun x sf df data cs g r z hf hsize hsf hdf hkind hrank hpark hr hdata hb hbr hg hmb hne hop hroom hz => ?_,
    fun g a out stream w hf ho hs hd hr hb hw => ?_, fun i n p src dst side sf df zs ys w hd hf hn hrnd hsf hdf hdest hrs hrside hb hzs hys hw => ?_⟩
  · refine issueOp_into (i := byEngine d x.engine x.iaddr) (op := .hpush x) hf ?_
    show s.dev.hpush d x = _
    have hop' : (s.dev.region d x.stage.val).opened.dropLast.contains x.mb = false := hr ▸ hop
    have hkind' : ¬ x.kind.toNat > 4 := by omega
    simp only [Device.hpush, hsize, hsf, hdf, hkind', hrank, hpark, hop', hdata, not_true_eq_false, or_self, Bool.false_eq_true, if_false,
      Device.accessing_good _ hb]
    exact Device.pushSegment_newest hr hg hmb hne hroom hz
  · refine issueOp_into (i := ⟨d, g, a⟩) (op := .streamAdd out stream) hf ?_
    show s.dev.streamAdd d a out stream = _
    subst hw
    have legal : ¬ (Fmt.ofCode out.fmt ≠ some .fp32 ∨ Fmt.ofCode stream.fmt ≠ some .fp32 ∨ s.dev.badDest stream .fp32 ∨
        ¬ TDescOps.rankOk out) := by simp only [ho, hs, hd, hr, ne_eq, not_true_eq_false, Bool.false_eq_true, or_self, not_false_eq_true]
    exact (if_neg legal).trans (Device.accessing_good _ hb)
  · subst hd
    refine issueOp_into (i := byEngine i.die i.engine i.iaddr) (op := .applyF n p src dst side) hf ?_
    show s.dev.applyF i.die i.iaddr n.toNat p src dst side = _
    subst hw hys hzs
    have hn' : ¬ n.toNat > 8 := by omega
    simp only [Device.applyF, hsf, hdf, hn', hrnd, hdest, hrs, hrside, not_true_eq_false, Bool.false_eq_true, or_self, if_false,
      Device.accessing_good _ hb]

/-- Settles O30: the fold in front begins or ends. -/
theorem foldsComplete : Obligations.FoldsComplete := by
  intro s d f rest hl hfolds
  refine ⟨fun hr he => ?_, fun hr => ?_⟩
  · show execFold d s = _
    refine onDev_into hl ?_
    simp [Device.foldBegin, hfolds, hr, he]
  · show execFoldComplete d s = _
    refine onDev_into hl ?_
    simp [Device.foldEnd, hfolds, hr]

end Sys2Proof.Machine
end

section
/-! Solves (O31). -/

set_option Elab.async false

namespace Sys2Proof.Machine
open Sys2Proof.Safety

namespace Device

/-- A solve that REPLAY finds a record for, or that needs none, has it looked up. -/
theorem lookUp_matched {s : Device} {d : Die} {v : Solve} (h : ¬ (s.replaying d = true ∧ s.replayEntry d v.index = none)) :
    s.lookUp d v = (s, { v with replay := if s.replaying d then s.replayEntry d v.index else none }) := by
  unfold lookUp
  dsimp only
  rw [if_neg fun hn => h ⟨hn.1, by simpa [hn.1] using hn.2⟩]

/-- One without a record under REPLAY does not match. -/
theorem lookUp_unmatched {s : Device} {d : Die} {v : Solve} (h : s.replaying d = true ∧ s.replayEntry d v.index = none) :
    s.lookUp d v = (s.replayMismatch d v.index, { v with replay := none }) := by
  simp [lookUp, h.1, h.2]

section
variable {s : Device} {d : Die} {i : Nat} {st : W32} {x : SDesc} (hen : s.flag (R.GNT_CTL_EN.die d) = true) (hb : (s.gnt d).brim = none)
  (hq : nextFresh (s.gnt d).queue = some (i, st)) (hx : x = s.solveDesc d i) (hp : s.foldPending d x = false)
  (hm : s.foldMoves x = false) (hf : s.matrixFits d x = true)
include hen hb hq hx hp hm hf

/-- The first fresh solve, which the Brim can take, is looked up and assembled. -/
theorem assemblyStart_fresh {u : Device} {v : Solve}
    (hl : s.lookUp d { index := i, step := st, desc := x, asm := s.assembly d x st.toNat } = (u, v)) :
    s.assemblyStart d = if (u.gnt d).queue = [] then u
      else match recordedStop v with
        | some o => if o = outSuspended then u.onGnt d fun g => { g with queue := g.queue.erase (.fresh i st), brim := some v }
          else (u.onGnt d fun g => { g with queue := g.queue.erase (.fresh i st), brim := some v }).endSolve d v o (-1)
        | none => u.onGnt d fun g => { g with queue := g.queue.erase (.fresh i st), brim := some v } := by
  subst hx
  simp only [assemblyStart, hen, hb, hq, hp, hm, hf, hl, not_true_eq_false, Bool.false_eq_true, or_self, if_false]
    <;> rfl

end

/-- An item of the queue, the first fresh one, leaves it not empty. -/
theorem queue_ne_nil_of_nextFresh {q : List QItem} {z : Nat × W32} (h : nextFresh q = some z) : q ≠ [] := by
  rintro rfl
  cases h

end Device

/-- Settles O31: each command finds its branch. -/
theorem solveCommandsComplete : Obligations.SolveCommandsComplete := by
  intro s d hl hen
  dsimp only
  refine ⟨fun b i hd hf hi hfr hbusy => ?_, fun i st x hb hq hx hp hm hfit => ⟨fun v w hun hv hw => ?_, fun hun hq0 => ?_⟩,
    fun v hb hph hr ho hi => ?_, fun hd hrun => ⟨fun v w rest hq hun hw => ?_, fun v hq hb hph => ?_⟩,
    fun v hd hrun => ⟨fun hph hdone => ?_, fun hph hdone => ?_, fun hph hr ho hi hso hsi => ?_⟩⟩
  · subst hd
    refine issueOp_into (op := .gsolve i) hf ?_
    show s.dev.gsolve b.die i.toNat = _
    have hi' : i.toNat ≠ 65535 := fun h => hi (BitVec.eq_of_toNat_eq h)
    have en (f : Gnt → Gnt) : (s.dev.onGnt b.die f).flag (R.GNT_CTL_EN.die b.die) = true := hen
    simp only [Device.gsolve, hi', Device.queueSolve, hfr, hbusy, Bool.false_eq_true, if_false, Device.purgeQueue, en, if_true]
  · show execAssemblyStart d s = _
    refine onDev_into hl ?_
    subst hv hw
    rw [Device.assemblyStart_fresh hen hb hq hx hp hm hfit (Device.lookUp_matched hun), if_neg (Device.queue_ne_nil_of_nextFresh hq)]
      <;> rfl
  · show execAssemblyStart d s = _
    refine onDev_into hl ?_
    rw [Device.assemblyStart_fresh hen hb hq hx hp hm hfit (Device.lookUp_unmatched hun), if_pos hq0]
  · show execAssemblyComplete d s = _
    refine onDev_into hl ?_
    simp [Device.assemblyComplete, hb, hph, hr, ho, hi]
  · show execSolveStart d s = _
    refine onLanes_into ⟨hl, hd⟩ ?_
    subst hw
    simp only [Device.solveStart, hrun, hq, Device.lookUp_matched (v := { v with resumes := v.resumes + 1 }) hun]
    rfl
  · show execSolveStart d s = _
    refine onLanes_into ⟨hl, hd⟩ ?_
    cases hqueue : (s.dev.gnt d).queue with
    | nil => simp [Device.solveStart, hrun, hb, hqueue, hph]
    | cons q rest =>
      cases q with
      | fresh i st => simp [Device.solveStart, hrun, hb, hqueue, hph]
      | held w => exact absurd hqueue (hq w rest)
  · show execPanelComplete d s = _
    refine onLanes_into ⟨hl, hd⟩ ?_
    simp [Device.panelComplete, hdone, hrun, hph]
  · show execIterationComplete d s = _
    refine onLanes_into ⟨hl, hd⟩ ?_
    simp [Device.iterationComplete, hdone, hrun, hph]
  · show execFinalTestComplete d s = _
    refine onLanes_into ⟨hl, hd⟩ ?_
    by_cases hpass : v.passes (v.finalRho s.dev.drawKey).1 = true <;> simp [Device.finalTest, hrun, hph, hr, ho, hi, hso, hsi, hpass]

end Sys2Proof.Machine
end

section
/-! Sources of a tick (O33). -/

set_option Elab.async false

namespace Sys2Proof.Machine
open Sys2Proof.Safety

namespace Device

section
variable {s : Device} {c : Nat} {spaced : Bool} {done : ProgDone} (hst : s.frm.started = true)
include hst

/-- An external tick while the device does not run on its timer: taken, or too early. -/
theorem externalTick_source (ht : s.frm.onTimer = false) :
    s.externalTick c spaced done = if (spaced ∨ s.frm.afresh) ∧ 10 * c < 9 * s.period then s.event R.FRM_STAT_PHASE_ERR
      else (s.onFrm fun f => { f with afresh := false }).tick done := by
  simp only [externalTick, hst, ht, not_true_eq_false, Bool.false_eq_true, if_false]

/-- On the timer, one before the timer's own tick replaces it. -/
theorem externalTick_before (ht : s.frm.onTimer = true) (hs : s.frm.stay = false) (h1 : 9 * s.period ≤ 10 * c)
    (h2 : 10 * c ≤ 11 * s.period) (h3 : s.period < 10 * c) :
    s.externalTick c spaced done = (s.onFrm fun f => { f with onTimer := false }).tick done := by
  simp [externalTick, hst, ht, hs, h1, h2, show ¬ 10 * c ≤ s.period by omega]

/-- One just behind it moves the tick's time. -/
theorem externalTick_after (ht : s.frm.onTimer = true) (hs : s.frm.stay = false) (h : 10 * c ≤ s.period) (hr : s.frm.replaceable = true) :
    s.externalTick c spaced done = s.onFrm fun f => { f with onTimer := false, replaceable := false, since := 0 } := by
  simp [externalTick, hst, ht, hs, h, hr]

/-- One outside the windows is a phase error. -/
theorem externalTick_outside (ht : s.frm.onTimer = true) (h : 10 * c < 9 * s.period ∨ 11 * s.period < 10 * c)
    (hr : s.period < 10 * c ∨ s.frm.replaceable = false) :
    s.externalTick c spaced done = (s.event R.FRM_STAT_PHASE_ERR).onFrm fun f => { f with stay := true } := by
  have before : (decide (10 * c ≥ 9 * s.period) && decide (10 * c ≤ 11 * s.period)) = false := by
    rw [Bool.and_eq_false_iff, decide_eq_false_iff_not, decide_eq_false_iff_not]
    omega
  have after : (decide (10 * c ≤ s.period) && s.frm.replaceable) = false := by
    rw [Bool.and_eq_false_iff, decide_eq_false_iff_not]
    exact hr.imp (by omega) id
  simp [externalTick, hst, ht, before, after]

/-- One inside them is not taken where the device stays on its timer. -/
theorem externalTick_stays (ht : s.frm.onTimer = true) (hs : s.frm.stay = true)
    (h : 9 * s.period ≤ 10 * c ∧ 10 * c ≤ 11 * s.period ∨ 10 * c ≤ s.period ∧ s.frm.replaceable = true) :
    s.externalTick c spaced done = s := by
  rcases h with ⟨h1, h2⟩ | ⟨h1, h2⟩
  · simp [externalTick, hst, ht, hs, h1, h2]
  · simp [externalTick, hst, ht, hs, h1, h2]

end

end Device

/-- A tick of the fabric's master is an external tick at the time since the last one. -/
theorem exec_fabricTick {s : State} {done : ProgDone} (hl : Live s) (hsrc : s.dev.fld R.FRM_CTL_SRC = 2) (he : s.dev.external = true) :
    exec (.fabricTick done) s = .next (into s (s.dev.externalTick (100 * s.dev.frm.since) false done)) := by
  show execFabricTick done s = _
  refine onDev_into hl ?_
  rw [Device.fabricTick, if_pos ⟨hsrc, he⟩, Nat.mul_comm]

/-- An edge on TICK_IN is one where SRC names it, at the time of the edge. -/
theorem exec_tickInEdge {s : State} {c : Nat} {done : ProgDone} (hl : Live s) (hh : s.tap.holds = false) (hsrc : s.dev.fld R.FRM_CTL_SRC = 1) :
    exec (.tickInEdge c done) s = .next (into s (s.dev.externalTick c true done)) := by
  show execTickInEdge c done s = _
  refine onDev_into hl ?_
  rw [hh, Device.tickIn, if_pos hsrc]
  rfl

/-- Settles O33, by the windows of an external tick. -/
theorem ticksComplete : Obligations.TicksComplete := by
  intro s done hl
  dsimp only
  refine ⟨fun hst => ⟨fun h => ?_, fun he ht => ?_, fun hsrc he ht ha => ?_, fun hsrc he => ⟨fun ht ha hc => ?_, fun ht => ?_⟩,
    fun c hh hsrc => ⟨fun ht hc => ?_, fun ht hc => ?_, fun ht => ?_⟩, fun v he ht hlate hv => ?_⟩, ?_⟩
  · show execFrameTick done s = _
    refine onDev_into hl ?_
    have : ¬ (s.dev.external = true ∧ s.dev.frm.onTimer = true) := by
      rintro ⟨h1, h2⟩
      rcases h with h | h <;> simp_all
    simp [Device.frameTick, hst, this]
  · show execFrameTick done s = _
    refine onDev_into hl ?_
    simp [Device.frameTick, hst, he, ht, Device.inPlace]
  · rw [exec_fabricTick hl hsrc he, Device.externalTick_source hst ht, if_neg]
    rintro ⟨hsp, hc⟩
    rcases ha with ha | ha
    · simp [ha] at hsp
    · omega
  · rw [exec_fabricTick hl hsrc he, Device.externalTick_source hst ht, if_pos ⟨.inr ha, by omega⟩]
  · rw [exec_fabricTick hl hsrc he]
    exact ⟨fun hs h1 h2 h3 => by rw [Device.externalTick_before hst ht hs h1 h2 h3], fun hs h hr => by rw [Device.externalTick_after hst ht hs h hr],
      fun h hr => by rw [Device.externalTick_outside hst ht h hr], fun hs h => by rw [Device.externalTick_stays hst ht hs h]⟩
  · rw [exec_tickInEdge hl hh hsrc, Device.externalTick_source hst ht, if_neg (by omega)]
  · rw [exec_tickInEdge hl hh hsrc, Device.externalTick_source hst ht, if_pos ⟨.inl rfl, hc⟩]
  · rw [exec_tickInEdge hl hh hsrc]
    exact ⟨fun hs h1 h2 h3 => by rw [Device.externalTick_before hst ht hs h1 h2 h3], fun hs h hr => by rw [Device.externalTick_after hst ht hs h hr],
      fun h hr => by rw [Device.externalTick_outside hst ht h hr], fun hs h => by rw [Device.externalTick_stays hst ht hs h]⟩
  · show execTickLost done s = _
    refine onDev_into hl ?_
    subst hv
    simp [Device.tickLost, hst, he, ht, Device.inPlace, show ¬ 4 * s.dev.frm.since < 5 * s.dev.fld R.FRM_CTL_PERIOD_US by omega]
  · show execTickOutLow s = _
    exact onDev_into hl rfl

end Sys2Proof.Machine
end

section
/-! JEND, JSTAT and the checks of the Visor (O35). -/

set_option Elab.async false

namespace Sys2Proof.Machine
open Sys2Proof.Safety

/-- Two integers have no difference just where they are one. -/
theorem isZero_ofInt_sub (a b : Int) : ((Val.ofInt a 0).add (Val.ofInt b 0).neg).isZero = decide (a = b) := by
  have ua : (Val.fin (decide (a < 0)) a.natAbs 0).units 0 = a := Val.units_ofInt a
  have ub : (Val.fin (!decide (b < 0)) b.natAbs 0).units 0 = -b := by
    simp only [Val.units, Int.sub_self, Int.toNat_zero, Nat.pow_zero, Nat.mul_one, Bool.not_eq_true', decide_eq_false_iff_not]
    split <;> omega
  simp only [Val.ofInt, Val.neg, Val.add, Int.min_self, ua, ub]
  by_cases h : a = b
  · subst h
    simp [Val.isZero]
  · obtain ⟨n, hn⟩ : ∃ n, (a + -b).natAbs = n + 1 := ⟨(a + -b).natAbs - 1, by omega⟩
    rw [if_neg (by omega), hn, decide_eq_false h]
    rfl

/-- Settles O35: each instruction and the check find their branch. -/
theorem programCommandsComplete : Obligations.ProgramCommandsComplete := by
  intro s hl
  refine ⟨fun i hf => ⟨fun j hd hj hn => ?_, fun hd => ?_, ?_⟩, fun d c rest v a hc hv ha hb => ?_, fun tol c w y hk => ⟨?_, fun ho => ?_, fun n hn ho => ?_⟩⟩
  · have job (k : JendCode) : s.dev.jend i.die i.iaddr k = s.dev.onCmd fun c => { c with job := some { j with jend := some k } } := by
      simp only [Device.jend, hd, ne_eq, not_true_eq_false, if_false, Device.onJob, Device.onCmd, hj, Option.map_some, hn, Option.isSome_none,
        Bool.false_eq_true]
    exact ⟨issueOp_into (i := i) (op := .jend .done) hf (job .done), issueOp_into (i := i) (op := .jend .release) hf (job .release)⟩
  · have illegal (k : JendCode) : s.dev.jend i.die i.iaddr k = s.dev.postIllegal (vecUnit i.die) i.iaddr := if_pos hd
    exact ⟨issueOp_into (i := i) (op := .jend .done) hf (illegal .done), issueOp_into (i := i) (op := .jend .release) hf (illegal .release)⟩
  · show execJstat i s = _
    exact issueOp_into hf rfl
  · show execVisorCheckComplete d s = _
    refine onDev_into hl ?_
    subst hv ha
    simp only [Device.visorCheck, hc, Device.bumpRecord, Device.recording_good _ hb]
    rfl
  · rw [Device.checkElem, if_pos hk]
    split <;> rfl
  · rw [Device.checkElem, if_pos hk, if_pos ho]
  · rw [Device.checkElem, if_pos hk, if_neg (by simp [ho]), hn, isZero_ofInt_sub]
    simp

end Sys2Proof.Machine
end

section
/-! Ports (O36). -/

set_option Elab.async false

namespace Sys2Proof.Machine
open Sys2Proof.Safety

namespace Device

/-- A port that is up goes down: its messages move, its link is announced as down, and the device may be isolated by it. -/
theorem portDown_up {s v w : Device} {p : Nat} {q : PortSt} {x : LinkEnds} {ws : Waits} (hq : q = s.port p) (hu : q.up = true)
    (hx : x = s.portLink p) (hv : v = (s.setPort p { partner := q.partner, partnerPort := q.partnerPort, inbuf := q.inbuf }).mapLink x false)
    (hw : w = (q.out.foldl reroute v).pump.send (.linkDown x)) :
    s.portDown' p ws = (if w.portsUp = [] then w.post 0x0405 2 fabUnit (BitVec.ofNat 64 p) else w).declareLost [x.partner.val] ws := by
  subst hq hx hv
  unfold portDown'
  extract_lets q x s1 s2 s3 s4
  have e : s3 = w := hw.symm
  clear_value s3
  subst e
  exact if_neg (not_not_intro hu)

/-- A good flit in sequence is taken. -/
theorem receive_good {s : Device} {p : Nat} {x : Flit} {q : PortSt} {left : List TxFlit} (hq : q = s.port p) (hu : q.up = true)
    (hc : x.crcGood = true) (hs : x.seq = q.rxSeq) (hroom : (q.inbuf.filter fun f => f.vc == x.vc).length < 64)
    (hl : left = (q.buf.filter fun f => (x.ack - f.seq).toNat ≥ 2 ^ 15)) :
    s.receive p x = (s.setPort p { q with
      buf := left, replayRun := if left.length < q.buf.length then 0 else q.replayRun, rxSeq := q.rxSeq + 1, inbuf := q.inbuf ++ [x],
      credits := q.credits.set x.creditVc.val (min 64 (q.credits.getD x.creditVc.val 0 + 4 * x.credits.toNat)) }).pump := by
  subst hq hl
  have hroom' : ¬ ((s.port p).inbuf.filter fun f => f.vc == x.vc).length ≥ 64 := by omega
  simp only [receive, hu, hc, hs, hroom', not_true_eq_false, ne_eq, or_self, if_false]

/-- A replay of a port with flits to send counts, and the eighth in a row takes it down. -/
theorem replay_counts {s v : Device} {p : Nat} {q : PortSt} {ws : Waits} (hq : q = s.port p) (hu : q.up = true) (hb : q.buf ≠ [])
    (hv : v = (s.eventCount (R.FAB_PORT_STAT_REPLAYS.nth p)).setPort p { q with replayRun := q.replayRun + 1 }) :
    s.replay p ws = if q.replayRun + 1 ≥ 8 then v.portDown' p ws else v := by
  subst hq hv
  simp only [replay, hu, hb, not_true_eq_false, or_self, if_false]

/-- A heartbeat over a port that is up, of a peer that is not gone. -/
theorem beat_heard {s v w : Device} {p : Nat} {x : Beat} (hu : (s.port p).up = true) (hd : s.peerDead x.peer.val = false)
    (hv : v = ((s.setPeer x.peer.val 0x10 8 s.frm.count.toNat).setPeer x.peer.val 0x1C 2 x.links.toNat).onFab (fun f =>
      { f with links := f.links.filter fun l => !((l.from_.val == x.peer.val && !x.links.getLsbD l.port.val) ||
        (l.partner.val == x.peer.val && !x.links.getLsbD l.partnerPort.val)) }))
    (hw : w = (if (v.port p).partner = x.peer.val then
      v.setPort p { v.port p with delay := linkDelay x, lastTx := x.t3, lastRx := x.t4 } else v)) :
    s.beat p x = w.setRoutes := by
  subst hw hv
  simp only [beat, heard, hu, hd, not_true_eq_false, Bool.false_eq_true, or_self, if_false]

end Device

/-- Settles O36: each event of a port finds its branch. -/
theorem portCommandsComplete : Obligations.PortCommandsComplete := by
  intro s p hl
  refine ⟨fun lanes peer o v hu hh hb hlanes hv => ?_, fun q x v w ws hq hu hx hv hw => ⟨fun hp => ⟨?_, ?_⟩, fun u hp hpost => ⟨?_, ?_⟩⟩,
    fun x q left hq hu hc hs hroom hl' => ?_, fun q v ws hq hu hb hv => ⟨fun hn => ?_, fun hn => ?_⟩, ?_, fun x v w hu hd hv hw => ?_⟩
  · show execPortUp p lanes ⟨peer, o⟩ s = _
    refine onDev_into hl ?_
    subst hv
    have lanes' : lanes.toNat = 1 ∨ lanes.toNat = 2 ∨ lanes.toNat = 4 := by
      rcases hlanes with rfl | rfl | rfl <;> simp
    simp only [Device.portTrained, hu, hh, hb, lanes', Bool.false_eq_true, not_true_eq_false, or_self, if_false]
  · show execPortLaneFail ⟨p, ws⟩ s = _
    exact onDev_into hl ((Device.portDown_up hq hu hx hv hw).trans (by rw [if_neg hp]))
  · show execLinkSilent ⟨p, ws⟩ s = _
    exact onDev_into hl ((Device.portDown_up hq hu hx hv hw).trans (by rw [if_neg hp]))
  · show execPortLaneFail ⟨p, ws⟩ s = _
    exact onDev_into hl ((Device.portDown_up hq hu hx hv hw).trans (by rw [if_pos hp, hpost]))
  · show execLinkSilent ⟨p, ws⟩ s = _
    exact onDev_into hl ((Device.portDown_up hq hu hx hv hw).trans (by rw [if_pos hp, hpost]))
  · show execFlit p x s = _
    exact onDev_into hl (Device.receive_good hq hu hc hs hroom hl')
  · show execFlitReplay ⟨p, ws⟩ s = _
    exact onDev_into hl ((Device.replay_counts hq hu hb hv).trans (if_neg (by omega)))
  · show execFlitReplay ⟨p, ws⟩ s = _
    exact onDev_into hl ((Device.replay_counts hq hu hb hv).trans (if_pos (by omega)))
  · show execHeartbeatSend s = _
    exact onDev_into hl rfl
  · show execHeartbeat p x s = _
    exact onDev_into hl (Device.beat_heard hu hd hv hw)

end Sys2Proof.Machine
end

section
/-! The TAP and the I3C target (O51, O50). -/

set_option Elab.async false

namespace Sys2Proof.Machine
open Sys2Proof.Safety

/-! ## The TAP -/

/-- A test opcode. -/
theorem State.testOpcode_of {op : Byte} (h : 0x80 ≤ op.toNat) (hn : op ≠ 0xFF) : State.testOpcode op = true := by
  simp only [State.testOpcode, h, decide_true, bne_iff_ne, Bool.true_and]
  exact hn

/-- A small opcode of no instruction acts as BYPASS. -/
theorem State.bypass_of_unlisted {t : State} {op : Byte} (h : op.toNat < 0x80) (hn : op.toNat ∉ [0x00, 0x01, 0x02, 0x04, 0x08]) :
    t.actsAsBypass op = true := by
  have hne : ∀ b : Byte, b.toNat ∈ [0x00, 0x01, 0x02, 0x04, 0x08] → (op == b) = false := fun b hb =>
    beq_eq_false_iff_ne.2 fun e => hn (e ▸ hb)
  simp only [State.actsAsBypass, State.testOpcode, hne _ (by decide : (0x00 : Byte).toNat ∈ _), hne _ (by decide : (0x01 : Byte).toNat ∈ _),
    hne _ (by decide : (0x02 : Byte).toNat ∈ _), hne _ (by decide : (0x04 : Byte).toNat ∈ _), hne _ (by decide : (0x08 : Byte).toNat ∈ _),
    decide_eq_false (Nat.not_le.2 h), Bool.or_false, Bool.false_and, Bool.not_false, Bool.and_true]

/-- A test opcode acts as BYPASS where debug is not permitted. -/
theorem State.bypass_of_no_debug {t : State} {op : Byte} (h : 0x80 ≤ op.toNat) (hd : t.nv.debug = false) : t.actsAsBypass op = true := by
  have hne : ∀ b : Byte, b.toNat < 0x80 → (op == b) = false := fun b hb => beq_eq_false_iff_ne.2 fun e => by subst e; omega
  simp only [State.actsAsBypass, hne _ (by decide : (0x00 : Byte).toNat < _), hne _ (by decide : (0x01 : Byte).toNat < _),
    hne _ (by decide : (0x02 : Byte).toNat < _), hne _ (by decide : (0x04 : Byte).toNat < _), hne _ (by decide : (0x08 : Byte).toNat < _),
    hd, Bool.or_false, Bool.and_false, Bool.not_false, Bool.and_true]

/-- A test opcode leaves the I3C target its bus. -/
theorem Tap.holds_test {t : Tap} (h : 0x80 ≤ t.ir.toNat) : t.holds = false := by
  have hne : ∀ b : Byte, b.toNat < 0x80 → (t.ir == b) = false := fun b hb => beq_eq_false_iff_ne.2 fun e => by rw [e] at h; omega
  simp only [Tap.holds, hne _ (by decide : (0x00 : Byte).toNat < _), hne _ (by decide : (0x04 : Byte).toNat < _),
    hne _ (by decide : (0x08 : Byte).toNat < _), Bool.or_false]

/-- Settles O51: each command of the TAP, unfolded to the state it leaves. -/
theorem tapCommandsComplete : Obligations.TapCommandsComplete := by
  intro s hv held now cells scan
  have run : ∀ {f : State → State} {v : State}, (f s).busHeld = v → onTap s f = .next v := fun h => by rw [onTap_live _ hv, h]
  refine ⟨?_, fun b => ?_, ?_, ?_, ?_, ?_, ?_, fun op h hn => ?_, fun op h hn => ⟨fun hd => ?_, fun hd => ⟨?_, ?_⟩⟩, fun b hb => ?_⟩
  · show execExtest s = _
    exact run rfl
  · show execSamplePreload b s = _
    exact run rfl
  · show execIdcode s = _
    exact run rfl
  · show execTestLogicReset s = _
    exact run rfl
  · show execClamp s = _
    exact run rfl
  · show execHighz s = _
    exact run rfl
  · show execBypass 0xFF s = _
    exact run rfl
  · show execBypass op s = _
    exact run (by rw [if_pos (State.bypass_of_unlisted h hn)]; rfl)
  · show execLumovTestInstruction op s = _
    refine run ?_
    have hb : (({ s.tap with ir := op, captured := 0, irCaptured := 0x01 } : Tap)).holds = false := Tap.holds_test h
    rw [State.testInstruction, if_neg (not_not_intro (State.testOpcode_of h hn)), if_pos hd, ← hb]
    rfl
  · show execLumovTestInstruction op s = _
    refine run ?_
    rw [State.testInstruction, if_neg (not_not_intro (State.testOpcode_of h hn)), if_neg (by rw [hd]; nofun)]
    rfl
  · show execBypass op s = _
    exact run (by rw [if_pos (State.bypass_of_no_debug h hd)]; rfl)
  · show execBoundaryRegisterUpdate b s = _
    exact run (by rw [State.updateBoundary, if_pos hb]; rfl)

/-! ## The I3C target -/

/-- Settles O50: each access and each common command code, unfolded. -/
theorem i3cCommandsComplete : Obligations.I3cCommandsComplete := by
  intro s ⟨hr, hb, ht⟩ moves sets acked
  have run : ∀ {f : State → State} {v : State}, f s = v → onI3c s f = .next v := fun h => by rw [onI3c_live _ hr hb ht, h]
  have ccc : ∀ {f : State → State} {v : State}, f (s.onI3c fun i => { i with nack := false }) = v → onCcc s f = .next v := fun h => run h
  refine ⟨fun ix => ?_, fun v => ⟨?_, ?_, fun ix hix => ?_⟩, fun h => ?_, fun h => ?_, fun h => ?_,
    fun a => ⟨fun h => ⟨?_, ?_⟩, fun h => ?_⟩, ?_, ?_, ?_, ?_, ?_, ?_, ?_, fun n => ⟨?_, ?_⟩,
    fun e => ⟨fun h => ⟨?_, ?_⟩, fun h => ⟨?_, ?_⟩⟩, fun x => ?_⟩
  · show execI3cPrivateWrite ix none s = _
    exact run rfl
  · show execI3cPrivateWrite 0 (some v) s = _
    exact run rfl
  · show execI3cPrivateWrite 1 (some v) s = _
    exact run rfl
  · show execI3cPrivateWrite ix (some v) s = _
    refine run ?_
    dsimp only
    split
    · omega
    · omega
    · rfl
  · show execI3cPrivateRead s = _
    exact run (by rw [h]; rfl)
  · show execI3cPrivateRead s = _
    exact run (by rw [h]; rfl)
  · show execI3cPrivateRead s = _
    refine run ?_
    rw [h]
    show s.complete (BitVec.ofNat 64 (b2n s.dev.i3c.err)) = _
    cases s.dev.i3c.err <;> rfl
  · show execEntdaa a s = _
    refine ccc ?_
    have e : s.dev.i3c.dyn.getD a = a := by rw [h]; rfl
    show sets (fun i => { i with dyn := some (s.dev.i3c.dyn.getD a) }) = _
    rw [e]
  · show execSetdasa 0x4C a s = _
    refine ccc ?_
    have e : s.dev.i3c.dyn.getD a = a := by rw [h]; rfl
    show sets (fun i => { i with dyn := some (s.dev.i3c.dyn.getD a) }) = _
    rw [e]
  · show execSetnewda a s = _
    refine ccc ?_
    obtain ⟨b, hd⟩ := Option.ne_none_iff_exists'.1 h
    have e : (s.dev.i3c.dyn.map fun _ => a) = some a := by rw [hd]; rfl
    show sets (fun i => { i with dyn := s.dev.i3c.dyn.map fun _ => a }) = _
    rw [e]
  · show execRstdaa s = _
    exact ccc rfl
  · show execGetpid s = _
    exact ccc rfl
  · show execGetbcr s = _
    exact ccc rfl
  · show execGetdcr s = _
    exact ccc rfl
  · show execGetstatus s = _
    exact ccc rfl
  · show execGetmwl s = _
    exact ccc rfl
  · show execGetmrl s = _
    exact ccc rfl
  · show execSetmwl n s = _
    exact ccc rfl
  · show execSetmrl n s = _
    exact ccc rfl
  · show execEnec e s = _
    exact ccc (by rw [h]; simp only [Bool.or_true]; rfl)
  · show execDisec e s = _
    exact ccc (by rw [h]; simp only [Bool.not_true, Bool.and_false]; rfl)
  · show execEnec e s = _
    exact ccc (by rw [h]; simp only [Bool.or_false]; rfl)
  · show execDisec e s = _
    exact ccc (by rw [h]; simp only [Bool.not_false, Bool.and_true]; rfl)
  · show execRstact x s = _
    exact ccc rfl

end Sys2Proof.Machine
end

section
/-! The duty in force (O55). -/

set_option Elab.async false

namespace Sys2Proof.Machine
open Sys2Proof.Safety

/-! ## A written field reads back -/

namespace RegFile

/-- A field reads back the low bits of what was written to it. -/
theorem fld_setFld_self (r : RegFile) (f : Fld) (x : Nat) (hw : 0 < f.w) (hf : f.lo + f.w ≤ 32) : (r.setFld f x).fld f = x % 2 ^ f.w := by
  have hl : (r.setFld f x).liveAt f.off = ⟨BitVec.ofNat 32 (insertBits (r.liveAt f.off).val.toNat f.lo f.w x), _⟩ := Sparse.get_put_self
  have hn : f.lo + f.w - 1 + 1 - f.lo = f.w := by omega
  rw [fld, hl, bitsOf, hn, BitVec.toNat_ofNat]
  refine Nat.eq_of_testBit_eq fun k => ?_
  rw [Nat.testBit_mod_two_pow, Nat.testBit_mod_two_pow, Nat.testBit_div_two_pow, Nat.testBit_mod_two_pow, testBit_insertBits _ _ _ _ _ hw]
  rcases Nat.lt_or_ge k f.w with hk | hk
  · rw [decide_eq_true hk, decide_eq_true (by omega), if_pos (by omega), Nat.add_sub_cancel, Bool.true_and, Bool.true_and]
  · rw [decide_eq_false (Nat.not_lt.2 hk), Bool.false_and, Bool.false_and]

end RegFile

/-! ## The duty in force -/

namespace Device

/-- The count of one die's throttled microseconds. -/
def countDie (s : Device) (d : Die) : Device := if s.duty d < 256 then s.count (R.PWR_THR_US_VALUE.nth d.val) 1 else s

theorem duty_countDie (s : Device) (d e : Die) : (s.countDie e).duty d = s.duty d := by
  unfold countDie
  split <;> rfl

theorem fld_countDie_ne (s : Device) {d e : Die} (h : d ≠ e) :
    (s.countDie e).fld (R.PWR_THR_US_VALUE.nth d.val) = s.fld (R.PWR_THR_US_VALUE.nth d.val) := by
  unfold countDie
  split
  · refine RegFile.fld_setFld_ne _ _ _ _ fun hf => h (Fin.ext ?_)
    simp only [Fld.nth, R.PWR_THR_US_VALUE] at hf
    omega
  · rfl

theorem fld_countDie_self (s : Device) (d : Die) : (s.countDie d).fld (R.PWR_THR_US_VALUE.nth d.val) =
    if s.duty d < 256 then satCount 32 (s.fld (R.PWR_THR_US_VALUE.nth d.val) + 1) else s.fld (R.PWR_THR_US_VALUE.nth d.val) := by
  unfold countDie
  split
  · have hs : satCount 32 (s.fld (R.PWR_THR_US_VALUE.nth d.val) + 1) < 2 ^ 32 := by unfold satCount; omega
    exact (RegFile.fld_setFld_self _ _ _ (by decide : 0 < (32 : Nat)) (by decide : 0 + 32 ≤ 32)).trans (Nat.mod_eq_of_lt hs)
  · rfl

theorem fld_countThrottled (s : Device) (d : Die) : s.countThrottled.fld (R.PWR_THR_US_VALUE.nth d.val) =
    if s.duty d < 256 then satCount 32 (s.fld (R.PWR_THR_US_VALUE.nth d.val) + 1) else s.fld (R.PWR_THR_US_VALUE.nth d.val) := by
  have all : s.countThrottled = (((s.countDie 0).countDie 1).countDie 2).countDie 3 := rfl
  rw [all]
  match d with
  | 0 => rw [fld_countDie_ne _ (by decide), fld_countDie_ne _ (by decide), fld_countDie_ne _ (by decide), fld_countDie_self]
  | 1 => rw [fld_countDie_ne _ (by decide), fld_countDie_ne _ (by decide), fld_countDie_self, duty_countDie, fld_countDie_ne _ (by decide)]
  | 2 => rw [fld_countDie_ne _ (by decide), fld_countDie_self, duty_countDie, duty_countDie, fld_countDie_ne _ (by decide),
      fld_countDie_ne _ (by decide)]
  | 3 => rw [fld_countDie_self, duty_countDie, duty_countDie, duty_countDie, fld_countDie_ne _ (by decide), fld_countDie_ne _ (by decide),
      fld_countDie_ne _ (by decide)]

end Device

/-- A register of one field that is computed, all its 32 bits read-only, shows what it computes. -/
theorem State.regValue_computed {s : State} {off x : Nat} {m : Bool} (hf : s.liveFields off = [(0, 32, x)]) (hx : x < 2 ^ 32)
    (hr : maskOf (fun a => a == .rw) (fieldsAt off) = 0) (hw : maskOf (fun a => a == .wo) (fieldsAt off) = 0) :
    (s.regValue off m).toNat = x := by
  unfold State.regValue
  simp only [hf, hr, hw, List.foldl_cons, List.foldl_nil, Nat.and_zero, Nat.sub_zero, Nat.add_zero, ite_self, insertBits, bitsOf]
  rw [BitVec.toNat_ofNat]
  have hl := (s.dev.regs.liveAt off).val.isLt
  omega

/-- Settles O55: by the definitions of the duty, of the register that shows it, and of the count of one die. -/
theorem dutyInForce : Obligations.DutyInForce := by
  intro s d
  refine ⟨fun h => ?_, fun h => ?_, fun hx m => ?_, Device.fld_countThrottled s.dev d⟩
  · rw [Device.duty, if_neg (by rw [h]; nofun)]
  · rw [Device.duty, if_pos h]
    split
    · exact (Nat.zero_min _).symm
    · rfl
  · have hf : s.liveFields (R.PWR_DUTY + 4 * d.val) = [(0, 32, s.dev.duty d)] := by
      match d with
      | 0 => rfl
      | 1 => rfl
      | 2 => rfl
      | 3 => rfl
    have ro : ∀ d : Die, maskOf (fun a => a == .rw) (fieldsAt (R.PWR_DUTY + 4 * d.val)) = 0 ∧
      maskOf (fun a => a == .wo) (fieldsAt (R.PWR_DUTY + 4 * d.val)) = 0 := by decide
    exact State.regValue_computed hf hx (ro d).1 (ro d).2

end Sys2Proof.Machine
end

section
/-! Activation and recalibration (O45). -/

set_option Elab.async false

namespace Sys2Proof.Machine
open Sys2Proof.Safety

/-! ## Firmware -/

namespace Device

/-- Errors, the end of a job and replies leave the bundle that runs. -/
theorem running_deaf (b : List Byte) : Deaf fun s => s.running = b :=
  ⟨fun _ _ h => h, fun _ _ h => h, fun _ _ h => h, fun _ _ h => h, fun _ _ h => h, fun _ _ h => h, fun _ _ h => h,
    fun _ _ _ h => h, fun _ h => h⟩

theorem running_post (s : Device) (code : W16) (sev : Nat) (unit : W16) (detail : W64) : (s.post code sev unit detail).running = s.running :=
  (running_deaf s.running).post code sev unit detail rfl

end Device

/-- What holds of each processor holds of all four. -/
theorem Quad.all_of_forall {α : Type} {q : Quad α} {f : α → Bool} (h : ∀ p, f (q.get p) = true) : q.toList.all f = true := by
  have h0 := h 0
  have h1 := h 1
  have h2 := h 2
  have h3 := h 3
  exact List.all_eq_true.2 fun x hx => by
    simp only [Quad.toList, List.mem_cons, List.not_mem_nil, or_false] at hx
    obtain rfl | rfl | rfl | rfl := hx <;> assumption

/-- An activation that is quiet, where no processor restarts, goes past step 1 and loads. -/
theorem advanceActivation_quiet {t : State} {a : Activation} (ha : t.dev.cmd.activation = some a) (hq : t.dev.quiet = true)
    (hl : a.loading = false) (hr : ∀ p, (t.dev.procs.get p).restarting = false) :
    t.advanceActivation = { t with
      dev := (t.dev.onCmd fun c => { c with activation := some { a with passed := true } }).loadImages (t.nv.slot a.slot) } := by
  have hp : (a.passed || t.dev.quiet) = true := by rw [hq, Bool.or_true]
  have hall : (t.dev.procs.toList.all fun p => !p.restarting) = true := Quad.all_of_forall fun p => by rw [hr p]; rfl
  unfold State.advanceActivation
  rw [ha]
  dsimp only
  rw [hp, if_pos ⟨rfl, by rw [hl]; nofun, hall⟩]

/-- With all four processors ready for a second the activation is done. -/
theorem finishActivation_ready {t : State} {a : Activation} {v : Device} (ha : t.dev.cmd.activation = some a) (hl : a.loading = true)
    (hr : ∀ p, (t.dev.procs.get p).up = true ∧ (t.dev.procs.get p).restarting = false ∧ (t.dev.procs.get p).activating = false ∧
      (t.dev.procs.get p).readyUs + 1000000 ≤ t.dev.clockUs)
    (hv : v = (({ t.dev with store := t.dev.running }).onCmd fun c => { c with activation := none }).post 0x0608 1 (procUnit .peak) 0) :
    t.finishActivation =
      { t with nv := { t.nv with boot := a.slot, noBoot := false }, dev := v.reply a.ref OK (bundleVersion t.dev.running) } := by
  have hall : (t.dev.procs.toList.all fun p => p.up && !p.restarting && !p.activating && decide (p.readyUs + STAY_US ≤ t.dev.clockUs)) = true :=
    Quad.all_of_forall fun p => by
      obtain ⟨hu, hs, hv, ht⟩ := hr p
      rw [hu, hs, hv, decide_eq_true (show _ + STAY_US ≤ _ from ht)]
      rfl
  have hrun : v.running = t.dev.running := hv ▸ Device.running_post ..
  unfold State.finishActivation
  rw [ha]
  dsimp only
  rw [if_pos ⟨hl, hall⟩, ← hrun, hv]
  rfl

/-- Settles O45: each event of the firmware and of the calibration set, on the path its conditions choose. -/
theorem firmwareEventsComplete : Obligations.FirmwareEventsComplete := by
  intro s a hl
  refine ⟨fun ha => ⟨fun hq hld hr => ?_, fun hp he hu => ?_, fun hld hr n u v hn hu hv => ?_⟩, fun ref hc hup => ?_, fun ref c n hc h0 h2 hcs hn => ?_⟩
  · show execActivationWaitExpiry s = _
    rw [execActivationWaitExpiry, if_neg (by rw [hl]; nofun), advanceActivation_quiet ha hq hld hr]
  · show execFwAbandoned s = _
    refine onDev_into hl ?_
    rw [Device.abandonActivation, ha]
    dsimp only
    rw [if_pos ⟨by rw [hp]; nofun, he, hu⟩]
  · show execFwActivated s = _
    rw [execFwActivated, if_neg (by rw [hl]; nofun), finishActivation_ready ha hld hr rfl, hv, hu, hn]
  · show execCalRestoreDone s = _
    rw [execCalRestoreDone, if_neg (by rw [hl]; nofun), State.calRestored, hc]
    dsimp only
    rw [if_pos (hup.imp (fun h => by rw [h]; nofun) (fun h => by rw [h]; nofun))]
    rfl
  · show execCalRestoreDone s = _
    rw [execCalRestoreDone, if_neg (by rw [hl]; nofun), State.calRestored, hc]
    dsimp only
    rw [if_neg (by rw [h0, h2]; simp), hn, hcs]
    rfl

end Sys2Proof.Machine
end

section
/-! What memory reports (O52). -/

set_option Elab.async false

namespace Sys2Proof.Machine
open Sys2Proof.Safety

/-! ## What memory reports -/

theorem inReset_of_live {s : State} (hl : Live s) : s.dev.inReset = false := (Bool.or_eq_false_iff.1 hl).1

/-- A management action on a device that is not in reset. -/
theorem onManagement_into {s : State} {f : Device → Device} {v : Device} (hr : s.dev.inReset = false) (h : f s.dev = v) :
    onManagement s f = .next (into s v) := by
  rw [onManagement_live f hr, h]

namespace Device

/-- A near address of a stack that has not failed. -/
theorem unmapped_near {s : Device} {a : Nat} (hs : s.stackState (stackOf a) ≠ 2) (ha : a < 2 ^ 40) : s.unmapped false a = false := by
  simp only [unmapped, Bool.false_eq_true, if_false, Bool.or_eq_false_iff, beq_eq_false_iff_ne, ne_eq, decide_eq_false_iff_not]
  exact ⟨hs, by omega⟩

theorem burstRead_near {s : Device} {a : Nat} {o : ReadOutcome} {r : Requester} (h : s.unmapped false a = false) :
    s.burstRead false a o r = match o with
      | .good | .poison => s
      | .corrected lane => s.correctedRead a lane false (unitOf r)
      | .uncorrectable => s.uncorrectable (s.logItem false a 2 false (unitOf r)) (severityOf r) := by
  unfold burstRead
  rw [if_neg (by rw [h]; nofun), if_neg (show ¬ s.downFar false a = true by rw [downFar]; nofun)]
  cases o <;> rfl

theorem scrub_good {s : Device} (he : s.flag R.MEM_SCRUB_CTL_EN = true) (hb : s.procs.q3.up = true) (ht : s.flag R.MEM_STAT_TRAINED = true)
    (hm : s.unmapped false (256 * s.mem.scrubLine) = false) : s.scrub .good = s.nextLine := by
  rw [scrub, if_neg (by rw [he, hb, ht]; simp)]
  dsimp only
  rw [if_neg (by rw [hm]; nofun)]

/-- A stack that trains while another still does. -/
theorem trainingDone_more {s : Device} {k : Nat} {l : List (Fin 32 × List (Fin 74))} (hs : s.stackState k = 0) (hb : s.procs.q3.up = true)
    (hm : ∃ j, j < 8 ∧ ((s.recordLanes k l).stackTrained k l).stackState j = 0) :
    s.trainingDone k l = (s.recordLanes k l).stackTrained k l := by
  obtain ⟨j, hj, h0⟩ := hm
  rw [trainingDone, if_neg (by rw [hs, hb]; simp)]
  dsimp only
  rw [if_neg fun h => ?_]
  have hj' := List.all_eq_true.1 h j (List.mem_range.2 hj)
  exact of_decide_eq_true hj' h0

theorem retrain_ends {s : Device} {k : Nat} (hs : s.stackState k = 3) (hb : s.procs.q3.up = true) :
    s.retrain k true = (s.recordLanes k []).stackTrained k [] := by
  rw [retrain, if_neg (by rw [hb]; simp), if_pos rfl, if_pos hs]

theorem retrain_begins {s : Device} {k : Nat} (hi : s.flag R.MEM_CTL_RETRAIN_IDLE = true)
    (hd : s.cmd.dstate = .ready ∨ s.cmd.dstate = .starting) (hs : s.stackState k = 1) (hm : 0 < s.stackMarks k true) (hb : s.procs.q3.up = true)
    (hn : ∀ j, j < 8 → s.stackState j ≠ 3) : s.retrain k false = s.setFld (R.MEM_STACK_STATE.nth k) 3 := by
  have due : s.retrainDue k = true := by
    rw [retrainDue, hi, hs, decide_eq_true (show s.stackMarks k true > 0 from hm)]
    rfl
  have alone : (List.range 8).all (fun j => s.stackState j ≠ 3) = true :=
    List.all_eq_true.2 fun j hj => decide_eq_true (hn j (List.mem_range.1 hj))
  rw [retrain, if_neg (by rw [hb]; simp), if_neg (by nofun), if_pos ⟨due, hd, alone⟩]

theorem enumerate_trained {s : Device} {p : Fin 2} {cap : Nat} {w : BitVec 5} {r : BitVec 2} (hp : s.portDown p.val = true)
    (hj : s.cmd.job = none) (hb : s.procs.q3.up = true) (hw : w = 4 ∨ w = 8 ∨ w = 16) (hr : r ≠ 0) :
    s.enumerate p cap w r =
      ((((s.setFld (R.MEM_FAR_CAP_CAP.nth p.val) (min (cap / 2 ^ 28) 16384)).setFld (R.MEM_FAR_STAT_WIDTH.nth p.val) w.toNat).setFld
        (R.MEM_FAR_STAT_RATE.nth p.val) r.toNat).setFld (R.MEM_FAR_STAT_TRUNC.nth p.val) (b2n (decide (cap / 2 ^ 28 > 16384)))).wipePort p.val := by
  rw [enumerate, if_neg (by rw [hp, hb, jobRuns, hj]; simp)]
  dsimp only
  rw [if_pos ⟨hw, hr⟩, if_pos ⟨hw, hr⟩, if_pos ⟨hw, hr⟩]
  rfl

end Device

/-- Settles O52: each report of memory, on the path its conditions choose. -/
theorem memoryEventsComplete : Obligations.MemoryEventsComplete := by
  intro s hl
  refine ⟨fun a r hs ha => ⟨?_, fun l => ?_, ?_⟩, fun he hb ht hm => ?_, fun k l v hs hb hv hm => ?_, fun k => ⟨fun hs hb => ?_, fun hi hd hs hm hb hn => ?_⟩,
    fun p cap w r hp hj hb hw hr => ?_, fun p v hp hv => ⟨?_, ?_, fun a => ⟨fun hb => ?_, fun hb => ?_⟩⟩⟩
  · show execBurstRead false a .good r s = _
    exact onDev_into hl (Device.burstRead_near (Device.unmapped_near hs ha))
  · show execBurstRead false a (.corrected l) r s = _
    exact onDev_into hl (Device.burstRead_near (Device.unmapped_near hs ha))
  · show execBurstRead false a .uncorrectable r s = _
    exact onDev_into hl (Device.burstRead_near (Device.unmapped_near hs ha))
  · show execPatrolScrub .good s = _
    exact onDev_into hl (Device.scrub_good he hb ht hm)
  · show execStackTrainingDone k l s = _
    exact onDev_into hl ((Device.trainingDone_more hs hb (hv ▸ hm)).trans hv.symm)
  · show execStackRetrain k true s = _
    exact onDev_into hl (Device.retrain_ends hs hb)
  · show execStackRetrain k false s = _
    exact onDev_into hl (Device.retrain_begins hi hd hs hm hb hn)
  · show execCxlEnumerate p cap w r s = _
    exact onDev_into hl (Device.enumerate_trained hp hj hb hw hr)
  · show execMemFarDown p s = _
    exact onDev_into hl (by rw [Device.farDown, if_neg (by rw [hp]; nofun), hv]; rfl)
  · show execRefclkCxlLost p s = _
    exact onManagement_into (inReset_of_live hl) (by rw [Device.farDown, if_neg (by rw [hp]; nofun), hv]; rfl)
  · show execMemFarEvent p a s = _
    exact onDev_into hl (by rw [Device.farEvent, if_neg (by rw [hp]; nofun), if_pos hb]; rfl)
  · show execMemFarEvent p a s = _
    exact onDev_into hl (by rw [Device.farEvent, if_neg (by rw [hp]; nofun), if_neg (by rw [hb]; nofun)])

end Sys2Proof.Machine
end

section
/-! The power controls (O54). -/

set_option Elab.async false

namespace Sys2Proof.Machine
open Sys2Proof.Safety

/-! ## Causes of the clamp -/

namespace Device

/-- Errors, the end of a job and replies leave the power controls. -/
theorem pwr_deaf (p : Power) : Deaf fun s => s.pwr = p :=
  ⟨fun _ _ h => h, fun _ _ h => h, fun _ _ h => h, fun _ _ h => h, fun _ _ h => h, fun _ _ h => h, fun _ _ h => h,
    fun _ _ _ h => h, fun _ h => h⟩

theorem clockUs_deaf (n : Nat) : Deaf fun s => s.clockUs = n :=
  ⟨fun _ _ h => h, fun _ _ h => h, fun _ _ h => h, fun _ _ h => h, fun _ _ h => h, fun _ _ h => h, fun _ _ h => h,
    fun _ _ _ h => h, fun _ h => h⟩

/-- A cause as it is noted, before what a new one brings. -/
def noteCause (s : Device) (i : Nat) (on : Bool) : Device :=
  let v := s.onPwr fun p => { p with causes := p.causes.set i on }
  if v.hasCause 0 ∧ ¬ v.emergencyCause then v.onPwr fun p => { p with emergency := false } else v

/-- What a new cause does to the clamp and the emergency. -/
def raiseCause (s : Device) (i : Nat) : Device :=
  let v := (s.takeClamp).onPwr fun p => { p with calmUs := 0 }
  let v := if i = 0 ∨ v.pwr.emergency then v else v.onPwr fun p => { p with emergency := true, emergUs := 0, quietUs := 0 }
  if i = 6 then v.onPwr fun p => { p with thermN := true } else v

/-- What a cause that arises reports. -/
def reportCause (s : Device) (i : Nat) : Device := match causeReport i with
  | none => s
  | some (f, code) => if (s.event f).flag R.PWR_CTL_EVENT then (s.event f).post code 1 clampUnit 0 else s.event f

theorem setCause_eq (s : Device) (i : Nat) (on : Bool) :
    s.setCause i on = if ¬ (on && !s.hasCause i) then s.noteCause i on else ((s.noteCause i on).raiseCause i).reportCause i := by
  unfold setCause reportCause
  rfl

theorem pwr_reportCause (s : Device) (i : Nat) : (s.reportCause i).pwr = s.pwr := by
  unfold reportCause
  split
  · rfl
  · split
    · exact (pwr_deaf s.pwr).post _ _ _ _ rfl
    · rfl

theorem clockUs_reportCause (s : Device) (i : Nat) : (s.reportCause i).clockUs = s.clockUs := by
  unfold reportCause
  split
  · rfl
  · split
    · exact (clockUs_deaf s.clockUs).post _ _ _ _ rfl
    · rfl

theorem causes_noteCause (s : Device) (i : Nat) (on : Bool) : (s.noteCause i on).pwr.causes = s.pwr.causes.set i on := by
  unfold noteCause
  dsimp only
  split <;> rfl

theorem causes_takeClamp (s : Device) : s.takeClamp.pwr.causes = s.pwr.causes := by
  unfold takeClamp
  split <;> rfl

theorem causes_raiseCause (s : Device) (i : Nat) : (s.raiseCause i).pwr.causes = s.pwr.causes := by
  unfold raiseCause
  dsimp only
  split <;> split <;> exact causes_takeClamp s

theorem causes_setCause (s : Device) (i : Nat) (on : Bool) : (s.setCause i on).pwr.causes = s.pwr.causes.set i on := by
  rw [setCause_eq]
  split
  · exact causes_noteCause s i on
  · rw [pwr_reportCause, causes_raiseCause, causes_noteCause]

/-- The readings of power that a cause leaves. -/
structure SameReadings (s t : Device) : Prop where
  clock : t.clockUs = s.clockUs
  power : t.pwr.power = s.pwr.power
  recent : t.pwr.recent = s.pwr.recent
  bucket : t.pwr.bucket = s.pwr.bucket
  vinBad : t.pwr.vinBad = s.pwr.vinBad

theorem sameReadings_setCause (s : Device) (i : Nat) (on : Bool) : SameReadings s (s.setCause i on) := by
  have note : SameReadings s (s.noteCause i on) := by
    unfold noteCause
    dsimp only
    split <;> exact ⟨rfl, rfl, rfl, rfl, rfl⟩
  have raises (v : Device) : SameReadings v (v.raiseCause i) := by
    have take : SameReadings v v.takeClamp := by
      unfold takeClamp
      split <;> exact ⟨rfl, rfl, rfl, rfl, rfl⟩
    unfold raiseCause
    dsimp only
    split <;> split <;> exact ⟨take.clock, take.power, take.recent, take.bucket, take.vinBad⟩
  rw [setCause_eq]
  split
  · exact note
  · have up := raises (s.noteCause i on)
    constructor
    · rw [clockUs_reportCause, up.clock, note.clock]
    · rw [pwr_reportCause, up.power, note.power]
    · rw [pwr_reportCause, up.recent, note.recent]
    · rw [pwr_reportCause, up.bucket, note.bucket]
    · rw [pwr_reportCause, up.vinBad, note.vinBad]

theorem hasCause_setCause_self {s : Device} {i : Nat} (on : Bool) (hi : i < s.pwr.causes.length) : (s.setCause i on).hasCause i = on := by
  rw [hasCause, causes_setCause, List.getD_eq_getElem?_getD, List.getElem?_set_self hi]
  rfl

theorem hasCause_setCause_ne (s : Device) {i j : Nat} (on : Bool) (h : i ≠ j) : (s.setCause i on).hasCause j = s.hasCause j := by
  rw [hasCause, causes_setCause, List.getD_eq_getElem?_getD, List.getElem?_set_ne h, ← List.getD_eq_getElem?_getD, hasCause]

/-- A cause that makes an emergency, once noted, leaves one that there is. -/
theorem noteCause_emergency {s : Device} {i : Nat} (h1 : 1 ≤ i) (h7 : i < 7) (hi : i < s.pwr.causes.length) :
    s.noteCause i true = s.onPwr fun p => { p with causes := p.causes.set i true } := by
  have up : (s.onPwr fun p => { p with causes := p.causes.set i true }).emergencyCause = true := by
    refine List.any_eq_true.2 ⟨i, List.mem_range.2 h7, ?_⟩
    rw [decide_eq_true (show 0 < i from h1), hasCause]
    show (true && (s.pwr.causes.set i true).getD i false) = true
    rw [List.getD_eq_getElem?_getD, List.getElem?_set_self hi]
    rfl
  unfold noteCause
  dsimp only
  rw [if_neg (by rw [up]; simp)]

/-- A table of what a function gives. -/
theorem get_table (f : Die → Nat) (d : Die) : (⟨f 0, f 1, f 2, f 3⟩ : Quad Nat).get d = f d := by
  unfold Quad.get
  split <;> rfl

/-- What a new cause of an emergency brings. -/
theorem raiseCause_spec (s : Device) {i : Nat} (h1 : 1 ≤ i) :
    (s.raiseCause i).pwr.clamp = true ∧ (s.raiseCause i).pwr.emergency = true ∧ (s.raiseCause i).pwr.calmUs = 0 ∧
    (i = 6 → (s.raiseCause i).pwr.thermN = true) ∧ (s.pwr.clamp = false → ∀ d, (s.raiseCause i).pwr.clampDuty.get d = s.duty d) := by
  have take : s.takeClamp.pwr.clamp = true ∧ (s.pwr.clamp = false → ∀ d, s.takeClamp.pwr.clampDuty.get d = s.duty d) := by
    unfold takeClamp
    split
    next h => exact ⟨h, fun hn => absurd (hn.symm.trans h) Bool.false_ne_true⟩
    next => exact ⟨rfl, fun _ d => get_table s.duty d⟩
  obtain ⟨hc, hd⟩ := take
  unfold raiseCause
  extract_lets u w
  have hw : w.pwr.clamp = true ∧ w.pwr.emergency = true ∧ w.pwr.calmUs = 0 ∧ w.pwr.clampDuty = s.takeClamp.pwr.clampDuty := by
    by_cases he : i = 0 ∨ u.pwr.emergency = true
    · have hw : w = u := if_pos he
      rw [hw]
      exact ⟨hc, he.resolve_left (by omega), rfl, rfl⟩
    · have hw : w = u.onPwr fun p => { p with emergency := true, emergUs := 0, quietUs := 0 } := if_neg he
      rw [hw]
      exact ⟨hc, rfl, rfl, rfl⟩
  obtain ⟨h1, h2, h3, h4⟩ := hw
  split
  next => exact ⟨h1, h2, h3, fun _ => rfl, fun h d => (congrArg (fun q => q.get d) h4).trans (hd h d)⟩
  next h6 => exact ⟨h1, h2, h3, fun h => absurd h h6, fun h d => (congrArg (fun q => q.get d) h4).trans (hd h d)⟩

/-- A cause of an emergency that arises. -/
theorem setCause_arises {s : Device} {i : Nat} (h1 : 1 ≤ i) (h7 : i < 7) (hi : i < s.pwr.causes.length) (hn : s.hasCause i = false) :
    (s.setCause i true).pwr.clamp = true ∧ (s.setCause i true).pwr.emergency = true ∧ (s.setCause i true).pwr.calmUs = 0 ∧
    (i = 6 → (s.setCause i true).pwr.thermN = true) ∧ (s.pwr.clamp = false → ∀ d, (s.setCause i true).pwr.clampDuty.get d = s.duty d) := by
  have noted := noteCause_emergency h1 h7 hi
  obtain ⟨hc, he, hu, ht, hd⟩ := raiseCause_spec (s.noteCause i true) h1
  have raised : (s.setCause i true).pwr = ((s.noteCause i true).raiseCause i).pwr := by
    rw [setCause_eq, if_neg (by rw [hn]; simp), pwr_reportCause]
  rw [raised]
  refine ⟨hc, he, hu, ht, fun h d => ?_⟩
  have same : (s.noteCause i true).pwr.clamp = s.pwr.clamp := by rw [noted]; rfl
  rw [hd (same.trans h) d, duty, if_neg (by rw [same, h]; nofun), duty, if_neg (by rw [h]; nofun), noted]
  rfl

/-! ## One microsecond -/

/-- The readings and the limit that counters leave. -/
structure SameLimits (s t : Device) : Prop where
  pwr : t.pwr = s.pwr
  clock : t.clockUs = s.clockUs
  peak : t.fld R.PWR_PL_PEAK_VALUE = s.fld R.PWR_PL_PEAK_VALUE

theorem SameLimits.trans {s t u : Device} (h : SameLimits s t) (g : SameLimits t u) : SameLimits s u :=
  ⟨g.pwr.trans h.pwr, g.clock.trans h.clock, g.peak.trans h.peak⟩

/-- The idle counters are registers of the fabric. -/
theorem sameLimits_addIdle (s : Device) (d : Die) {c : Nat} (n : Nat) (hc : c < 6) : SameLimits s (s.addIdle d c n) := by
  have hd := d.isLt
  refine ⟨rfl, rfl, (RegFile.fld_setFld_ne _ _ _ _ ?_).trans (RegFile.fld_setFld_ne _ _ _ _ ?_)⟩
  · unfold R.PWR_PL_PEAK_VALUE R.FAB_IDLE_PACT_HI
    dsimp only
    omega
  · unfold R.PWR_PL_PEAK_VALUE R.FAB_IDLE_PACT_LO
    dsimp only
    omega

theorem sameLimits_countIdle (s : Device) : SameLimits s s.countIdle := by
  unfold countIdle
  split
  · exact ⟨rfl, rfl, rfl⟩
  · refine List.foldlRecOn (motive := fun t => SameLimits s t) _ _ ⟨rfl, rfl, rfl⟩ fun t ht d _ => ?_
    refine List.foldlRecOn (motive := fun z : Device × Nat => SameLimits s z.1) _ _ ht fun z hz c hc => ?_
    have free : SameLimits z.1 z.1.freeWord.2 := ⟨rfl, rfl, rfl⟩
    exact (hz.trans free).trans (sameLimits_addIdle _ d _ (List.mem_range.1 hc))

theorem sameLimits_countThrottled (s : Device) : SameLimits s s.countThrottled := by
  refine List.foldlRecOn (motive := fun t => SameLimits s t) _ _ ⟨rfl, rfl, rfl⟩ fun t ht d _ => ?_
  split
  · refine ht.trans ⟨rfl, rfl, RegFile.fld_setFld_ne _ _ _ _ ?_⟩
    have hd := d.isLt
    simp only [R.PWR_PL_PEAK_VALUE, R.PWR_THR_US_VALUE, Fld.nth]
    omega
  · exact ht

/-- What a microsecond leaves. -/
theorem bucketUpdate_spec {s : Device} {vin cur volts amps bad : List Nat} {p sust : Nat}
    (hv : volts = vin.mapIdx (fun i x => (s.corrected (80 + i) x).toNat))
    (ha : amps = cur.mapIdx (fun i x => min 2000 (s.corrected (84 + i) x).toNat))
    (hp : p = ((volts.zip amps).map fun x => x.1 * x.2).sum) (hs : sust = s.fld R.PWR_PL_SUST_VALUE * 10000)
    (hb : bad = ((volts.zip s.pwr.vinBad).map fun x => if x.1 < 3800 ∨ 4600 < x.1 then x.2 + 1 else 0)) :
    ∃ u : Device, s.bucketUpdate vin cur = ((u.setCause 1 (decide (s.fld R.PWR_PL_PEAK_VALUE * 10000 < p))).setCause 2
        (decide (sust < p) && u.pwr.bucket == 0)).setCause 5 (bad.any fun n => decide (n ≥ 10)) ∧
      u.clockUs = s.clockUs + 1 ∧ u.pwr.power = p ∧ u.pwr.recent = (p :: s.pwr.recent).take 100 ∧
      u.pwr.bucket = min (s.pwr.bucket + sust - p) (s.bucketMax * 10 ^ 7) ∧ u.pwr.vinBad = bad ∧ u.pwr.causes = s.pwr.causes := by
  unfold bucketUpdate
  extract_lets v1 a1 p1 s1 b1 bad1 fr t1 t2 calm u c1
  obtain rfl : v1 = volts := hv.symm
  obtain rfl : a1 = amps := ha.symm
  obtain rfl : p1 = p := hp.symm
  obtain rfl : s1 = sust := hs.symm
  obtain rfl : bad1 = bad := hb.symm
  have ht : SameLimits t1 t2 := (sameLimits_countIdle t1).trans (sameLimits_countThrottled _)
  have peak : u.fld R.PWR_PL_PEAK_VALUE = s.fld R.PWR_PL_PEAK_VALUE := ht.peak
  have same : t2.pwr.recent = s.pwr.recent := congrArg Power.recent ht.pwr
  have causes : t2.pwr.causes = s.pwr.causes := congrArg Power.causes ht.pwr
  refine ⟨u, ?_, ht.clock, rfl, ?_, rfl, rfl, causes⟩
  · show (_ : Device) = _
    rw [← peak]
    rfl
  · exact congrArg (fun l => (p1 :: l).take 100) same

/-! ## The clamp die by die -/

/-- A die beyond the safe limits. -/
def beyondLimits (s : Device) (d : Die) : Bool :=
  decide (s.pwr.power > 1000 * 10000) || decide (s.dieHot d > 95 * 16) || decide (s.stackTemp (2 * d.val) > 85) ||
    decide (s.stackTemp (2 * d.val + 1) > 85)

/-- The microseconds that a die has been inside the limits. -/
def lowNow (s : Device) (d : Die) : Nat := if s.beyondLimits d then 0 else s.pwr.lowUs.get d + 1

/-- The duty that the clamp gives a die next. -/
def dutyNext (s : Device) (d : Die) : Nat :=
  if s.beyondLimits d then max 16 (s.pwr.clampDuty.get d / 2)
  else if s.lowNow d ≥ 100 then min 256 (s.pwr.clampDuty.get d + 8) else s.pwr.clampDuty.get d

/-- The clamp on one die. -/
def enforceDie (s : Device) (d : Die) : Device :=
  s.onPwr fun p => { p with clampDuty := p.clampDuty.set d (s.dutyNext d), lowUs := p.lowUs.set d (s.lowNow d) }

theorem clampEnforce_eq {s : Device} (hc : s.pwr.clamp = true) :
    s.clampEnforce = (((s.enforceDie 0).enforceDie 1).enforceDie 2).enforceDie 3 := by
  rw [clampEnforce, if_neg (by rw [hc]; simp)]
  rfl

theorem duty_enforceDie_self (s : Device) (d : Die) : (s.enforceDie d).pwr.clampDuty.get d = s.dutyNext d := Quad.get_set_self ..

theorem duty_enforceDie_ne (s : Device) {d e : Die} (h : d ≠ e) : (s.enforceDie e).pwr.clampDuty.get d = s.pwr.clampDuty.get d :=
  Quad.get_set_ne _ _ h

theorem dutyNext_enforceDie (s : Device) {d e : Die} (h : d ≠ e) : (s.enforceDie e).dutyNext d = s.dutyNext d := by
  have hl : (s.enforceDie e).pwr.lowUs.get d = s.pwr.lowUs.get d := Quad.get_set_ne _ _ h
  have hb : (s.enforceDie e).beyondLimits d = s.beyondLimits d := rfl
  unfold dutyNext lowNow
  rw [hb, hl, duty_enforceDie_ne s h]

theorem duty_clampEnforce {s : Device} (hc : s.pwr.clamp = true) (d : Die) : s.clampEnforce.pwr.clampDuty.get d = s.dutyNext d := by
  rw [clampEnforce_eq hc]
  match d with
  | 0 => rw [duty_enforceDie_ne _ (by decide), duty_enforceDie_ne _ (by decide), duty_enforceDie_ne _ (by decide), duty_enforceDie_self]
  | 1 => rw [duty_enforceDie_ne _ (by decide), duty_enforceDie_ne _ (by decide), duty_enforceDie_self, dutyNext_enforceDie _ (by decide)]
  | 2 => rw [duty_enforceDie_ne _ (by decide), duty_enforceDie_self, dutyNext_enforceDie _ (by decide), dutyNext_enforceDie _ (by decide)]
  | 3 => rw [duty_enforceDie_self, dutyNext_enforceDie _ (by decide), dutyNext_enforceDie _ (by decide), dutyNext_enforceDie _ (by decide)]

theorem beyondLimits_iff (s : Device) (d : Die) : s.beyondLimits d = true ↔ (1000 * 10000 < s.pwr.power ∨ 95 * 16 < s.dieHot d ∨
    85 < s.stackTemp (2 * d.val) ∨ 85 < s.stackTemp (2 * d.val + 1)) := by
  simp only [beyondLimits, Bool.or_eq_true, decide_eq_true_eq, or_assoc, gt_iff_lt]

/-! ## Crown -/

theorem toNat_clampInt (x : Int) : ((clampInt x 16 256).toNat : Int) = max 16 (min x 256) := by
  unfold clampInt
  omega

/-- Crown's next thermal duty of a die (R389). -/
def crownDuty (s : Device) (d : Die) : Nat :=
  let tj : Int := (s.fld R.PWR_TJ_TARGET_VALUE : Int) * 16 - (if s.calUse.factory then 0 else 32)
  let stk : Int := s.fld R.PWR_STK_TARGET_VALUE
  let hot : Int := max (s.stackTemp (2 * d.val)) (s.stackTemp (2 * d.val + 1))
  (clampInt ((s.pwr.th.get d : Int) + Int.tdiv (min (tj - s.dieHot d) ((stk - hot) * 16)) 4) 16 256).toNat

theorem th_crownLoop {s : Device} (hup : s.procs.q0.up = true) (d : Die) : s.crownLoop.pwr.th.get d = s.crownDuty d := by
  rw [crownLoop, if_neg (by rw [hup]; simp)]
  exact get_table s.crownDuty d

end Device

theorem State.into_dev (s : State) (v : Device) : (into s v).dev = v := rfl

/-- Settles O54: each command of the power controls, on the path its conditions choose. -/
theorem powerCommandsComplete : Obligations.PowerCommandsComplete := by
  intro s hl
  have hr := inReset_of_live hl
  refine ⟨fun t v hv => ?_, fun v u i h1 hi h7 hn hu => ?_, fun vin cur volts amps bad p sust hv ha hp hs hb => ?_, fun hc => ?_,
    fun hc hcs hcalm hup hth => ?_, fun hup tj stk avg room htj hstk havg hroom => ?_, fun ts hup => ?_⟩
  · have run {w : Device} (h : s.dev.sensorSample t = w) : exec (.sensorSample t) s = .next (into s w) := by
      show execSensorSample t s = _
      exact onManagement_into hr h
    have eq : s.dev.sensorSample t = (if v.deviceHot < 110 * 16
        then ((v.setCause 3 (decide (v.deviceHot > 105 * 16))).setCause 6 (decide (v.deviceHot ≥ 115 * 16))).onPwr fun p => { p with thermN := false }
        else (v.setCause 3 (decide (v.deviceHot > 105 * 16))).setCause 6 (decide (v.deviceHot ≥ 115 * 16))) := by rw [hv]; rfl
    refine ⟨fun h => run ?_, fun h h' => run ?_, fun h h' => run ?_, fun h => run ?_⟩ <;> rw [eq]
    · rw [if_pos (by omega), decide_eq_false (by omega), decide_eq_false (by omega)]
    · rw [if_pos h', decide_eq_true (show v.deviceHot > _ from h), decide_eq_false (by omega)]
    · rw [if_neg (by omega), decide_eq_true (by omega), decide_eq_false (by omega)]
    · rw [if_neg (by omega), decide_eq_true (by omega), decide_eq_true (by omega)]
  · obtain ⟨hc, he, hm, ht, hd⟩ := Device.setCause_arises h1 h7 hi hn
    rw [hu]
    exact ⟨Device.hasCause_setCause_self true hi, hc, he, hm, ht, hd⟩
  · obtain ⟨u, hu, hclk, hpw, hrec, hbk, hbad, hcs⟩ := Device.bucketUpdate_spec hv ha hp hs hb
    refine ⟨into s (s.dev.bucketUpdate vin cur), show execBucketUpdate vin cur s = _ from onManagement_into hr rfl, ?_⟩
    rw [State.into_dev, hu]
    have r1 := Device.sameReadings_setCause u 1 (decide (s.dev.fld R.PWR_PL_PEAK_VALUE * 10000 < p))
    have r2 := Device.sameReadings_setCause (u.setCause 1 (decide (s.dev.fld R.PWR_PL_PEAK_VALUE * 10000 < p))) 2
      (decide (sust < p) && u.pwr.bucket == 0)
    have r3 := Device.sameReadings_setCause ((u.setCause 1 (decide (s.dev.fld R.PWR_PL_PEAK_VALUE * 10000 < p))).setCause 2
      (decide (sust < p) && u.pwr.bucket == 0)) 5 (bad.any fun n => decide (n ≥ 10))
    refine ⟨by rw [r3.clock, r2.clock, r1.clock, hclk], by rw [r3.power, r2.power, r1.power, hpw],
      by rw [r3.recent, r2.recent, r1.recent, hrec], by rw [r3.bucket, r2.bucket, r1.bucket, hbk],
      by rw [r3.vinBad, r2.vinBad, r1.vinBad, hbad], fun hlen => ⟨?_, ?_, ?_⟩⟩
    · rw [Device.hasCause_setCause_ne _ _ (by decide), Device.hasCause_setCause_ne _ _ (by decide),
        Device.hasCause_setCause_self _ (by rw [hcs, hlen]; decide), decide_eq_true_eq]
    · rw [Device.hasCause_setCause_ne _ _ (by decide),
        Device.hasCause_setCause_self _ (by rw [Device.causes_setCause, List.length_set, hcs, hlen]; decide), r3.bucket, r2.bucket, r1.bucket]
      simp
    · rw [Device.hasCause_setCause_self _ (by rw [Device.causes_setCause, List.length_set, Device.causes_setCause, List.length_set, hcs, hlen]; decide)]
      simp
  · refine ⟨into s s.dev.clampEnforce, show execClampEnforce s = _ from onManagement_into hr rfl, fun d beyond hb => ?_⟩
    rw [State.into_dev, Device.duty_clampEnforce hc]
    rw [← Device.beyondLimits_iff] at hb
    unfold Device.dutyNext Device.lowNow
    refine ⟨fun h => ?_, fun h hlow => ?_, fun h hlow => ?_⟩
    · rw [if_pos (hb.1 h)]
    · rw [if_neg (fun g => h (hb.2 g)), if_neg (fun g => h (hb.2 g)), if_neg (by omega)]
    · rw [if_neg (fun g => h (hb.2 g)), if_neg (fun g => h (hb.2 g)), if_pos hlow]
  · refine ⟨into s s.dev.clampHandback, show execClampHandback s = _ from onDev_into hl rfl, ?_⟩
    rw [State.into_dev, Device.clampHandback, if_pos ⟨hc, List.all_eq_true.2 fun c h => by rw [hcs c h]; rfl, hcalm, hup, by rw [hth]; nofun⟩]
    exact ⟨rfl, rfl, fun d => Device.get_table s.dev.duty d⟩
  · refine ⟨into s s.dev.crownLoop, show execCrownLoop s = _ from onDev_into hl rfl, ?_⟩
    refine ⟨?_, fun d e he => ?_⟩
    · rw [State.into_dev, Device.crownLoop, if_neg (by rw [hup]; simp)]
      refine (Device.toNat_clampInt _).trans ?_
      rw [hroom, havg]
      split <;> rfl
    · rw [State.into_dev, Device.th_crownLoop hup, he, htj, hstk]
      exact Device.toNat_clampInt _
  · show execBonnetLoop ts s = _
    exact onDev_into hl (by rw [Device.bonnetLoop, if_pos hup])

end Sys2Proof.Machine
end

section
/-! Rings and packets (O40). -/

set_option Elab.async false

namespace Sys2Proof.Machine
open Sys2Proof.Safety

/-! ## Ring registers -/

namespace Device

/-- A write's reserved bits touch its own register, and the record of such writes. -/
theorem fld_writeReserved_ne (s : Device) (svc : Nat) {off : Nat} (w : W32) {f : Fld} (h : f.off ≠ off) (hs : f.off ≠ 0x8)
    (hu : f.off ≠ 0x10) : (s.writeReserved svc off w).fld f = s.fld f := by
  unfold writeReserved
  dsimp only
  split
  · rfl
  · split
    · exact congrArg (fun c : RegCopy => bitsOf c.val.toNat (f.lo + f.w - 1) f.lo) (Sparse.get_put_other _ _ _ _ h)
    · exact ((RegFile.fld_setFld_ne _ _ _ _ hu).trans (RegFile.fld_setFld_ne _ _ _ _ hu)).trans
        (RegFile.fld_event_ne _ _ _ hs (by rw [show RegFile.statOf R.GLB_STAT_RSV_WR.off = 0x8 from rfl]; exact hs))

theorem cmd_writeReserved (s : Device) (svc off : Nat) (w : W32) : (s.writeReserved svc off w).cmd = s.cmd := by
  unfold writeReserved
  dsimp only
  split
  · rfl
  · split <;> rfl

/-- The ring as it stands after the reserved bits of a doorbell. -/
theorem ring_doorbell (s : Device) (svc : Nat) (r : Fin 4) (w : W32) :
    (s.writeReserved svc (R.CMD_DB + 0x1000 * r.val) w).ringEn r = s.ringEn r ∧
    (s.writeReserved svc (R.CMD_DB + 0x1000 * r.val) w).ringSize r = s.ringSize r ∧
    (s.writeReserved svc (R.CMD_DB + 0x1000 * r.val) w).ring r = s.ring r := by
  have hr := r.isLt
  have en : (s.writeReserved svc (R.CMD_DB + 0x1000 * r.val) w).fld (R.CMD_RCTL_EN.nth r.val) = s.fld (R.CMD_RCTL_EN.nth r.val) := by
    refine fld_writeReserved_ne s svc w ?_ ?_ ?_ <;> simp only [Fld.nth, R.CMD_RCTL_EN, R.CMD_DB] <;> omega
  have size : (s.writeReserved svc (R.CMD_DB + 0x1000 * r.val) w).fld (R.CMD_RCTL_RLOG2.nth r.val) = s.fld (R.CMD_RCTL_RLOG2.nth r.val) := by
    refine fld_writeReserved_ne s svc w ?_ ?_ ?_ <;> simp only [Fld.nth, R.CMD_RCTL_RLOG2, R.CMD_DB] <;> omega
  refine ⟨congrArg (fun n => n == 1) en, congrArg (fun n => 2 ^ (16 + n)) size, ?_⟩
  rw [ring, cmd_writeReserved, ring]

/-- A doorbell of an enabled ring at a legal place. -/
theorem doorbell_legal {s : Device} {r : Fin 4} {w : W32} {tail : Nat} (ht : tail = w.toNat % 2 ^ 24) (he : s.ringEn r = true)
    (h32 : tail % 32 = 0) (hs : tail < s.ringSize r)
    (hq : ((s.ring r).tail + s.ringSize r - (s.ring r).head) % s.ringSize r ≤ (tail + s.ringSize r - (s.ring r).head) % s.ringSize r) :
    s.doorbell r w = s.onRing r fun q => { q with tail } := by
  subst ht
  rw [doorbell, if_neg (by rw [he]; simp)]
  dsimp only
  rw [if_neg (by omega)]

/-- A stopped ring that is enabled, and an enabled one that is disabled. -/
theorem rctlWrite_eq {s v : Device} {svc : Nat} {r : Fin 4} {w : W32}
    (hv : v = (fieldsAt (R.CMD_RCTL + 0x40 * r.val)).foldl (fun v f => if f.acc = .rwi ∧ f.lo ≠ 0 then
      v.takeField (R.CMD_RCTL + 0x40 * r.val) f (bitsOf w.toNat f.hi f.lo) 2 else v) (s.writeReserved svc (R.CMD_RCTL + 0x40 * r.val) w)) :
    (s.ringEn r = false → s.ringStopped r = true → w.getLsbD 0 = true →
      s.rctlWrite svc r w = ((v.setFld (R.CMD_RCTL_EN.nth r.val) 1).onRing r fun q => { replies := q.replies }).noteFull r) ∧
    (s.ringEn r = true → w.getLsbD 0 = false →
      s.rctlWrite svc r w = (v.setFld (R.CMD_RCTL_EN.nth r.val) 0).onRing r fun q => { q with fetching := false }) := by
  refine ⟨fun he hs hw => ?_, fun he hw => ?_⟩
  · rw [rctlWrite, ← hv, he, hw]
    dsimp only
    rw [if_pos hs]
  · rw [rctlWrite, ← hv, he, hw]
    rfl

end Device

/-! ## Packets -/

/-- A packet that Peak reads, with its number, and that no FENCE holds. -/
structure Read (t : State) (p : Pkt) : Prop where
  due : t.dev.packetDue p = true
  ok : p.readOk = true
  good : t.dev.badPacket p = false
  seq : p.seq = (t.dev.ring p.ring).expect

/-- The opcode that the checks see. -/
def seenOp (p : Pkt) (op : Nat) : Nat := (p.strange.map BitVec.toNat).getD op

/-- A packet that is read, up to what its opcode does. -/
theorem packet_read {t : State} {p : Pkt} {op : Nat} {body : PktRef → List Byte → State → State} (h : Read t p) :
    (seenOp p op = 0 → t.packet p op body = into t (passed t p)) ∧
    (seenOp p op ≠ 0 → ∀ st, t.dev.refusal? t.nv p (seenOp p op) = some st →
      t.packet p op body = into t ((passed t p).turnAway (Device.refOf p (seenOp p op)) st)) ∧
    (seenOp p op ≠ 0 → t.dev.refusal? t.nv p (seenOp p op) = none →
      t.packet p op body = body (Device.refOf p (seenOp p op)) (Device.payloadOf p) (into t (taken t p (seenOp p op)))) := by
  obtain ⟨hd, hr, hb, hs⟩ := h
  have eq := State.packet.eq_def t p op body
  dsimp only [State.onDevice] at eq
  rw [if_neg (by rw [hd]; simp), if_neg (by rw [hr]; simp), if_neg (by rw [hb]; nofun), if_neg (by rw [hs]; simp)] at eq
  refine ⟨fun h0 => ?_, fun h0 st hst => ?_, fun h0 hn => ?_⟩
  · rw [eq, if_pos (show (p.strange.map BitVec.toNat).getD op = 0 from h0)]
    rfl
  · rw [eq, if_neg (show ¬ (p.strange.map BitVec.toNat).getD op = 0 from h0)]
    unfold seenOp at hst
    rw [hst]
    rfl
  · rw [eq, if_neg (show ¬ (p.strange.map BitVec.toNat).getD op = 0 from h0)]
    unfold seenOp at hn
    rw [hn]
    rfl

/-- Settles O40: each write of a ring register and each kind of packet, on its path. -/
theorem ringCommandsComplete : Obligations.RingCommandsComplete := by
  intro s r w hl told
  obtain ⟨hen, hsize, hring⟩ := Device.ring_doorbell s.dev s.svc r w
  refine ⟨fun tail ht he h32 hs hq => ?_, fun he => ?_, fun v hv => ⟨fun he hst hw => ?_, fun he hw => ?_⟩,
    fun v hv => ⟨fun hf hn => ?_, fun h => ?_⟩, fun p hd hr hb hq => ⟨fun hst => ?_, fun op hst hop hh hlc hsh => ?_⟩⟩
  · show execDoorbell r w s = _
    exact onDev_into hl (Device.doorbell_legal ht (hen.trans he) h32 (by rw [hsize]; exact hs) (by rw [hsize, hring]; exact hq))
  · show execDoorbell r w s = _
    exact onDev_into hl (by rw [Device.doorbell, if_pos (by rw [hen, he]; nofun)])
  · show execRingEnable r w s = _
    exact onDev_into hl ((Device.rctlWrite_eq hv).1 he hst hw)
  · show execRingDisable r w s = _
    exact onDev_into hl ((Device.rctlWrite_eq hv).2 he hw)
  · show execStatusRingHead r w s = _
    exact onDev_into hl (by rw [Device.sheadWrite, ← hv, if_pos ⟨hf, by rw [hn]; nofun⟩, Device.noteFull, if_pos hf])
  · show execStatusRingHead r w s = _
    refine onDev_into hl ?_
    rw [Device.sheadWrite, ← hv, if_neg fun g => h.elim (fun h => Bool.false_ne_true (h.symm.trans g.1)) (fun h => g.2 h)]
  · show execNop p s = _
    have op0 : seenOp p 0x00 = 0 := by rw [seenOp, hst]; rfl
    rw [execNop, devPacket, onPacket, if_neg (by rw [hl]; nofun), (packet_read ⟨hd, hr, hb, hq⟩).1 op0]
  · show execNop p s = _
    have seen : seenOp p 0x00 = op.toNat := by rw [seenOp, hst]; rfl
    have ref : s.dev.refusal? s.nv p op.toNat = some BAD_OPCODE := by
      rw [Device.refusal?, if_neg (fun h => hlc h.1), if_neg (fun h => hh h.1), if_neg (fun h => h.1 hsh), if_pos (by rw [hst]; rfl)]
    rw [execNop, devPacket, onPacket, if_neg (by rw [hl]; nofun),
      (packet_read ⟨hd, hr, hb, hq⟩).2.1 (by omega) BAD_OPCODE (by rw [seen]; exact ref), seen]

end Sys2Proof.Machine
end

section
/-! Queries and the commands of jobs (O41). -/

set_option Elab.async false

namespace Sys2Proof.Machine
open Sys2Proof.Safety

/-! ## Accepted packets -/

/-- An accepted packet's opcode is one of the table. -/
theorem not_strange_of_accepts {s : State} {p : Pkt} {op : Nat} (h : Accepts s p op) : p.strange = none := by
  obtain ⟨-, -, -, -, -, hr⟩ := h
  cases hs : p.strange with
  | none => rfl
  | some x =>
    exfalso
    unfold Device.refusal? at hr
    rw [hs] at hr
    repeat' split at hr
    all_goals first
      | exact absurd hr (Option.some_ne_none _)
      | exact absurd rfl ‹¬ (some x).isSome = true›

/-- A packet that Peak takes reaches its command. -/
theorem onPacket_taken {s w : State} {p : Pkt} {op : Nat} {body : PktRef → List Byte → State → State} (h : Accepts s p op) (hop : op ≠ 0)
    (hw : body (Device.refOf p op) (Device.payloadOf p) (into s (taken s p op)) = w) : onPacket p op s body = .next w := by
  have seen : seenOp p op = op := by rw [seenOp, not_strange_of_accepts h]; rfl
  obtain ⟨hl, hd, hr, hb, hs, hn⟩ := h
  rw [onPacket, if_neg (by rw [hl]; nofun), (packet_read ⟨hd, hr, hb, hs⟩).2.2 (by rw [seen]; exact hop) (by rw [seen]; exact hn), seen, hw]

theorem devPacket_taken {s : State} {v w : Device} {p : Pkt} {op : Nat} {body : PktRef → List Byte → Device → Device} (h : Accepts s p op)
    (hop : op ≠ 0) (hv : v = taken s p op) (hw : body (Device.refOf p op) (Device.payloadOf p) v = w) :
    devPacket p op s body = .next (into s w) := by
  subst hv
  exact onPacket_taken h hop (by rw [← hw]; rfl)

/-! ## Replies and the rest of the command unit -/

namespace Device

/-- The command unit but for its rings and its interrupts, which is what a reply changes of it. -/
def quietCmd (s : Device) : Command := { s.cmd with rings := Quad.all {}, msix := [] }

theorem quietCmd_writeReply (s : Device) (r : Fin 4) : (s.writeReply r).quietCmd = s.quietCmd := by
  unfold writeReply
  split
  · rfl
  · split
    · rfl
    · extract_lets q s1 w s2 s3
      have h3 : s3.quietCmd = s.quietCmd := by
        dsimp only [s3]
        split <;> rfl
      split <;> exact h3

theorem quietCmd_flushN (r : Fin 4) : ∀ (n : Nat) (s : Device), (flushN r n s).quietCmd = s.quietCmd
  | 0, _ => rfl
  | n + 1, s => by rw [flushN, quietCmd_flushN r n, quietCmd_writeReply]

theorem quietCmd_queueReply (s : Device) (ref : PktRef) (st n : Nat) : (s.queueReply ref st n).quietCmd = s.quietCmd := by
  unfold queueReply
  split
  · rfl
  · exact quietCmd_flushN ..

theorem quietCmd_replyFree (s : Device) (ref : PktRef) (st : Nat) : (s.replyFree ref st).quietCmd = s.quietCmd :=
  quietCmd_queueReply ..

/-- A well-formed VERSION completes the handshake. -/
theorem version_shakes {s : Device} {nv : Nv} {ref : PktRef} {pl : List Byte} (hz : zeros pl 0x10 16 = true) (ha : field pl 8 8 % 64 = 0) :
    (s.version nv ref pl).cmd.handshake = true ∧ (s.version nv ref pl).cmd.shook = true ∧
      (s.version nv ref pl).cmd.mismatch = !versionsMatch s.manifest pl := by
  unfold version
  rw [if_neg (by rw [hz, ha]; simp)]
  extract_lets m ok s1 s2 s3
  have h := quietCmd_replyFree s3 ref (if ok = true then OK else VERSION_MISMATCH)
  exact ⟨congrArg Command.handshake h, congrArg Command.shook h, congrArg Command.mismatch h⟩

end Device

/-- A byte of a small word. -/
theorem field_byte {pl : List Byte} (h : field pl 0 8 ≤ 1) : field pl 0 1 = field pl 0 8 := by
  unfold field at h ⊢
  match pl with
  | [] => rfl
  | b :: rest =>
    simp only [List.drop_zero, List.take_succ_cons, leVal, List.take_zero] at h ⊢
    omega

/-- Settles O41: each command on the path its conditions choose. -/
theorem queryAndJobPacketsComplete : Obligations.QueryAndJobPacketsComplete := by
  intro s p v pl hpl
  subst hpl
  refine ⟨fun h hv hz ha => ?_, fun h hv => ?_, fun j h hv hj => ?_, fun h hv => ?_, fun ref hr h hv h0 hn hb hq => ?_, fun j h hv hj => ?_,
    fun ref hr h hv hn he => ⟨fun hf hs => ?_, fun hf => ?_⟩, fun h hv hn => ?_, fun ref hr h hv hn hb he hp hl => ?_,
    fun ref sid hr hs h hv hn he ha hlv => ?_⟩
  · subst hv
    exact ⟨_, show execVersion p s = _ from onPacket_taken h (by decide) rfl, Device.version_shakes hz ha⟩
  · show execStatus p s = _
    exact devPacket_taken h (by decide) hv rfl
  · show execJobQuery p s = _
    refine devPacket_taken h (by decide) hv ?_
    rw [Device.jobQuery, show (Device.refOf p 0x14).job = p.job from rfl, hj]
  · show execAcctRead p s = _
    exact devPacket_taken h (by decide) hv rfl
  · show execJobSubmit p s = _
    subst hr
    refine devPacket_taken h (by decide) hv ?_
    rw [Device.submit, show (Device.refOf p 0x10).job = p.job from rfl, if_neg (not_or_intro h0 (by rw [hn]; nofun)), if_neg (by rw [hb]; nofun), if_neg (by omega)]
  · show execJobWithdraw p s = _
    refine devPacket_taken h (by decide) hv ?_
    rw [Device.withdraw, show (Device.refOf p 0x11).job = p.job from rfl, hj]
  · show execJobYield p s = _
    subst hr
    refine devPacket_taken h (by decide) hv ?_
    have h1 := field_byte (pl := Device.payloadOf p) (by omega)
    rw [Device.yieldPacket, if_neg (by rw [hn, he]; simp), if_neg (by omega), if_neg (by omega), if_neg (by rw [hs]; nofun)]
  · show execYieldCancel p s = _
    subst hr
    refine devPacket_taken h (by decide) hv ?_
    have h1 := field_byte (pl := Device.payloadOf p) (by omega)
    rw [Device.yieldPacket, if_neg (by rw [hn, he]; simp), if_neg (by omega), if_pos (by omega)]
  · show execJobAbort p s = _
    exact devPacket_taken h (by decide) hv (by rw [Device.abort, if_pos hn])
  · show execSeqJoin p s = _
    subst hr
    refine devPacket_taken h (by decide) hv ?_
    rw [Device.seqJoin, if_neg (by rw [hn]; simp), if_neg (by rw [hb]; nofun), if_neg (by rw [he]; nofun), if_neg (by rw [hp]; nofun), if_neg (by omega)]
  · show execSeqLeave p s = _
    subst hr hs
    refine devPacket_taken h (by decide) hv ?_
    rw [Device.seqLeave, if_neg (by rw [hn, he]; simp), if_pos ⟨ha, by rw [hlv]; nofun⟩]

end Sys2Proof.Machine
end

section
/-! Commands that bring or take data (O42). -/

set_option Elab.async false

namespace Sys2Proof.Machine
open Sys2Proof.Safety

/-! ## Commands that bring or take data -/

namespace Device

/-- A directory that is staged as its RESHARD arrives. -/
theorem reshard_staged {s u : Device} {ref : PktRef} {pl image : List Byte} {r : Reshard} (hz : zeros pl 0x11 3 = true)
    (he : s.jobEnding = false) (hn : s.fab.reshard = none) (hep : BitVec.ofNat 8 (field pl 0x10 1) = s.fab.epoch + 1)
    (hr : r = { image := (image ++ List.replicate (field pl 8 8) 0).take (field pl 8 8), epoch := s.fab.epoch + 1,
                effStep := BitVec.ofNat 32 (field pl 0x14 4), ref })
    (hu : u = s.onFab (fun f => { f with reshard := some r })) :
    s.reshard ref pl image = if s.bandUp then u.stageDirectory (s.fab.epoch + 1) else u.forBand (.directory (s.fab.epoch + 1)) := by
  rw [reshard, if_neg (by rw [hz]; simp), if_neg (by rw [he]; nofun), if_neg (by rw [hn]; nofun), if_neg (not_not_intro hep), hep, ← hr, ← hu]
  exact congrArg (fun b : Bool => if b then u.stageDirectory (s.fab.epoch + 1) else u.forBand (.directory (s.fab.epoch + 1)))
    (by rw [hu]; rfl)

theorem stageDirectory_due {s u w : Device} {r : Reshard} (hu : u = s.onFab (fun f => { f with reshard := some r }))
    (hw : w = u.reshardAcked s.selfIdx r.epoch) :
    (∀ m, w.master = some m → u.stageDirectory r.epoch = w.send (.reshardAck m r.epoch)) ∧ (w.master = none → u.stageDirectory r.epoch = w) := by
  have due : u.fab.reshard.all (fun q => q.epoch != r.epoch) = false := by rw [hu]; simp [onFab]
  have here : u.selfIdx = s.selfIdx := by rw [hu]; rfl
  refine ⟨fun m hm => ?_, fun hm => ?_⟩
  all_goals
    rw [stageDirectory, if_neg (by rw [due]; nofun), here, ← hw]
    dsimp only
    rw [hm]

theorem deferActivation_calm {s : Device} {ref : PktRef} (h : s.pwr.emergency = false) : s.deferActivation ref = s := by
  rw [deferActivation, if_neg (by rw [h]; nofun)]

theorem hostRingSet_good {s : Device} {ref : PktRef} {pl : List Byte} {k : Nat} (hs : field pl 8 8 = 2 ^ k) (h24 : 24 ≤ k) (h40 : k ≤ 40) :
    s.hostRingSet ref pl = (s.onCmd fun c => { c with hostRing := some { base := field pl 0 8, size := 2 ^ k } }).replyFree ref OK := by
  have lo : 2 ^ 24 ≤ 2 ^ k := Nat.pow_le_pow_right (by decide) h24
  have hi : 2 ^ k ≤ 2 ^ 40 := Nat.pow_le_pow_right (by decide) h40
  rw [hostRingSet, hs, Nat.log2_two_pow, if_neg (by simp only [not_true_eq_false, or_false, ne_eq]; omega)]

theorem dsAck_done {s : Device} {ref : PktRef} {pl : List Byte} {h : HostRing} {done : List (Nat × Nat × RecordOut)} (hm : hostSink ∈ s.sinks)
    (hh : s.cmd.hostRing = some h) (ho : field pl 0 8 ≤ h.size) (hd : done = h.recs.takeWhile (recordBefore h (field pl 0 8))) :
    s.dsAck ref pl = (h.waiting.foldl (fun u w => u.hostRecord w.1 w.2)
      ((done.foldl (fun u x => u.hostAck x.2.2) s).onCmd fun c =>
        { c with hostRing := some { h with recs := h.recs.drop done.length, waiting := [] } })).reply ref OK done.length := by
  have sink : s.sinks.any (· == hostSink) = true := List.any_eq_true.2 ⟨_, hm, beq_self_eq_true _⟩
  rw [dsAck, if_neg (by rw [sink]; simp), hh]
  dsimp only
  rw [if_neg (by omega), ← hd]

end Device

/-- Settles O42: each command on the path its conditions choose. -/
theorem dataPacketsComplete : Obligations.DataPacketsComplete := by
  intro s p v pl hpl
  subst hpl
  refine ⟨fun image r u h hv hz he hn hep hr hu => ⟨fun hb w hw => ?_, fun hb => ?_⟩, fun h hv he => ?_, fun k h hv hs h24 h40 => ?_,
    fun h hv hm => ⟨fun hn => ?_, fun g done hg ho hd => ?_⟩, fun t data h hv ht => ?_, fun t o n h hv ht => ?_,
    fun bundle b k h hv hk h1 hbt hlen hz hb hf => ?_, fun k u h hv hk h1 hz hbt hg ha hem hu => ?_, fun h hv => ?_,
    fun set_ c h hv hc hi hr => ?_, fun h hv hd hq hc => ?_, fun h hv ht he ha => ?_⟩
  · show execReshard p image s = _
    refine devPacket_taken h (by decide) hv ?_
    have hre : r.epoch = v.fab.epoch + 1 := by rw [hr]
    rw [← hre] at hw ⊢
    obtain ⟨some_, none_⟩ := Device.stageDirectory_due hu hw
    rw [Device.reshard_staged hz he hn hep hr hu, if_pos hb, ← hre]
    cases hm : w.master with
    | some m => exact some_ m hm
    | none => exact none_ hm
  · show execReshard p image s = _
    refine devPacket_taken h (by decide) hv ?_
    rw [Device.reshard_staged hz he hn hep hr hu, if_neg (by rw [hb]; nofun)]
    rfl
  · show execBaseExport p s = _
    refine devPacket_taken h (by decide) hv ?_
    rw [Device.baseExport, if_neg (by rw [he]; nofun)]
  · show execDsHostRing p s = _
    exact devPacket_taken h (by decide) hv (Device.hostRingSet_good hs h24 h40)
  · show execDsAck p s = _
    have sink : v.sinks.any (· == Device.hostSink) = true := List.any_eq_true.2 ⟨_, hm, beq_self_eq_true _⟩
    exact devPacket_taken h (by decide) hv (by rw [Device.dsAck, if_neg (by rw [sink]; simp), hn])
  · show execDsAck p s = _
    exact devPacket_taken h (by decide) hv (Device.dsAck_done hm hg ho hd)
  · show execMemWrite p data s = _
    exact devPacket_taken h (by decide) hv (by rw [ht])
  · show execMemRead p o n s = _
    exact devPacket_taken h (by decide) hv (by rw [ht])
  · show execFwStage p bundle s = _
    subst hv
    refine onPacket_taken h (by decide) ?_
    have bad : ¬ (field (Device.payloadOf p) 0x10 1 > 1 ∨ (field (Device.payloadOf p) 0x10 1 = s.nv.boot ∧ ¬ s.nv.noBoot) ∨
        field (Device.payloadOf p) 8 8 > 2 ^ 23 ∨ ¬ zeros (Device.payloadOf p) 0x11 7) := by
      rw [← hk, hz]
      simp only [not_true_eq_false, or_false, not_or, not_and]
      exact ⟨by omega, fun e => absurd e hbt, by omega⟩
    rw [State.stage]
    dsimp only
    rw [if_neg bad, ← hb, hf, ← hk]
    rfl
  · show execFwActivate p s = _
    subst hv
    refine onPacket_taken h (by decide) ?_
    have bad : ¬ (field (Device.payloadOf p) 0 1 > 1 ∨ ¬ zeros (Device.payloadOf p) 1 7 ∨ field (Device.payloadOf p) 0 1 = s.nv.boot ∨
        ¬ s.nv.good (field (Device.payloadOf p) 0 1)) := by
      rw [← hk, hz, hg]
      simp only [not_true_eq_false, or_false, false_or, not_or]
      exact ⟨by omega, hbt⟩
    rw [State.activate]
    dsimp only
    rw [if_neg bad, if_neg (by rw [ha]; nofun), hu, ← hk]
    refine congrArg State.advanceActivation (congrArg (fun d => into s d) (Device.deferActivation_calm ?_))
    exact hem
  · show execCalRead p s = _
    subst hv
    exact onPacket_taken h (by decide) rfl
  · show execCalWrite p set_ s = _
    subst hv
    refine onPacket_taken h (by decide) ?_
    have written : CalSet.written set_ = c := hc.symm
    rw [State.calWrite, written]
    dsimp only
    rw [hi, hr]
    rfl
  · show execCalRestore p s = _
    exact devPacket_taken h (by decide) hv (by rw [Device.calRestore, if_neg (by rw [hd, hq, hc]; simp)])
  · show execAttest p s = _
    subst hv
    refine onPacket_taken h (by decide) ?_
    rw [State.attest, if_neg (not_or_intro ht he), if_neg (not_not_intro ha)]
    rfl

end Sys2Proof.Machine
end

section
/-! Lifecycle requests and resets by command (O43). -/

set_option Elab.async false

namespace Sys2Proof.Machine
open Sys2Proof.Safety

/-! ## Lifecycle requests -/

/-- A request that is signed, allowed and well formed is accepted. -/
theorem State.request_accepted {t : State} {ref : PktRef} {pl : List Byte} (hd : t.dev.cmd.dstate = .ready) (hq : t.dev.cmd.queue = [])
    (ha : t.dev.cmd.activation = none) (hc : t.dev.cmd.calRestore = none) (hs : t.requestSigned pl = true)
    (hal : t.requestAllowed (requestOf pl) = true) (hsh : State.requestShaped (requestOf pl) pl = true) :
    t.request ref pl = t.accept ref (requestOf pl) := by
  rw [State.request]
  rw [if_neg (by rw [hd, hq, ha, hc]; simp), if_neg (not_not_intro hs), if_neg (not_not_intro hal), if_neg (not_not_intro hsh)]

/-- An accepted LIFECYCLE packet renews the nonce behind what it does. -/
theorem onLifecycle_taken {s w : State} {p : Pkt} (h : Accepts s p 0x71)
    (hw : (into s (taken s p 0x71)).request (Device.refOf p 0x71) (Device.payloadOf p) = w) : onLifecycle p s = .next w.renewNonce := by
  have run : onPacket p 0x71 s (fun ref pl t => t.request ref pl) = .next w := onPacket_taken h (by decide) hw
  have strange := not_strange_of_accepts h
  obtain ⟨hl, hd, hr, hb, hs, -⟩ := h
  rw [onPacket, if_neg (by rw [hl]; nofun)] at run
  have takes : s.takesLifecycle p = true := by
    rw [State.takesLifecycle, strange, hd, hr, hb, hs]
    simp
  rw [onLifecycle, if_neg (by rw [hl]; nofun), State.lifecyclePacket]
  rw [if_pos takes, Host.Outcome.next.inj run]

/-- Settles O43: each request and reset on the path its conditions choose. -/
theorem lifecyclePacketsComplete : Obligations.LifecyclePacketsComplete := by
  intro s u p pl hpl
  subst hpl
  refine ⟨fun r ref href h hu hr hd hq ha hc hs hal hsh => ?_, fun h hclk hu => ⟨fun hv => ?_, fun hv => ?_⟩⟩
  · subst href hu hr
    have run {w : State} (hw : (into s (taken s p 0x71)).accept (Device.refOf p 0x71) (requestOf (Device.payloadOf p)) = w) :
        onLifecycle p s = .next w.renewNonce :=
      onLifecycle_taken h ((State.request_accepted hd hq ha hc hs hal hsh).trans hw)
    refine ⟨fun _ => ?_, fun ho => ?_, fun ho => ?_, fun ho => ?_⟩
    · show execAdvance p s = _
      exact run rfl
    · show execInstallIdCert p s = _
      exact run (by rw [State.accept, ho]; rfl)
    · show execRevokeRoot0 p s = _
      exact run (by rw [State.accept, ho]; rfl)
    · show execRaiseMinSv p s = _
      exact run (by rw [State.accept, ho]; rfl)
  · show execHostColdReset p s = _
    subst hu
    refine onPacket_taken h (by decide) ?_
    rw [State.hostReset, hv]
    exact if_neg (not_not_intro hclk)
  · show execHostWarmReset p s = _
    subst hu
    refine onPacket_taken h (by decide) ?_
    rw [State.hostReset, hv]
    exact if_neg (not_not_intro hclk)

end Sys2Proof.Machine
end

section
/-! The start and the end of a job (O44). -/

set_option Elab.async false

namespace Sys2Proof.Machine
open Sys2Proof.Safety

/-! ## Choosing a job -/

namespace Device

/-- The job that Peak takes. -/
theorem takeJob_chosen {s v : Device} {d : JobDesc} (hv : v = s.decayAll) (hc : v.choose = some d) :
    (d.rsid ≠ 0 → d.rsid = s.cmd.retained → s.takeJob = (v.onCmd fun c =>
      { c with queue := c.queue.erase d, job := some { desc := d, startFrm := v.frm.count, startUs := v.clockUs, wipes := 0 } }).setDState .starting) ∧
    (d.rsid = 0 ∨ d.rsid ≠ s.cmd.retained →
      (s.wiping = true → s.takeJob = (v.onCmd fun c =>
        { c with queue := c.queue.erase d, job := some { desc := d, startFrm := v.frm.count, startUs := v.clockUs, wipes := 2 } }).setDState .starting) ∧
      (s.wiping = false → s.takeJob = ((v.onCmd fun c =>
        { c with queue := c.queue.erase d, job := some { desc := d, startFrm := v.frm.count, startUs := v.clockUs, wipes := 1 } }).setDState
          .starting).wipeSet)) := by
  have hret : v.cmd.retained = s.cmd.retained := by
    rw [hv, decayAll]
    dsimp only [onCmd]
  have hregs : v.regs = s.regs := by
    rw [hv, decayAll]
    dsimp only [onCmd]
  have hwip : v.wiping = s.wiping := congrArg (fun r : RegFile => r.flag R.MEM_STAT_WIPING) hregs
  refine ⟨fun h0 hr => ?_, fun hk => ⟨fun hw => ?_, fun hw => ?_⟩⟩ <;> rw [takeJob, ← hv]
  · dsimp only
    rw [hc]
    dsimp only
    rw [if_pos (show d.rsid ≠ 0 ∧ d.rsid = v.cmd.retained from ⟨h0, hr.trans hret.symm⟩), if_neg (show ¬ 0 = 1 by decide)]
  · have hn : ¬ (d.rsid ≠ 0 ∧ d.rsid = v.cmd.retained) := fun g => hk.elim (fun e => g.1 e) (fun e => e (g.2.trans hret))
    dsimp only
    rw [hc]
    dsimp only
    rw [if_neg hn, if_pos (show v.wiping = true from hwip.trans hw), if_neg (show ¬ 2 = 1 by decide)]
  · have hn : ¬ (d.rsid ≠ 0 ∧ d.rsid = v.cmd.retained) := fun g => hk.elim (fun e => g.1 e) (fun e => e (g.2.trans hret))
    dsimp only
    rw [hc]
    dsimp only
    rw [if_neg hn, if_neg (show ¬ v.wiping = true by rw [hwip, hw]; nofun), if_pos (show 1 = 1 from rfl)]

/-! ## Starting a job -/

/-- What JOB_START does after each of its checks. -/
theorem startJob_spec {s : Device} {svc : Nat} {segs : List SegData} {j : Job} {v : Device × Bool} (hj : s.cmd.job = some j)
    (hv : v = s.loadAll svc (j.desc.segs.zip (segs ++ List.replicate j.desc.segs.length none))) :
    ((∃ k, k < 8 ∧ s.stackState k = 2) → s.startJob svc segs = s.endJob MEM_DEGRADED 0) ∧
    ((∀ k, k < 8 → s.stackState k ≠ 2) →
      (s.flag R.GLB_ERR_STAT_LATCHED = true → s.startJob svc segs = s.endJob JOB_FATAL s.err.latchCode) ∧
      (s.flag R.GLB_ERR_STAT_LATCHED = false →
        (v.1.jobEnding = true → s.startJob svc segs = v.1) ∧
        (v.1.jobEnding = false → (v.2 = false → s.startJob svc segs = v.1.endJob LOAD_ERROR 0) ∧
          (v.2 = true → s.startJob svc segs =
            ((if j.desc.self = 0xFFFF then v.1 else v.1.setFld R.FAB_SELF_INDEX j.desc.self.toNat).latchModes.enterRunning j.desc))))) := by
  have eq := startJob.eq_def s svc segs
  rw [hj] at eq
  dsimp only at eq
  rw [← hv] at eq
  refine ⟨fun ⟨k, hk, h2⟩ => ?_, fun hn => ⟨fun hl => ?_, fun hl => ⟨fun he => ?_, fun he => ⟨fun ho => ?_, fun ho => ?_⟩⟩⟩⟩
  · exact eq.trans (if_pos (List.any_eq_true.2 ⟨k, List.mem_range.2 hk, by rw [h2]; rfl⟩))
  all_goals
    have no : ¬ ((List.range 8).any fun k => s.stackState k == 2) = true := fun h => by
      obtain ⟨k, hk, h2⟩ := List.any_eq_true.1 h
      exact hn k (List.mem_range.1 hk) (eq_of_beq h2)
    rw [eq, if_neg no]
  · rw [if_pos hl]
  · rw [if_neg (by rw [hl]; nofun), if_pos he]
  · rw [if_neg (by rw [hl]; nofun), if_neg (by rw [he]; nofun), if_pos (by rw [ho]; nofun)]
  · rw [if_neg (by rw [hl]; nofun), if_neg (by rw [he]; nofun), if_neg (by rw [ho]; simp)]

/-! ## The end of a job -/

/-- Joins that are returned leave the job's index. -/
theorem fabricJob_returnJoins {s : Device} {j : Job} (hj : s.cmd.job = some j) :
    s.returnJoins.fabricJob = decide (j.desc.self ≠ 0xFFFF) := by
  have h := jobPart_returnJoins (s := s) (job := some j) (by rw [jobPart, hj])
  have hjob : s.returnJoins.cmd.job = some { j with joinsReturned := j.joinsReturned + s.cmd.joins.length } := congrArg Prod.fst h
  rw [fabricJob, hjob]
  dsimp only
  rw [bne, decide_not, beq_eq_decide]

theorem closeJob_done {s v w : Device} {j : Job} {kept : Bool} (hj : s.cmd.job = some j) (hp : j.phase = .ending false)
    (hm : s.mayClose = true) (hk : kept = (j.desc.keep && j.desc.rsid != 0))
    (hv : v = (if j.desc.self = 0xFFFF then s.returnJoins else s.returnJoins.departAll))
    (hw : w = ((v.answerJob kept).refuseRest).wipeBetween) :
    s.closeJob = (((if kept then w else w.wipeSet).onJob fun j => { j with phase := .ending true }).clearJob).settle := by
  have left : (if s.returnJoins.fabricJob then s.returnJoins.departAll else s.returnJoins) = v := by
    rw [fabricJob_returnJoins hj, hv]
    by_cases h : j.desc.self = 0xFFFF
    · rw [if_pos h, if_neg (by rw [decide_eq_true_eq]; exact not_not_intro h)]
    · rw [if_neg h, if_pos (decide_eq_true h)]
  rw [closeJob, hj]
  dsimp only
  rw [if_neg (by rw [hp, hm]; simp), left, ← hk, ← hw]

/-! ## The end of a wipe -/

theorem wiping_cleared (s : Device) : (s.setFld R.MEM_STAT_WIPING 0).wiping = false := by
  have h : (s.setFld R.MEM_STAT_WIPING 0).fld R.MEM_STAT_WIPING = 0 := RegFile.fld_setFld_self _ _ _ (by decide) (by decide)
  exact (congrArg (fun n => n == 1) h)

theorem wipeDone_spec {s v : Device} (hw : s.wiping = true) (hd : s.cmd.dstate ≠ .notReady) (hv : v = s.setFld R.MEM_STAT_WIPING 0) :
    (s.procs.q2.up = false → s.wipeDone = v.runTransfers) ∧
    (s.procs.q2.up = true → (s.cmd.dstate ≠ .starting → s.wipeDone = v.chargeJob.runTransfers) ∧
      (s.cmd.dstate = .starting → s.wipeDone = v.startWipe.runTransfers)) := by
  have off : v.wiping = false := hv ▸ wiping_cleared s
  have up : v.procs = s.procs := by rw [hv]; rfl
  have st : v.cmd = s.cmd := by rw [hv]; rfl
  have eq : s.wipeDone = v.afterWipe.runTransfers := by
    rw [wipeDone, if_neg (by rw [hw]; simpa using hd), hv]
  refine ⟨fun h => ?_, fun h => ⟨fun hs => ?_, fun hs => ?_⟩⟩ <;> rw [eq, afterWipe]
  · rw [if_pos (.inr (by rw [up, h]; nofun))]
  · rw [if_neg (by rw [off, up, h]; simp), if_neg (by rw [st]; exact hs)]
  · rw [if_neg (by rw [off, up, h]; simp), if_pos (by rw [st]; exact hs)]

end Device

/-- Settles O44: each event of a job, of a wipe and of the host link, on its path. -/
theorem jobEventsComplete : Obligations.JobEventsComplete := by
  intro s hl
  refine ⟨fun d v u hm hv hc hu => ?_, fun segs hm hmis => ?_, fun segs j v hm hmis hj hv => ?_, fun j kept v w hj hp hm hk hv hw => ?_,
    fun hw hd v hv => ?_, ?_, fun w r hw => ?_, ?_⟩
  · obtain ⟨h1, h2⟩ := Device.takeJob_chosen hv hc
    have run {w : Device} (h : s.dev.takeJob = w) : exec .jobChoose s = .next (into s w) := by
      show execJobChoose s = _
      exact onDev_into hl (by rw [Device.chooseJob, if_pos hm, h])
    rw [hu, hu, hu]
    exact ⟨fun h0 hr => run (h1 h0 hr), fun hk => ⟨fun hw => run ((h2 hk).1 hw), fun hw => run ((h2 hk).2 hw)⟩⟩
  · show execJobStart segs s = _
    rw [execJobStart, if_neg (by rw [hl, hm]; simp), if_pos hmis]
  · obtain ⟨h1, h2⟩ := Device.startJob_spec hj hv
    have run {w : Device} (h : s.dev.startJob s.svc segs = w) : exec (.jobStart segs) s = .next (into s w) := by
      show execJobStart segs s = _
      rw [execJobStart, if_neg (by rw [hl, hm]; simp), if_neg (by rw [hmis]; nofun), h]
    refine ⟨fun h => run (h1 h), fun hn => ⟨fun hf => run ((h2 hn).1 hf), fun hf => ⟨fun he => run (((h2 hn).2 hf).1 he), fun he => ?_⟩⟩⟩
    obtain ⟨h3, h4⟩ := ((h2 hn).2 hf).2 he
    exact ⟨fun ho => run (h3 ho), fun ho => run (h4 ho)⟩
  · show execEndingExportDone s = _
    exact onDev_into hl (Device.closeJob_done hj hp hm hk hv hw)
  · obtain ⟨h1, h2⟩ := Device.wipeDone_spec hw hd hv
    have run {w : Device} (h : s.dev.wipeDone = w) : exec .wipeComplete s = .next (into s w) := by
      show execWipeComplete s = _
      exact onDev_into hl h
    exact ⟨fun h => run (h1 h), fun h => ⟨fun hs => run ((h2 h).1 hs), fun hs => run ((h2 h).2 hs)⟩⟩
  · show execPcieLinkDown s = _
    exact onDev_into hl rfl
  · show execPcieLinkUp w r s = _
    exact onDev_into hl (by rw [Device.linkUp_, if_neg (not_not_intro hw)])
  · show execPcieHotReset s = _
    exact onDev_into hl rfl

end Sys2Proof.Machine
end

section
/-! What a message changes, and records (O39). -/

set_option Elab.async false

namespace Sys2Proof.Machine
open Sys2Proof.Safety

/-! ## What sending a message changes -/

/-- Nothing but the ports, and what has been handed to them, has changed, and no port has come up. -/
def OnlyPorts (s t : Device) : Prop :=
  ∃ (ports : Sparse PortSt) (sent : List Msg), t = s.onFab (fun f => { f with ports, sent }) ∧ ∀ p, (t.port p).up = true → (s.port p).up = true

namespace OnlyPorts

variable {s t u : Device}

theorem refl (s : Device) : OnlyPorts s s := ⟨s.fab.ports, s.fab.sent, rfl, fun _ h => h⟩

theorem trans (h : OnlyPorts s t) (g : OnlyPorts t u) : OnlyPorts s u := by
  obtain ⟨p, m, rfl, hp⟩ := h
  obtain ⟨q, n, rfl, hq⟩ := g
  exact ⟨q, n, rfl, fun i hi => hp i (hq i hi)⟩

theorem setPort (s : Device) (p : Nat) (x : PortSt) (hx : x.up = true → (s.port p).up = true) : OnlyPorts s (s.setPort p x) := by
  refine ⟨_, s.fab.sent, rfl, fun q hq => ?_⟩
  by_cases h : q = p
  · subst h
    rw [Device.port_setPort_self] at hq
    exact hx hq
  · rwa [Device.port_setPort_ne s x h] at hq

theorem foldl {α : Type} {f : Device → α → Device} (hf : ∀ s x, OnlyPorts s (f s x)) : ∀ (l : List α) (s : Device), OnlyPorts s (l.foldl f s)
  | [], s => refl s
  | x :: l, s => (hf s x).trans (foldl hf l _)

theorem sendOne {o : Nat} (h : s.sendOne o = some t) : OnlyPorts s t := by
  obtain ⟨z, -, hz⟩ := List.exists_of_findSome?_eq_some h
  dsimp only at hz
  split at hz
  · cases hz
  · split at hz
    · cases hz
    · split at hz
      · cases hz
        refine trans ?_ (setPort _ _ _ ?_)
        · exact setPort _ _ _ fun h => h
        · exact fun h => h
      · cases hz
        refine trans ?_ (setPort _ _ _ ?_)
        · exact setPort _ _ _ fun h => h
        · exact fun h => h

theorem pumpN : ∀ (n : Nat) (s : Device), OnlyPorts s (Device.pumpN n s)
  | 0, s => refl s
  | n + 1, s => by
    unfold Device.pumpN
    split
    case h_1 t ht =>
      obtain ⟨o, -, ho⟩ := List.exists_of_findSome?_eq_some ht
      exact (sendOne ho).trans (pumpN n t)
    case h_2 => exact refl s

theorem absorb (s : Device) (p : Nat) : OnlyPorts s (s.absorb p) := by
  unfold Device.absorb
  refine foldl (fun v x => setPort v p _ ?_) _ s
  exact fun h => h

theorem pump (s : Device) : OnlyPorts s s.pump := by
  unfold Device.pump
  exact (foldl absorb _ s).trans (pumpN _ _)

theorem send (s : Device) (m : Msg) : OnlyPorts s (s.send m) := by
  have put (v : Device) (p : Nat) :
      OnlyPorts v (if (v.port p).up then v.setPort p { (v.port p) with out := (v.port p).out ++ [m] } else v) := by
    split
    · exact setPort _ _ _ fun h => h
    · exact refl v
  have noted : OnlyPorts s (s.onFab fun f => { f with sent := f.sent ++ [m] }) := ⟨s.fab.ports, _, rfl, fun _ h => h⟩
  unfold Device.send
  split
  · exact refl s
  · exact (noted.trans (foldl put _ _)).trans (pump _)

theorem reroute (s : Device) (m : Msg) : OnlyPorts s (s.reroute m) := by
  unfold Device.reroute
  split
  · exact setPort _ _ _ fun h => h
  · exact refl s

end OnlyPorts

/-! ## Records -/

/-- What the records of exports are: neither a message nor the host's ring changes it. -/
def Device.exports (s : Device) : List Nat × List Nat × List RecordOut := (s.fab.exportDue, s.fab.baseDue, s.fab.records)

theorem OnlyPorts.exports {s t : Device} (h : OnlyPorts s t) : t.exports = s.exports := by
  obtain ⟨p, m, rfl, -⟩ := h
  rfl

namespace Device

theorem exports_hostRecord (s : Device) (r : RecordOut) (bytes : List Byte) : (s.hostRecord r bytes).exports = s.exports := by
  unfold hostRecord
  split
  · rfl
  · split
    · rfl
    · split <;> rfl

theorem exports_foldl {α : Type} {f : Device → α → Device} (hf : ∀ s x, (f s x).exports = s.exports) : ∀ (l : List α) (s : Device),
    (l.foldl f s).exports = s.exports
  | [], _ => rfl
  | x :: l, s => (exports_foldl hf l _).trans (hf s x)

/-- The record that `exportShard` makes of what is due. -/
theorem exports_export {s : Device} {e : Nat} (he : e ∈ s.fab.exportDue) : (s.export_ e).exports =
    (s.fab.exportDue.filter (· != e), s.fab.baseDue.filter (· != e), s.fab.records ++ [{
      entry := e, version := ((s.fab.ran.find? fun r => r.entry == e).map ShardRun.step).getD (s.entryVersion e), sinks := s.sinks }]) := by
  have due : s.fab.exportDue.any (· == e) = true := List.any_eq_true.2 ⟨e, he, beq_self_eq_true e⟩
  rw [export_, if_neg (not_not_intro due)]
  refine (exports_foldl (fun v k => ?_) _ _).trans rfl
  split
  · exact exports_hostRecord ..
  · exact (OnlyPorts.send ..).exports

/-- A failed takeover is posted by the master, or told to it. -/
theorem takeoverFailed_spec (s : Device) (code : W16) :
    (s.master = some s.selfIdx → s.takeoverFailed code = s.post code 2 fabUnit (BitVec.ofNat 64 s.selfIdx)) ∧
    (∀ m, s.master = some m → m ≠ s.selfIdx → s.takeoverFailed code = s.send (.restoreFailed m code)) := by
  refine ⟨fun h => ?_, fun m h hn => ?_⟩ <;> rw [takeoverFailed, h]
  · exact if_pos rfl
  · exact if_neg hn

end Device

/-- Settles O39: each command of the records and the restore, on its path. -/
theorem streamCommandsComplete : Obligations.StreamCommandsComplete := by
  intro s hl
  refine ⟨fun e l n he => ?_, fun peer host v k hk => ⟨fun r hr => ?_, fun hn => ?_⟩, fun hr hb => ⟨fun rs z hz => ?_, fun hm => ?_, fun m hm hne => ?_⟩⟩
  · refine ⟨into s (s.dev.exportShard l n), show execDsExport l n s = _ from onDev_into hl rfl, ?_⟩
    have ex : (s.dev.exportShard l n).exports = (s.dev.export_ e).exports := by rw [Device.exportShard, he]
    rw [Device.exports_export (List.mem_of_find?_eq_some he)] at ex
    exact ⟨congrArg Prod.fst ex, congrArg (fun x => x.2.1) ex, congrArg (fun x => x.2.2) ex⟩
  · subst hk
    show execRecordAck peer host v s = _
    exact onDev_into hl (by rw [Device.ackRecord, hr])
  · subst hk
    show execRecordAck peer host v s = _
    exact onDev_into hl (by rw [Device.ackRecord, hn])
  · show execRestoreComplete (.restored rs) s = _
    subst hz
    exact onDev_into hl ((if_pos hb).trans ((if_neg (by rw [hr]; simp)).trans (if_neg (not_not_intro hr))))
  · have run {x : RestoreOutcome} {w : Device} (h : s.dev.restore x = w) : exec (.restoreComplete x) s = .next (into s w) := by
      show execRestoreComplete x s = _
      exact onDev_into hl (by rw [if_pos hb, h])
    have go : ¬ (¬ s.dev.fab.restoring ∧ ¬ (s.dev.fab.takeover.isSome ∧ s.dev.master = some s.dev.selfIdx)) := by rw [hr]; simp
    refine ⟨run ?_, run ?_, run ?_⟩ <;> rw [Device.restore, if_neg go] <;> exact (Device.takeoverFailed_spec ..).1 hm
  · have run {x : RestoreOutcome} {w : Device} (h : s.dev.restore x = w) : exec (.restoreComplete x) s = .next (into s w) := by
      show execRestoreComplete x s = _
      exact onDev_into hl (by rw [if_pos hb, h])
    have go : ¬ (¬ s.dev.fab.restoring ∧ ¬ (s.dev.fab.takeover.isSome ∧ s.dev.master = some s.dev.selfIdx)) := by rw [hr]; simp
    refine ⟨run ?_, run ?_, run ?_⟩ <;> rw [Device.restore, if_neg go] <;> exact (Device.takeoverFailed_spec ..).2 m hm hne

end Sys2Proof.Machine
end

section
/-! Accesses of the host (O46). -/

set_option Elab.async false

namespace Sys2Proof.Machine
open Sys2Proof.Safety

/-! ## Accesses of the host -/

/-- A bus access while the core logic runs. -/
theorem onBus_into {s v : State} {f : State → State} (hl : Live s) (h : f s = v) : onBus s f = .next v := by
  rw [onBus_live f hl, h]

/-- A write that finds a register. -/
theorem busWrite_register {s : Device} {svc off : Nat} {v : W32} (h : (regAt off).isSome = true) : s.busWrite svc off v = s.regWrite svc off v :=
  if_pos h

/-- An offset of a register is mapped for writes. -/
theorem mapped_register {t : State} {off : Nat} (h : (regAt off).isSome = true) : t.mapped off true = true := by
  show ((regAt off).isSome || _) = true
  rw [h, Bool.true_or]

/-- A narrow write is recorded, and discarded. -/
theorem hostWrite_narrow {t : State} {off : Nat} {w : Width} {v : W64} (hw : w = .b16 ∨ w = .b8) (h : (regAt (off / 4 * 4)).isSome = true) :
    t.hostWrite off w v = into t (t.dev.event R.GLB_STAT_WIDTH_ERR) := by
  have m := mapped_register (t := t) h
  obtain rfl | rfl := hw
  · rw [State.hostWrite.eq_def]
    exact congrArg (into t) (if_pos m)
  · rw [State.hostWrite.eq_def]
    exact congrArg (into t) (if_pos m)

/-- The window's data register is read as what its address names. -/
theorem busRead_window {t : State} {v : W32} {u : Device} (h : t.dev.windowRead t.svc t.dev.indSpace t.dev.indOff = some (v, u)) :
    t.busRead R.IND_DATA = (v, into t u.indAdvance) := by
  have here : (regAt R.IND_DATA).isSome = true := by decide
  have read : t.regRead R.IND_DATA false = (v, into t u.indAdvance) := by
    rw [State.regRead, if_pos rfl, Device.indRead, h]
  have low : decide (R.IND_DATA % 0x100000 ≥ 0x80000) = false := by decide
  rw [State.busRead, low]
  exact (if_pos here).trans read

/-- Settles O46: each access on the path its conditions choose. -/
theorem registerCommandsComplete : Obligations.RegisterCommandsComplete := by
  intro s off hl
  refine ⟨fun v => ?_, fun g d u h => ?_, fun v h => ⟨?_, ?_, ?_⟩, ⟨?_, ?_⟩, fun v h => ?_, fun w h => ?_, fun h => ⟨?_, ?_⟩, ?_, fun v => ?_,
    fun v u h => ?_, fun v u h => ?_, ?_, ?_⟩
  · show execCommitPost v s = _
    exact onDev_into hl rfl
  · show execCommitApply g d u s = _
    exact onDev_into hl (if_pos h)
  · show execRegisterWrite off .b32 v s = _
    exact onBus_into hl (congrArg (into s) (busWrite_register h))
  · show execRegisterWrite off .b16 v s = _
    exact onBus_into hl (hostWrite_narrow (.inl rfl) h)
  · show execRegisterWrite off .b8 v s = _
    exact onBus_into hl (hostWrite_narrow (.inr rfl) h)
  · show execStatusRead off .b32 s = _
    exact onBus_into hl rfl
  · show execCounterLoRead off s = _
    exact onBus_into hl rfl
  · show execStatusWriteBack off v s = _
    exact onBus_into hl (congrArg (into s) (busWrite_register h))
  · have un : ¬ ([off / 4 * 4].any fun o => s.mapped o w) = true := by simp [h]
    cases w with
    | true =>
      refine ⟨into s (s.dev.unmappedAccess (off / 4 * 4)), show execUnmappedAccess off true .b32 s = _ from onBus_into hl ?_, rfl⟩
      exact if_neg un
    | false =>
      refine ⟨(into s (s.dev.unmappedAccess (off / 4 * 4))).complete 0, show execUnmappedAccess off false .b32 s = _ from onBus_into hl ?_, rfl⟩
      exact if_neg un
  · have un : ¬ ([off / 4 * 4].any fun o => s.mapped o true) = true := by simp [h]
    show execUnmappedAccess off true .b16 s = _
    exact onBus_into hl (if_neg un)
  · have un : ¬ ([off / 4 * 4].any fun o => s.mapped o true) = true := by simp [h]
    show execUnmappedAccess off true .b8 s = _
    exact onBus_into hl (if_neg un)
  · show execParitySweep s = _
    exact onDev_into hl rfl
  · show execIndAddrWrite v s = _
    exact onDev_into hl rfl
  · show execIndDataWrite v s = _
    exact onDev_into hl (by rw [Device.indWrite, h])
  · show execIndDataRead s = _
    refine onBus_into hl ?_
    show ((s.busRead R.IND_DATA).2).complete ((s.busRead R.IND_DATA).1.setWidth 64) = _
    rw [busRead_window h]
  · show execIndTimeout true s = _
    exact onBus_into hl rfl
  · show execIndTimeout false s = _
    exact onBus_into hl rfl

end Sys2Proof.Machine
end

section
/-! What the loss of a peer leaves alone. -/

set_option Elab.async false

namespace Sys2Proof.Machine
open Sys2Proof.Safety

namespace Device

/-! ## What the loss of a peer leaves alone -/

/-- A property of the device that is kept by every write but one that changes the processors, the activation, the peer table or whether a
port is up. -/
structure Tame (P : Device → Prop) : Prop where
  regs : ∀ s x, P s → P { s with regs := x }
  err : ∀ s x, P s → P { s with err := x }
  cmd : ∀ s x, x.activation = s.cmd.activation → P s → P { s with cmd := x }
  lining : ∀ s x, P s → P { s with lining := x }
  host : ∀ s x, P s → P { s with hostMem := x }
  free : ∀ s x, P s → P { s with freeCnt := x }
  i3c : ∀ s x, P s → P { s with i3c := x }
  frm : ∀ s x, P s → P { s with frm := x }
  dies : ∀ s x, P s → P { s with dies := x }
  mem : ∀ s x, P s → P { s with mem := x }
  fab : ∀ s x, x.peers = s.fab.peers → x.ports = s.fab.ports → P s → P { s with fab := x }
  ports : ∀ s t, OnlyPorts s t → P s → P t

namespace Tame

variable {P : Device → Prop} (h : Tame P)
include h

theorem setFld {s : Device} (f : Fld) (x : Nat) : P s → P (s.setFld f x) := h.regs _ _
theorem event {s : Device} (f : Fld) : P s → P (s.event f) := h.regs _ _
theorem count {s : Device} (f : Fld) (n : Nat) : P s → P (s.count f n) := h.regs _ _
theorem onErr {s : Device} (f : ErrQueue → ErrQueue) : P s → P (s.onErr f) := h.err _ _
theorem onRing {s : Device} (r : Fin 4) (f : Ring → Ring) : P s → P (s.onRing r f) := h.cmd s _ rfl
theorem onJob {s : Device} (f : Job → Job) : P s → P (s.onJob f) := h.cmd s _ rfl
theorem raise {s : Device} (v : Nat) : P s → P (s.raise v) := h.cmd s _ rfl
theorem setHost {s : Device} (a : Nat) (bs : List Byte) : P s → P (s.setHost a bs) := h.host _ _
theorem setLining {s : Device} (a : Nat) (bs : List Byte) : P s → P (s.setLining a bs) := h.lining _ _
theorem freeWord {s : Device} : P s → P s.freeWord.2 := h.free _ _

omit h in
theorem ite {c : Prop} {_ : Decidable c} {a b : Device} (ha : P a) (hb : P b) : P (if c then a else b) := by
  split
  · exact ha
  · exact hb

omit h in
theorem foldl {α : Type} {f : Device → α → Device} (hf : ∀ s x, P s → P (f s x)) : ∀ (l : List α) {s : Device}, P s → P (l.foldl f s)
  | [], _, hs => hs
  | x :: l, _, hs => foldl hf l (hf _ x hs)

/-! ### Replies, the end of a job and errors -/

theorem setDState {s : Device} (d : DState) (hs : P s) : P (s.setDState d) := by
  unfold Device.setDState
  exact ite hs (h.raise _ (h.cmd _ _ rfl hs))

theorem writeReply {s : Device} (r : Fin 4) (hs : P s) : P (s.writeReply r) := by
  unfold Device.writeReply
  split
  · exact hs
  · split
    · exact hs
    · extract_lets q s1 w s2 s3
      have h2 : P s2 := h.onRing _ _ (h.setHost _ _ hs)
      have h3 : P s3 := ite (h.raise _ h2) h2
      exact ite (h.event _ h3) h3

theorem flushN (r : Fin 4) : ∀ (n : Nat) {s : Device}, P s → P (Device.flushN r n s)
  | 0, _, hs => hs
  | n + 1, _, hs => flushN r n (h.writeReply r hs)

theorem flush {s : Device} (r : Fin 4) (hs : P s) : P (s.flush r) := h.flushN r _ hs

theorem flushAll {s : Device} (hs : P s) : P s.flushAll := foldl (fun _ r hs => h.flush r hs) _ hs

theorem queueReply {s : Device} (ref : PktRef) (st n : Nat) (hs : P s) : P (s.queueReply ref st n) := by
  unfold Device.queueReply
  exact ite hs (h.flush _ (h.onRing _ _ hs))

theorem reply {s : Device} (ref : PktRef) (st n : Nat) (hs : P s) : P (s.reply ref st n) := h.queueReply _ _ _ (h.onRing _ _ hs)

theorem replyFree {s : Device} (ref : PktRef) (st : Nat) (hs : P s) : P (s.replyFree ref st) := h.reply _ _ _ (h.freeWord hs)

theorem returnJoins {s : Device} (hs : P s) : P s.returnJoins :=
  foldl (fun _ _ hs => h.replyFree _ _ hs) _ (h.onJob _ (h.cmd s _ rfl hs))

theorem stopUnits {s : Device} : P s → P s.stopUnits := h.dies _ _

theorem endJob {s : Device} (st code : W16) (hs : P s) : P (s.endJob st code) := by
  unfold Device.endJob
  split
  · exact hs
  · split
    · exact hs
    · exact h.returnJoins (h.setDState _ (h.stopUnits (h.frm _ _ (h.onJob _ hs))))

theorem finish {s : Device} (i : Nat) (e : ErrEntry) : P s → P (s.finish i e) := h.onErr _

theorem act {s : Device} (i : Nat) (e : ErrEntry) (hs : P s) : P (s.act i e) := by
  unfold Device.act
  extract_lets s1 s2 s3
  have h2 : P s2 := h.endJob _ _ (h.onErr _ hs)
  have h3 : P s3 := ite (h.onErr _ (h.setFld _ _ h2)) h2
  exact ite (h.finish _ _ hs) (ite (h.finish _ _ h3) h3)

theorem settleOnce {s : Device} (hs : P s) : P s.settleOnce := by
  unfold Device.settleOnce
  split
  · split
    · exact h.finish _ _ hs
    · split
      · exact ite (h.act _ _ (h.onErr _ hs)) hs
      · exact hs
  · exact h.act _ _ hs
  · exact hs

theorem settleN : ∀ (n : Nat) {s : Device}, P s → P (Device.settleN n s)
  | 0, _, hs => hs
  | n + 1, _, hs => settleN n (h.settleOnce hs)

theorem settle {s : Device} (hs : P s) : P s.settle := h.settleN _ hs

theorem alerting {s : Device} (f : Device → Device) (hs : P (f s)) : P (s.alerting f) := by
  unfold Device.alerting
  exact ite (h.i3c _ _ hs) hs

theorem create {s : Device} (i : Nat) (e : ErrEntry) (hs : P s) : P (s.create i e) := by
  unfold Device.create
  exact ite (h.setLining _ _ (h.onJob _ (h.raise _ (h.event _ (h.alerting _ (h.onErr _ hs))))))
    (h.onJob _ (h.raise _ (h.event _ (h.alerting _ (h.onErr _ hs)))))

theorem lose {s : Device} (code unit : W16) (hs : P s) : P (s.lose code unit) := by
  unfold Device.lose
  extract_lets s1
  have h1 : P s1 := h.count _ _ hs
  split
  · exact h.onErr _ h1
  · exact h.setLining _ _ (h.create _ _ h1)

theorem post {s : Device} (code : W16) (sev : Nat) (unit : W16) (detail : W64) (hs : P s) : P (s.post code sev unit detail) := by
  unfold Device.post
  split
  · exact h.onErr _ hs
  · refine h.settle ?_
    split
    · exact h.create _ _ hs
    · exact h.lose _ _ hs

theorem fabWarn {s : Device} (code : W16) (n : Nat) (hs : P s) : P (s.fabWarn code n) := by
  unfold Device.fabWarn
  exact ite (h.post _ _ _ _ hs) hs

/-! ### Memory -/

theorem onDie {s : Device} (d : Die) (f : DieState → DieState) : P s → P (s.onDie d f) := h.dies _ _
theorem onAdders {s : Device} (d : Die) (f : Adders → Adders) : P s → P (s.onAdders d f) := h.onDie d _
theorem onGroup {s : Device} (d : Die) (gid : Nat) (f : Group → Group) : P s → P (s.onGroup d gid f) := h.onAdders d _

theorem setMemory {s : Device} (sp : Space) (m : Memory) (hs : P s) : P (s.setMemory sp m) := by
  unfold Device.setMemory
  split
  · exact h.onDie _ _ hs
  · exact h.onDie _ _ hs
  · exact h.mem _ _ hs
  · exact h.mem _ _ hs

theorem writeBytes {s : Device} (sp : Space) (a : Nat) (bs : List Byte) : P s → P (s.writeBytes sp a bs) := h.setMemory _ _
theorem setNear {s : Device} (a n v : Nat) : P s → P (s.setNear a n v) := h.writeBytes _ _ _

theorem ringLog {s : Device} (base size len : Nat) (next wraps : Fld) (e : List Byte) (hs : P s) :
    P (s.ringLog base size len next wraps e).1 := by
  unfold Device.ringLog
  dsimp only
  split
  · exact hs
  · split
    · exact h.count _ _ (h.setFld _ _ (h.writeBytes _ _ _ hs))
    · exact h.setFld _ _ (h.writeBytes _ _ _ hs)

theorem logRefused {s : Device} (a : Nat) (hs : P s) : P (s.logRefused a) :=
  h.post _ _ _ _ (h.count _ _ (h.event _ (h.event _ hs)))

theorem memLog {s : Device} (x : LogItem) (hs : P s) : P (s.memLog x) := by
  unfold Device.memLog
  extract_lets e base size place i mem s1
  have h1 : P s1 := h.mem _ _ hs
  refine ite (h.logRefused _ hs) (ite (h.ringLog _ _ _ _ _ _ hs) (ite ?_ ?_))
  · exact h.count _ _ (h.setFld _ _ h1)
  · exact h.setFld _ _ h1

theorem uncorrectable {s : Device} (x : LogItem) (sev : Nat) (hs : P s) : P (s.uncorrectable x sev) :=
  h.post _ _ _ _ (h.count _ _ (h.event _ (h.memLog _ hs)))

theorem failAccess {s : Device} (far : Bool) (a : Nat) (unit : W16) (sev : Nat) (hs : P s) : P (s.failAccess far a unit sev) := by
  unfold Device.failAccess
  exact ite (h.uncorrectable _ _ (ite hs (h.event _ hs))) (h.uncorrectable _ _ hs)

theorem recording {s : Device} (unit : W16) (xs : List (Space × Nat × Nat)) {f : Device → Device} (hf : ∀ s, P s → P (f s)) (hs : P s) :
    P (s.recording unit xs f) := by
  unfold Device.recording
  split
  · exact h.failAccess _ _ _ _ hs
  · exact hf _ hs

/-! ### Groups -/

theorem onFab {s : Device} {f : Fabric → Fabric} (hp : (f s.fab).peers = s.fab.peers := by rfl) (hq : (f s.fab).ports = s.fab.ports := by rfl)
    (hs : P s) : P (s.onFab f) := h.fab s _ hp hq hs

theorem completeIf {s : Device} (d : Die) (gid : Nat) (hs : P s) : P (s.completeIf d gid) := by
  unfold Device.completeIf
  split
  · exact hs
  · split
    · exact hs
    · extract_lets a s1 s2 s3
      have h1 : P s1 := h.recording _ _ (fun _ hv => h.writeBytes _ _ _ hv) hs
      have h2 : P s2 := h.recording _ _ (fun _ hv => h.setNear _ _ _ hv) h1
      have h3 : P s3 := h.onAdders _ _ h2
      split
      · exact ite (h.onFab rfl rfl h3) h3
      · exact h3

theorem keyError {s : Device} (d : Die) (g : Group) (k : Nat) (hs : P s) : P (s.keyError d g k) := by
  unfold Device.keyError
  exact h.post _ _ _ _ (h.completeIf _ _ (ite (h.onGroup _ _ _ (h.event _ hs)) (h.event _ hs)))

theorem noteSkip {s : Device} (g : Group) (k : Nat) (hs : P s) : P (s.noteSkip g k) := by
  unfold Device.noteSkip
  split
  · exact ite (h.onFab rfl rfl hs) hs
  · exact hs

theorem skip {s : Device} (d : Die) (gid key : Nat) (epoch : Byte) (hs : P s) : P (s.skip d gid key epoch) := by
  have late : P s.late := h.count _ _ hs
  unfold Device.skip
  split
  · exact h.onAdders _ _ late
  · refine ite (h.onAdders _ _ late) (ite (h.onAdders _ _ (h.keyError _ _ _ hs)) ?_)
    split
    · exact h.onAdders _ _ (h.completeIf _ _ (h.onGroup _ _ _ (h.noteSkip _ _ hs)))
    · exact h.onAdders _ _ hs
    · exact h.onAdders _ _ late
    · exact h.onAdders _ _ hs
    · exact h.onAdders _ _ hs

/-! ### Messages, and what the loss of a peer sets off -/

theorem send {s : Device} (m : Msg) : P s → P (s.send m) := h.ports _ _ (OnlyPorts.send s m)

theorem dropped {s : Device} (n : Nat) (hs : P s) : P (s.dropped n) := h.fabWarn _ _ (h.count _ _ (h.event _ hs))

theorem abandonMb {s : Device} (x : Stuck) (hs : P s) : P (s.abandonMb x) := by
  unfold Device.abandonMb
  exact ite hs (foldl (fun _ _ hv => h.send _ hv) _ (h.count _ _ (h.onFab rfl rfl hs)))

theorem skipKeysOf {s : Device} (peer : Nat) (hs : P s) : P (s.skipKeysOf peer) := by
  have one (v : Device) (x : Die × Group × Nat) (key : Nat) (hv : P v) :
      P (if ((v.group? x.1 x.2.1.gid).map fun g => (g.key key).state == .unresolved).getD false then v.skip x.1 x.2.1.gid key x.2.1.epoch else v) :=
    ite (h.skip _ _ _ _ hv) hv
  exact foldl (fun v x hv => foldl (fun u k hu => one _ x _ (one u x k hu)) _ hv) _ hs

theorem dropSums {s : Device} (owner : Nat) (hs : P s) : P (s.dropSums owner) :=
  foldl (fun _ _ hv => h.dropped _ hv) _ (h.onFab rfl rfl hs)

theorem partition {s : Device} (hs : P s) : P s.partition := by
  unfold Device.partition
  exact ite hs (ite hs (ite hs (h.post _ _ _ _ hs)))

/-- What follows once a peer that is gone is marked so. -/
theorem afterGone {s : Device} (peer st : Nat) (ws : Waits) (hs : P s) :
    P (ws.foldl Device.abandonMb (((((if st = 3 then s.onFab fun f => { f with whole := f.whole.filter (· != peer) } else s).event
      R.FAB_STAT_PEER_LOST).fabWarn 0x0401 peer).skipKeysOf peer).dropSums peer)) :=
  foldl (fun _ x hv => h.abandonMb x hv) _ (h.dropSums _ (h.skipKeysOf _ (h.fabWarn _ _ (h.event _ (ite (h.onFab rfl rfl hs) hs)))))

end Tame
end Device
end Sys2Proof.Machine
end

section
/-! Peers (O37). -/

set_option Elab.async false

namespace Sys2Proof.Machine
open Sys2Proof.Safety

theorem Memory.readLE_congr {m m' : Memory} {a b n : Nat} (h : ∀ i, i < n → m.read (a + i) = m'.read (b + i)) : m.readLE a n = m'.readLE b n := by
  refine congrArg leVal ?_
  induction n generalizing a b with
  | zero => rfl
  | succ n ih =>
    rw [Memory.readBytes, Memory.readBytes, show m.read a = m'.read b from h 0 (by omega)]
    refine congrArg _ (ih fun i hi => ?_)
    have := h (i + 1) (by omega)
    rwa [show a + (i + 1) = a + 1 + i by omega, show b + (i + 1) = b + 1 + i by omega] at this

namespace Device

/-! ## The peer table -/

theorem peers_tame (m : Memory) : Tame fun s => s.fab.peers = m where
  regs _ _ h := h
  err _ _ h := h
  cmd _ _ _ h := h
  lining _ _ h := h
  host _ _ h := h
  free _ _ h := h
  i3c _ _ h := h
  frm _ _ h := h
  dies _ _ h := h
  mem _ _ h := h
  fab _ _ hp _ h := hp.trans h
  ports s t ht h := by
    obtain ⟨p, n, rfl, -⟩ := ht
    exact h

/-- A byte of a peer's entry, once written. -/
theorem peerByte_setPeer (s : Device) (p o v : Nat) : (s.setPeer p o 1 v).peerByte p o = v % 256 := by
  show ((s.fab.peers.writeLE (32 * p + o) 1 v).read (32 * p + o)).toNat = _
  have h := Memory.readLE_writeLE s.fab.peers (32 * p + o) 1 v
  simpa [Memory.readLE, Memory.readBytes, leVal] using h

/-- The state of a peer that is gone. -/
theorem peerState_peerGone {s : Device} {p st : Nat} {ws : Waits} (hd : s.peerDead p = false) (h0 : s.peerState p ≠ 0) (hst : st < 256) :
    ((s.peerGone p st ws).partition).peerState p = st := by
  unfold peerGone
  rw [if_neg (by rw [hd]; simpa using h0)]
  extract_lets s1 s2 s3
  have marked : s3.peerByte p 8 = st := (peerByte_setPeer s2 p 8 st).trans (Nat.mod_eq_of_lt hst)
  have hp := (peers_tame s3.fab.peers).partition ((peers_tame s3.fab.peers).afterGone p st ws rfl)
  exact (congrArg (fun m : Memory => (m.read (32 * p + 8)).toNat) hp).trans marked

/-! ## Routes -/

/-- Only places of the peer table that hold routes have changed. -/
def OnlyRoutes (s t : Device) : Prop :=
  ∃ peers : Memory, t = s.onFab (fun f => { f with peers }) ∧ ∀ p o, o < 10 → peers.read (32 * p + o) = s.fab.peers.read (32 * p + o)

theorem OnlyRoutes.refl (s : Device) : OnlyRoutes s s := ⟨s.fab.peers, rfl, fun _ _ _ => rfl⟩

theorem OnlyRoutes.trans {s t u : Device} (h : OnlyRoutes s t) (g : OnlyRoutes t u) : OnlyRoutes s u := by
  obtain ⟨m, rfl, hm⟩ := h
  obtain ⟨n, rfl, hn⟩ := g
  exact ⟨n, rfl, fun p o ho => (hn p o ho).trans (hm p o ho)⟩

theorem OnlyRoutes.setPeer (s : Device) (p : Nat) {o n : Nat} (v : Nat) (ho : 10 ≤ o) (hn : o + n ≤ 32) : OnlyRoutes s (s.setPeer p o n v) :=
  ⟨_, rfl, fun _ _ _ => Memory.read_writeLE_out (by omega)⟩

theorem onlyRoutes_setRoutes (s : Device) : OnlyRoutes s s.setRoutes := by
  unfold setRoutes
  split
  · exact .refl s
  · refine List.foldlRecOn (motive := fun t => OnlyRoutes s t) _ _ (.refl s) fun t ht p _ => ?_
    split
    · exact ht
    · exact ((ht.trans (.setPeer t p _ (by decide) (by decide))).trans (.setPeer _ p _ (by decide) (by decide))).trans
        (.setPeer _ p _ (by decide) (by decide))

/-! ## Takeover -/

/-- The entry of a spare moved to a lost index. -/
def moveEntry (s : Device) (lost spare : Nat) : Device :=
  let at_ (o n : Nat) : Nat := s.fab.peers.readLE (32 * spare + o) n
  ((((s.event R.FAB_STAT_TAKEOVER).setPeer lost 0 8 (at_ 0 8)).setPeer lost 0x0A 6 (at_ 0x0A 6)).setPeer lost 0x10 8
    (at_ 0x10 8)).setPeer lost 0x18 6 (at_ 0x18 6)

/-- The lost index has the spare's device ID. -/
theorem id_moveEntry (s : Device) (lost spare : Nat) :
    (s.moveEntry lost spare).fab.peers.readLE (32 * lost) 8 = s.fab.peers.readLE (32 * spare) 8 := by
  have lt := readLE_lt s.fab.peers (32 * spare) 8
  have first := Memory.readLE_writeLE s.fab.peers (32 * lost) 8 (s.fab.peers.readLE (32 * spare) 8)
  rw [Nat.mod_eq_of_lt (show _ < 256 ^ 8 from lt)] at first
  rw [← first]
  refine Memory.readLE_congr fun i hi => ?_
  refine (Memory.read_writeLE_out (by omega)).trans ((Memory.read_writeLE_out (by omega)).trans (Memory.read_writeLE_out (by omega)))

/-- The takeover itself, but for the routes that follow. -/
theorem takeOver_eq {s : Device} {lost spare : Nat} (hd : s.peerDead lost = true) (h4 : s.peerState spare = 4) :
    ∃ t u : Device, s.takeOver lost spare = u.setRoutes ∧ t.fab.takeover = some (lost, spare) ∧
      t.fab.peers = (s.moveEntry lost spare).fab.peers.clear (32 * spare) 32 ∧
      u.fab.takeover = t.fab.takeover ∧ u.fab.peers = t.fab.peers ∧ (s.selfIdx = spare → u.fab.restoring = true) := by
  have self : (s.moveEntry lost spare).selfIdx = s.selfIdx := RegFile.fld_event_ne _ _ _ (by decide) (by decide)
  unfold takeOver
  rw [if_neg (by rw [hd, h4]; simp)]
  extract_lets at_ s1 name s2 s3
  refine ⟨s2, s3, rfl, rfl, rfl, ?_⟩
  by_cases h : s2.selfIdx = spare
  · have e : s3 = (s2.setFld R.FAB_SELF_INDEX lost).onFab fun f => { f with restoring := true } := if_pos h
    rw [e]
    exact ⟨rfl, rfl, fun _ => rfl⟩
  · have e : s3 = s2 := if_neg h
    rw [e]
    exact ⟨rfl, rfl, fun g => absurd (self.trans g) h⟩

theorem takeOver_spec {s : Device} {lost spare : Nat} (hd : s.peerDead lost = true) (h4 : s.peerState spare = 4) :
    (s.takeOver lost spare).fab.takeover = some (lost, spare) ∧ (s.takeOver lost spare).peerState spare = 0 ∧
    (s.takeOver lost spare).fab.peers.readLE (32 * lost) 8 = s.fab.peers.readLE (32 * spare) 8 ∧
    (s.selfIdx = spare → (s.takeOver lost spare).fab.restoring = true) := by
  have ne : lost ≠ spare := fun e => by
    subst e
    unfold peerDead at hd
    rw [h4] at hd
    exact absurd hd (by decide)
  obtain ⟨t, u, eq, htk, hpe, hut, hup, hre⟩ := takeOver_eq hd h4
  obtain ⟨m, routes, hm⟩ := onlyRoutes_setRoutes u
  rw [eq, routes]
  rw [hup, hpe] at hm
  refine ⟨hut.trans htk, ?_, ?_, hre⟩
  · show (m.read (32 * spare + 8)).toNat = 0
    rw [hm spare 8 (by decide), Memory.read_clear, if_neg (by omega)]
    rfl
  · rw [← id_moveEntry s lost spare]
    refine Memory.readLE_congr fun i hi => ?_
    show m.read (32 * lost + i) = _
    rw [hm lost i (by omega), Memory.read_clear, if_pos (by omega)]

/-- The spare frames of a lost member are over, at the tick master. -/
theorem spareExpiry_due {s : Device} {p sp : Nat} (hn : s.fld R.FAB_CTL_SPARE_FRAMES ≠ 0) (hm : s.master = some s.selfIdx)
    (hp : s.peerMember p = true) (hd : s.peerDead p = true) (ht : s.fab.takeover = none) (hb : s.bandUp = true)
    (hl : s.fld R.FAB_CTL_SPARE_FRAMES ≤ Sparse.get 0 p s.fab.lostTicks) (hs : s.firstSpare = some sp) (hk : s.sinks ≠ []) :
    s.spareExpiry p = (s.takeOver p sp).send (.takeover p sp) := by
  have go : ¬ (s.fld R.FAB_CTL_SPARE_FRAMES = 0 ∨ s.master ≠ some s.selfIdx ∨ ¬ s.peerMember p ∨ ¬ s.peerDead p ∨ s.fab.takeover.isSome ∨
      ¬ s.bandUp ∨ Sparse.get 0 p s.fab.lostTicks < s.fld R.FAB_CTL_SPARE_FRAMES) := by
    rw [hm, hp, hd, ht, hb]
    simp only [ne_eq, not_true_eq_false, Option.isSome_none, Bool.false_eq_true, false_or, not_or]
    exact ⟨hn, by omega⟩
  rw [spareExpiry, if_neg go, hs]
  exact if_neg hk

end Device

/-- Settles O37: each event of a peer on the path its conditions choose. -/
theorem peerCommandsComplete : Obligations.PeerCommandsComplete := by
  intro s peer hl
  refine ⟨fun x ws => ⟨?_, fun ha hb => ?_⟩, fun ws hd h0 => ⟨?_, fun hs => ?_⟩, fun ws hs => ?_, fun sp hb => ?_, fun sp hb hd h4 => ?_,
    fun sp hn hm hp hd ht hb hlt hs hk => ?_⟩
  · show execLinkDown x ws s = _
    exact onDev_into hl rfl
  · show execLinkUp ⟨x.from_, x.port⟩ ⟨x.partner, x.partnerPort⟩ s = _
    exact onDev_into hl (if_neg (by rw [ha, hb]; simp))
  · refine ⟨into s ((s.dev.peerGone peer.val 3 ws).partition), show execDeparted ⟨peer, ws⟩ s = _ from onDev_into hl rfl, ?_⟩
    exact Device.peerState_peerGone hd h0 (by decide)
  · refine ⟨into s ((s.dev.peerGone peer.val 2 ws).partition), show execLost ⟨peer, ws⟩ s = _ from onDev_into hl (if_neg hs), ?_⟩
    exact Device.peerState_peerGone hd h0 (by decide)
  · show execLost ⟨peer, ws⟩ s = _
    exact onDev_into hl (if_pos hs)
  · show execTakeover peer sp s = _
    exact onDev_into hl (if_neg (by rw [hb]; nofun))
  · exact ⟨into s (s.dev.takeOver peer.val sp.val), show execTakeover peer sp s = _ from onDev_into hl (if_pos hb), Device.takeOver_spec hd h4⟩
  · show execSpareFramesExpiry peer s = _
    exact onDev_into hl (Device.spareExpiry_due hn hm hp hd ht hb hlt hs hk)

end Sys2Proof.Machine
end

section
/-! Tile work that writes no tensor (O12). -/

set_option Elab.async false

namespace Sys2Proof.Machine
open Sys2Proof.Safety

/-- What a map holds at a key is its default or listed. -/
theorem Sparse.get_cases {α : Type} {d : α} (k : Nat) : ∀ m : Sparse α, get d k m = d ∨ (k, get d k m) ∈ m
  | [] => .inl rfl
  | (a, v) :: m => by
    unfold get
    split
    · next h => exact .inr (h ▸ List.mem_cons_self ..)
    · exact (get_cases k m).imp_right (List.mem_cons_of_mem _)

/-- An image of four of a kind that one of them does not change. -/
theorem Quad.map_set {α β : Type} (q : Quad α) (i : Fin 4) (x : α) {g : α → β} (h : g x = g (q.get i)) : (q.set i x).map g = q.map g := by
  match i with
  | 0 => exact congrArg (fun y => (⟨y, g q.q1, g q.q2, g q.q3⟩ : Quad β)) h
  | 1 => exact congrArg (fun y => (⟨g q.q0, y, g q.q2, g q.q3⟩ : Quad β)) h
  | 2 => exact congrArg (fun y => (⟨g q.q0, g q.q1, y, g q.q3⟩ : Quad β)) h
  | 3 => exact congrArg (fun y => (⟨g q.q0, g q.q1, g q.q2, y⟩ : Quad β)) h

namespace Device

/-! ## The registers of memory, while an error is posted -/

/-- The places of the memory system's registers. -/
def memPlace (off : Nat) : Prop := 0x5000000 ≤ off ∧ off < 0x6000000

/-- The memory system's register at a place reads as it did. -/
abbrev Same (s : Device) (off : Nat) (t : Device) : Prop := t.regs.liveAt off = s.regs.liveAt off

section
variable {s t : Device} {off : Nat}

theorem Same.setFld (h : Same s off t) (f : Fld) (x : Nat) (hf : off ≠ f.off) : Same s off (t.setFld f x) :=
  (t.regs.liveAt_setFld_ne f x hf).trans h

theorem Same.event (h : Same s off t) (f : Fld) (hf : off ≠ f.off) (hs : off ≠ RegFile.statOf f.off) : Same s off (t.event f) :=
  ((RegFile.liveAt_setFld_ne _ f _ hf).trans (RegFile.liveAt_setFld_ne t.regs (RegFile.seqFld (RegFile.statOf f.off)) _ hs)).trans h

theorem Same.count (h : Same s off t) (f : Fld) (n : Nat) (hf : off ≠ f.off) : Same s off (t.count f n) := h.setFld f _ hf

theorem Same.foldl {α : Type} {f : Device → α → Device} (hf : ∀ u x, Same s off u → Same s off (f u x)) (xs : List α) (h : Same s off t) :
    Same s off (xs.foldl f t) := List.foldlRecOn (motive := Same s off) _ _ h fun u hu x _ => hf u x hu

theorem Same.setDState (h : Same s off t) (x : DState) : Same s off (t.setDState x) := by
  unfold Device.setDState
  split <;> exact h

theorem memPlace.ne {n : Nat} (hm : memPlace off) (h : n < 0x5000000) : off ≠ n := by
  obtain ⟨hlo, -⟩ := hm
  omega

variable (hm : memPlace off)
include hm

theorem Same.writeReply (h : Same s off t) (r : Fin 4) : Same s off (t.writeReply r) := by
  have place : ∀ r : Fin 4, (R.CMD_RSTAT_SFULL.nth r.val).off < 0x5000000 ∧ RegFile.statOf (R.CMD_RSTAT_SFULL.nth r.val).off < 0x5000000 := by
    decide
  unfold Device.writeReply
  split
  · exact h
  · split
    · exact h
    · dsimp only
      repeat' split
      all_goals first | exact Same.event h _ (hm.ne (place r).1) (hm.ne (place r).2) | exact h

theorem Same.flushN (r : Fin 4) : ∀ (n : Nat) {t : Device}, Same s off t → Same s off (Device.flushN r n t)
  | 0, _, h => h
  | n + 1, _, h => flushN r n (h.writeReply hm r)

theorem Same.replyFree (h : Same s off t) (ref : PktRef) (st : Nat) : Same s off (t.replyFree ref st) := by
  unfold Device.replyFree Device.reply Device.queueReply
  dsimp only
  split
  · exact h
  · exact Same.flushN hm ref.ring _ h

theorem Same.returnJoins (h : Same s off t) : Same s off t.returnJoins :=
  Same.foldl (fun _ x hu => hu.replyFree hm x.ref _) _ h

theorem Same.endJob (h : Same s off t) (st code : W16) : Same s off (t.endJob st code) := by
  unfold Device.endJob
  split
  · exact h
  · split
    · exact h
    · refine Same.returnJoins hm (Same.setDState ?_ _)
      exact h

theorem Same.act (h : Same s off t) (i : Nat) (e : ErrEntry) : Same s off (t.act i e) := by
  unfold Device.act
  split
  · exact h
  · dsimp only
    have ended := Same.endJob hm (t := t.onErr fun q => q.setSlot i (some { e with state := .active })) h JOB_FATAL e.code
    split
    · split <;> exact Same.setFld ended _ _ (hm.ne (by decide))
    · split <;> exact ended

theorem Same.settle (h : Same s off t) : Same s off t.settle := by
  have once {u : Device} (hu : Same s off u) : Same s off u.settleOnce := by
    unfold settleOnce
    repeat' split
    · exact hu
    · exact Same.act hm (t := u.onErr _) hu _ _
    · exact hu
    · exact hu
    · exact Same.act hm hu _ _
    · exact hu
  have many (n : Nat) : ∀ {u : Device}, Same s off u → Same s off (settleN n u) := by
    induction n with
    | zero => exact fun hu => hu
    | succ n ih => exact fun hu => ih (once hu)
  exact many 192 h

theorem Same.create (h : Same s off t) (i : Nat) (e : ErrEntry) : Same s off (t.create i e) := by
  have place : off ≠ (statusFld e.sev).off ∧ off ≠ RegFile.statOf (statusFld e.sev).off := by
    unfold statusFld
    split
    · exact ⟨hm.ne (by decide), hm.ne (by decide)⟩
    · split <;> exact ⟨hm.ne (by decide), hm.ne (by decide)⟩
  have made : Same s off (t.alerting fun s => s.onErr fun q => { q.setSlot i (some { e with seq := t.err.nextSeq }) with nextSeq := q.nextSeq + 1 }) := by
    unfold alerting
    dsimp only
    split <;> exact h
  have := made.event (statusFld e.sev) place.1 place.2
  unfold Device.create
  dsimp only
  split <;> exact this

/-- Posting an error leaves the registers of the memory system as they are. -/
theorem Same.post (h : Same s off t) (code : W16) (sev : Nat) (unit : W16) (detail : W64) : Same s off (t.post code sev unit detail) := by
  unfold Device.post
  split
  · exact h
  · dsimp only
    refine Same.settle hm ?_
    split
    · exact Same.create hm h _ _
    · have counted := h.count R.GLB_ERR_LOST_COUNT 1 (hm.ne (by decide))
      unfold Device.lose
      dsimp only
      split
      · exact counted
      · exact Same.create hm counted _ _

end

/-! ## What tile work leaves -/

section
variable {s : Device}

/-- A die's own state, but for its tile memory and its scratch. -/
theorem framed_onDie (s : Device) (d : Die) {f : DieState → DieState} (ht : (f (s.die d)).tile = (s.die d).tile)
    (hs : (f (s.die d)).scratch = (s.die d).scratch) : (s.onDie d f).framed = s.framed := by
  have dies := Quad.map_set s.dies d (f (s.die d)) (g := fun d => (d.tile, d.scratch)) (Prod.ext ht hs)
  show (s.mem.near, s.mem.far, s.mem.ilv, (s.dies.set d (f (s.die d))).map (fun d => (d.tile, d.scratch)), _) = _
  rw [dies]
  rfl

theorem framed_onMitt (s : Device) (d : Die) (m : Nat) (f : Mitt → Mitt) : (s.onMitt d m f).framed = s.framed := framed_onDie s d rfl rfl
theorem framed_onCuff (s : Device) (d : Die) (f : Cuff → Cuff) : (s.onCuff d f).framed = s.framed := framed_onDie s d rfl rfl
theorem framed_setFld (s : Device) (f : Fld) (x : Nat) : (s.setFld f x).framed = s.framed := rfl
theorem framed_count (s : Device) (f : Fld) (n : Nat) : (s.count f n).framed = s.framed := rfl

theorem framed_foldl {α : Type} {f : Device → α → Device} (hf : ∀ u x, (f u x).framed = u.framed) (xs : List α) (s : Device) :
    (xs.foldl f s).framed = s.framed := List.foldlRecOn (motive := fun u => u.framed = s.framed) _ _ rfl fun u hu x _ => (hf u x).trans hu

theorem framed_mittEvent (s : Device) (d : Die) (f : Fld) : (s.mittEvent d f).framed = s.framed := by
  unfold mittEvent
  dsimp only
  split
  · exact framed_post _ _ _ _ _
  · rfl

theorem framed_cuffEvent (s : Device) (d : Die) (f : Fld) : (s.cuffEvent d f).framed = s.framed := by
  unfold cuffEvent
  dsimp only
  split
  · exact framed_post _ _ _ _ _
  · rfl

theorem framed_reportTile (s : Device) (d : Die) (m : Nat) (t : Tile) : (s.reportTile d m t).framed = s.framed := by
  have first : (if t.kind.isInt && t.slots.any (·.ovf) then (s.mittEvent d R.MITT_STAT_INT_OVF).setOvfMap d m else s).framed = s.framed := by
    split
    · exact framed_mittEvent s d _
    · rfl
  unfold reportTile
  dsimp only
  split
  · exact (framed_mittEvent _ d _).trans first
  · exact first

theorem framed_placeTile (s : Device) (d : Die) (m : Nat) (old new : Tile) (q : Bool) : (s.placeTile d m old new q).framed = s.framed :=
  (framed_onMitt _ d m _).trans (framed_reportTile s d m new)

theorem framed_stageBlocks (s : Device) (d : Die) (m : Nat) (a b : TDesc) (ta tb : Bool) (af bf : Fmt) (rows cols k0 n : Nat) :
    (s.stageBlocks d m a b ta tb af bf rows cols k0 n).framed = s.framed := by
  unfold stageBlocks
  split
  · rfl
  · exact framed_onMitt s d m _

theorem framed_stageScales (s : Device) (d : Die) (m : Nat) (x : Mma) (af bf : Fmt) (rows cols k : Nat) :
    (s.stageScales d m x af bf rows cols k).framed = s.framed := by
  unfold stageScales
  split
  · rfl
  · exact framed_onMitt s d m _

theorem framed_staged (s : Device) (d : Die) (m : Nat) (x : Mma) (af bf : Fmt) (rows cols k0 n : Nat) :
    (s.staged d m x af bf rows cols k0 n).framed = s.framed := by
  unfold staged
  split
  · rfl
  · exact (framed_stageScales _ d m x af bf rows cols _).trans (framed_stageBlocks s d m _ _ _ _ af bf rows cols k0 n)

theorem framed_refuseMitt (s : Device) (d : Die) (a : W64) : (s.refuseMitt d a).framed = s.framed :=
  (framed_deaf s).postIllegal (s := s.event _) _ _ rfl

/-! ## Commits at a tile boundary -/

theorem framed_copyFault (s : Device) (off : Nat) : (s.copyFault off).framed = s.framed := (framed_deaf s).configFault (s := s.event _) _ _ rfl

theorem framed_unitApplied (s : Device) (g : Nat) (d : Die) (u : Nat) : (s.unitApplied g d u).framed = s.framed := by
  unfold unitApplied
  split
  · rfl
  · dsimp only
    split <;> rfl

theorem framed_srApply (s : Device) (d : Die) (m : Nat) : (s.srApply d m).framed = s.framed := by
  unfold srApply
  dsimp only
  split
  · rfl
  · split
    · exact (framed_setFld _ _ _).trans (framed_onMitt s d m _)
    · exact framed_onMitt s d m _

theorem framed_mittApplied (s : Device) (d : Die) (m : Nat) : (s.mittApplied d m).framed = s.framed :=
  (framed_unitApplied _ 2 d m).trans (framed_srApply s d m)

theorem framed_mittApply (s : Device) (d : Die) (m : Nat) : (s.mittApply d m).framed = s.framed := by
  have checked (u : Device) (off : Nat) : (if (u.regs.pendAt off).ok off then u else u.copyFault off).framed = u.framed := by
    split
    · rfl
    · exact framed_copyFault u off
  have noted (u : Device) : (u.noteSwitch d m).framed = u.framed := framed_onMitt u d m _
  unfold mittApply
  extract_lets s1 s2 s3
  have upTo : s3.framed = s.framed := (noted s2).trans ((checked s1 _).trans (checked s _))
  split
  · exact (framed_srApply s3 d m).trans upTo
  · exact (framed_mittApplied s3 d m).trans upTo

/-- A mitt at a boundary. -/
theorem framed_boundary (s : Device) (d : Die) (m : Nat) : (s.applyUnit 2 d m).framed = s.framed := by
  unfold applyUnit
  split
  · exact framed_mittApply s d m
  · rfl

/-! ## An MMA without taps -/

theorem framed_closeBatch (s : Device) (d : Die) (h : Bool) : (s.closeBatch d h).framed = s.framed := by
  unfold closeBatch
  dsimp only
  split
  · exact framed_onCuff s d _
  · split
    · exact (framed_cuffEvent _ d _).trans (framed_onCuff s d _)
    · exact (framed_foldl (fun u x => framed_onMitt u d _ _) _ _).trans (framed_onCuff s d _)

theorem framed_closeFilling (s : Device) (d : Die) : (s.closeFilling d).framed = s.framed := by
  have side (key : Nat) : (s.closeSide d key).framed = s.framed := by
    unfold closeSide
    split
    · exact framed_onCuff s d _
    · split
      · split
        · exact framed_closeBatch s d _
        · rfl
      · rfl
  unfold closeFilling
  split
  · exact side _
  · exact framed_closeBatch s d _
  · rfl

theorem framed_tapped (s : Device) (d : Die) {x : Mma} (rows row0 : Nat) (af : Fmt) (ht : x.a.tap = 0) : (s.tapped d x rows row0 af).framed = s.framed := by
  have none (u : Device) : u.capture d x rows row0 af = u := if_pos (by simp [tapping, ht])
  unfold tapped
  dsimp only
  rw [none, ite_self]
  split
  · exact framed_closeFilling s d
  · rfl

theorem framed_watchOpen (s : Device) (d : Die) (x : Mma) (af bf : Fmt) : (s.watchOpen d x af bf).1.framed = s.framed := by
  unfold watchOpen
  dsimp only
  split
  · rfl
  · split
    · rfl
    · split
      · rfl
      · split <;> rfl

theorem framed_openTile (s : Device) (d : Die) {x : Mma} (af bf : Fmt) (ht : x.a.tap = 0) : (s.openTile d x af bf).framed = s.framed := by
  have part (cap : Option Capture) (u : Device) (p : Nat) : (openPart d x af bf cap u p).framed = u.framed :=
    (framed_staged _ d _ x af bf _ _ _ _).trans (framed_placeTile u d _ _ _ _)
  unfold openTile
  refine (framed_tapped _ d _ _ af ht).trans ?_
  refine (framed_foldl (part _) _ _).trans ((framed_watchOpen _ d x af bf).trans ?_)
  exact framed_foldl (fun u m => framed_boundary u d m) _ s

theorem framed_continueTile (s : Device) (d : Die) {x : Mma} (af bf : Fmt) (ht : x.a.tap = 0) : (s.continueTile d x af bf).framed = s.framed := by
  unfold continueTile
  extract_lets m
  split
  · rfl
  · next old _ =>
    extract_lets was t0 t kept s1 s2
    have placed : s1.framed = s.framed := (framed_staged _ d m x af bf _ _ _ _).trans (framed_placeTile s d m _ _ _)
    refine (framed_tapped s2 d _ _ af ht).trans ?_
    show (if _ then s1.countSkip d else s1).framed = _
    split
    · exact placed
    · exact placed

/-- The operands of an MMA can be read, or what cannot is logged in Bonnet's own entries. -/
def Quiet (s : Device) (x : Mma) : Prop := s.fld R.MEM_LOG_BASE_UNITS = 0 ∨ ∀ af bf, Fmt.ofCode x.af = some af → Fmt.ofCode x.bf = some bf →
  s.bad (TDescOps.ranges x.a af ++ TDescOps.ranges x.b bf) = none

theorem framed_tryMma {s v : Device} {d : Die} {x : Mma} (ht : x.a.tap = 0) (hq : s.Quiet x) (h : s.tryMma d x = some v) : v.framed = s.framed := by
  unfold tryMma at h
  split at h
  · next af bf hf hg =>
    split at h
    · obtain rfl := Option.some.inj h
      exact framed_refuseMitt s d _
    · split at h
      · obtain rfl := Option.some.inj h
        exact framed_refuseMitt s d _
      · split at h
        · obtain rfl := Option.some.inj h
          rfl
        · cases h
      · split at h
        · obtain rfl := Option.some.inj h
          rfl
        · obtain rfl := Option.some.inj h
          refine framed_accessing (hq.imp_right fun g => g af bf hf hg) _ ?_
          split
          · exact framed_continueTile s d af bf ht
          · exact framed_openTile s d af bf ht
  · obtain rfl := Option.some.inj h
    exact framed_refuseMitt s d _

theorem framed_mma {d : Die} {x : Mma} (ht : x.a.tap = 0) (hq : s.Quiet x) : (s.mma d x).framed = s.framed := by
  unfold mma
  split
  · exact framed_onMitt s d _ _
  · cases h : s.tryMma d x with
    | none => exact framed_onMitt s d x.lm.val fun y => { y with jobs := y.jobs ++ [.mma x] }
    | some v => exact framed_tryMma ht hq h

/-! ## MDRAIN -/

theorem framed_drainRequest (s : Device) (d : Die) (a : W64) (m id : Nat) : (s.drainRequest d a m id).framed = s.framed := by
  unfold drainRequest
  split
  · exact framed_refuseMitt s d a
  · split
    · split
      · rfl
      · exact framed_placeTile s d m _ _ _
    · rfl

theorem framed_mdrain (s : Device) (d : Die) (a : W64) (m id : Nat) : (s.mdrain d a m id).framed = s.framed := by
  unfold mdrain
  split
  · exact framed_onMitt s d m _
  · exact framed_drainRequest s d a m id


/-! ## Gauntlet passes -/

/-- What an access asks the registers of the memory system, and whether far memory is interleaved. -/
structure Asks (s t : Device) : Prop where
  ilv : t.mem.ilv = s.mem.ilv
  place : ∀ off, memPlace off → Same s off t

theorem Asks.fld (h : Asks s t) {f : Fld} (hf : memPlace f.off) : t.fld f = s.fld f := by
  show t.regs.fld f = s.regs.fld f
  rw [RegFile.fld, h.place f.off hf, RegFile.fld]

theorem Asks.stackState (h : Asks s t) (a : Nat) : t.stackState (stackOf a) = s.stackState (stackOf a) := by
  have small : stackOf a < 8 := by unfold stackOf; omega
  exact h.fld (f := R.MEM_STACK_STATE.nth (stackOf a)) ⟨by show _ ≤ 0x5000010 + stackOf a * 4; omega, by show 0x5000010 + stackOf a * 4 < _; omega⟩

/-- The fields of a far port. -/
theorem Asks.port (h : Asks s t) {p : Nat} (hp : p < 2) : t.farCap p = s.farCap p ∧ t.portDown p = s.portDown p := by
  have cap := h.fld (f := R.MEM_FAR_CAP_CAP.nth p) ⟨by show _ ≤ 0x5000084 + p * 8; omega, by show 0x5000084 + p * 8 < _; omega⟩
  have width := h.fld (f := R.MEM_FAR_STAT_WIDTH.nth p) ⟨by show _ ≤ 0x5000088 + p * 8; omega, by show 0x5000088 + p * 8 < _; omega⟩
  exact ⟨congrArg (· * 2 ^ 28) cap, congrArg (· == 0) width⟩

/-- An address of far memory is lost to both or to neither. -/
theorem Asks.farLost (h : Asks s t) (a : Nat) : (t.unmapped true a || t.downFar true a) = (s.unmapped true a || s.downFar true a) := by
  show (!(decide (farPlace t.mem.ilv a % 2 ^ 42 < t.farCap (farPlace t.mem.ilv a / 2 ^ 42)) && decide (farPlace t.mem.ilv a < 2 ^ 43)) ||
      t.portDown (farPlace t.mem.ilv a / 2 ^ 42)) =
    (!(decide (farPlace s.mem.ilv a % 2 ^ 42 < s.farCap (farPlace s.mem.ilv a / 2 ^ 42)) && decide (farPlace s.mem.ilv a < 2 ^ 43)) ||
      s.portDown (farPlace s.mem.ilv a / 2 ^ 42))
  rw [h.ilv]
  by_cases hk : farPlace s.mem.ilv a < 2 ^ 43
  · obtain ⟨cap, down⟩ := h.port (p := farPlace s.mem.ilv a / 2 ^ 42) (by omega)
    rw [cap, down]
  · rw [decide_eq_false hk, Bool.and_false, Bool.and_false]
    rfl

theorem Asks.bad (h : Asks s t) : t.bad = s.bad := by
  have near (a : Nat) : t.unmapped false a = s.unmapped false a := congrArg (fun x => x == 2 || decide (a ≥ 2 ^ 40)) (h.stackState a)
  have all8 : ((List.range 8).all fun k => t.stackState k != 2) = (List.range 8).all fun k => s.stackState k != 2 := by
    rw [Bool.eq_iff_iff, List.all_eq_true, List.all_eq_true]
    refine forall_congr' fun k => forall_congr' fun hk => ?_
    have := List.mem_range.1 hk
    rw [show t.stackState k = s.stackState k from h.fld (f := R.MEM_STACK_STATE.nth k) ⟨by show _ ≤ 0x5000010 + k * 4; omega, by show 0x5000010 + k * 4 < _; omega⟩]
  funext xs
  refine congrArg (xs.findSome? ·) (funext fun x => ?_)
  unfold badIn
  rw [all8, funext near, funext h.farLost]

/-- An access can be made, or is logged in Bonnet's own entries. -/
def Meek (s : Device) (xs : List (Space × Nat × Nat)) : Prop := s.fld R.MEM_LOG_BASE_UNITS = 0 ∨ s.bad xs = none

theorem Asks.meek (h : Asks s t) {xs : List (Space × Nat × Nat)} (hm : s.Meek xs) : t.Meek xs := by
  rcases hm with hm | hm
  · exact .inl ((h.fld (f := R.MEM_LOG_BASE_UNITS) ⟨by decide, by decide⟩).trans hm)
  · exact .inr ((congrFun h.bad xs).trans hm)

theorem Asks.mittEvent (h : Asks s t) (d : Die) (f : Fld) (hf : (f.die d).off < 0x5000000 ∧ RegFile.statOf (f.die d).off < 0x5000000) :
    Asks s (t.mittEvent d f) where
  ilv := (congrArg (fun x => x.2.2.1) (framed_mittEvent t d f)).trans h.ilv
  place off ho := by
    have noted := (h.place off ho).event (f.die d) (ho.ne hf.1) (ho.ne hf.2)
    unfold Device.mittEvent
    dsimp only
    split
    · exact Same.post ho noted _ _ _ _
    · exact noted

theorem Asks.setOvfMap (h : Asks s t) (d : Die) (m : Nat) : Asks s (t.setOvfMap d m) where
  ilv := h.ilv
  place off ho := by
    have low : ∀ d : Die, (R.MITT_OVF_MAP_LO_OVF.die d).off < 0x5000000 := by decide
    have high : ∀ d : Die, (R.MITT_OVF_MAP_HI_OVF.die d).off < 0x5000000 := by decide
    unfold Device.setOvfMap
    dsimp only
    split
    · exact (h.place off ho).setFld _ _ (ho.ne (low d))
    · exact (h.place off ho).setFld _ _ (ho.ne (high d))

theorem Asks.onMitt (h : Asks s t) (d : Die) (m : Nat) (f : Mitt → Mitt) : Asks s (t.onMitt d m f) := ⟨h.ilv, h.place⟩

theorem Asks.placeTile (h : Asks s t) (d : Die) (m : Nat) (old new : Tile) (q : Bool) : Asks s (t.placeTile d m old new q) := by
  have ovf : ∀ d : Die, (R.MITT_STAT_INT_OVF.die d).off < 0x5000000 ∧ RegFile.statOf (R.MITT_STAT_INT_OVF.die d).off < 0x5000000 := by decide
  have inv : ∀ d : Die, (R.MITT_STAT_FLT_INV.die d).off < 0x5000000 ∧ RegFile.statOf (R.MITT_STAT_FLT_INV.die d).off < 0x5000000 := by decide
  unfold Device.placeTile
  dsimp only
  refine Asks.onMitt ?_ d m _
  unfold reportTile
  extract_lets t1
  have first : Asks s t1 := by
    show Asks s (if _ then _ else _)
    split
    · exact (h.mittEvent d _ (ovf d)).setOvfMap d m
    · exact h
  split
  · exact first.mittEvent d _ (inv d)
  · exact first

/-- The log in Bonnet's own entries stays where it is as an access fails. -/
theorem base_failAccess (h : s.fld R.MEM_LOG_BASE_UNITS = 0) (far : Bool) (a : Nat) (unit : W16) (sev : Nat) :
    (s.failAccess far a unit sev).fld R.MEM_LOG_BASE_UNITS = 0 := by
  have fails {t : Device} (h : t.fld R.MEM_LOG_BASE_UNITS = 0) (x : LogItem) : (t.uncorrectable x sev).fld R.MEM_LOG_BASE_UNITS = 0 := by
    have logged : Same t R.MEM_LOG_BASE_UNITS.off (t.memLog x) := by
      unfold memLog
      rw [h]
      dsimp only
      rw [Nat.zero_mul, if_neg (by simp), if_neg (by simp)]
      split
      · exact Same.count (Same.setFld rfl _ _ (by decide)) _ _ (by decide)
      · exact Same.setFld rfl _ _ (by decide)
    have counted := (logged.event R.MEM_STAT_UE (by decide) (by decide)).count R.MEM_UE_CNT_COUNT 1 (by decide)
    have posted := Same.post ⟨by decide, by decide⟩ counted 0x0302 sev x.unit (BitVec.ofNat 64 x.addr)
    rw [← h]
    exact congrArg (fun c : RegCopy => bitsOf c.val.toNat _ _) posted
  have event : (s.event R.MEM_STAT_MAP_ERR).fld R.MEM_LOG_BASE_UNITS = 0 := (RegFile.fld_event_ne _ _ _ (by decide) (by decide)).trans h
  unfold failAccess
  split
  · cases far with
    | true => exact fails h _
    | false => exact fails event _
  · exact fails h _

section
variable {d : Die} {x : MmaFx}

/-- What a Gauntlet pass reads. -/
def fxRanges (x : MmaFx) : List (Space × Nat × Nat) := TDescOps.ranges x.a .i16 ++ TDescOps.ranges x.b .i16

theorem framed_passPart (s : Device) (d : Die) (x : MmaFx) (p : Nat) : (passPart d x s p).framed = s.framed :=
  (framed_stageBlocks _ d _ _ _ _ _ _ _ _ _ _ _).trans (framed_placeTile s d _ _ _ _)

theorem asks_passPart (s : Device) (d : Die) (x : MmaFx) (p : Nat) : Asks s (passPart d x s p) := by
  have start : Asks s s := ⟨rfl, fun _ _ => rfl⟩
  have placed (old new : Tile) : Asks s (s.placeTile d (x.lm.val + p) old new (p == 0)) := start.placeTile d _ old new _
  unfold passPart stageBlocks
  dsimp only
  split
  · exact placed _ _
  · exact (placed _ _).onMitt d _ _

/-- A part of a pass leaves what tile work leaves, and can be followed by another. -/
theorem framed_openPass (hm : s.Meek (fxRanges x)) (p : Nat) :
    (s.openPass d x p).framed = s.framed ∧ (s.openPass d x p).Meek (fxRanges x) := by
  refine ⟨framed_accessing hm _ (framed_passPart s d x p), ?_⟩
  show (s.accessing _ (fxRanges x) _).Meek _
  rcases accessing_cases s (mittUnit d) (fxRanges x) (fun s => passPart d x s p) with ⟨-, e⟩ | ⟨far, a, hb, e⟩
  · rw [e]
    exact (asks_passPart s d x p).meek hm
  · rw [e]
    rcases hm with hm | hm
    · exact .inl (base_failAccess hm far a _ 2)
    · rw [hm] at hb; cases hb

theorem framed_passArrives (hm : s.Meek (fxRanges x)) (p : Nat) :
    (passArrives d x s p).framed = s.framed ∧ (passArrives d x s p).Meek (fxRanges x) := by
  unfold passArrives
  dsimp only
  split
  · exact framed_openPass hm p
  · exact ⟨framed_onMitt s d _ _, hm⟩

theorem framed_mmaFx (hm : s.Meek (fxRanges x)) : (s.mmaFx d x).framed = s.framed := by
  unfold mmaFx
  split
  · exact framed_refuseMitt s d _
  · refine (List.foldlRecOn (motive := fun u : Device => u.framed = s.framed ∧ u.Meek (fxRanges x)) _ _ ⟨framed_onMitt s d _ _, hm⟩
      fun u hu p _ => ?_).1
    obtain ⟨f, m⟩ := framed_passArrives (d := d) hu.2 p
    exact ⟨f.trans hu.1, m⟩

end

/-! ## Dispatch -/

/-- Work that waits writes no tensor. -/
def Plain (s : Device) : MittJob → Prop
  | .mma x => x.a.tap = 0 ∧ s.Quiet x
  | .mdrain .. => True

theorem framed_tryJob {v : Device} {d : Die} {m : Nat} {j : MittJob} (hp : s.Plain j) (h : s.tryJob d m j = some v) : v.framed = s.framed := by
  cases j with
  | mma x => exact framed_tryMma hp.1 hp.2 h
  | mdrain a id =>
    obtain rfl := Option.some.inj h
    exact framed_drainRequest s d a m id

theorem framed_readyJobs {d : Die} {m : Nat} : ∀ {js passed : List MittJob}, (∀ j ∈ js, s.Plain j) →
    ∀ z ∈ s.readyJobs d m passed js, z.2.framed = s.framed
  | [], _, _, z, hz => by cases hz
  | j :: rest, passed, hp, z, hz => by
    have more : ∀ z ∈ s.readyJobs d m (passed ++ [j]) rest, z.2.framed = s.framed :=
      framed_readyJobs fun i hi => hp i (List.mem_cons_of_mem _ hi)
    unfold readyJobs at hz
    dsimp only at hz
    split at hz
    · exact more z hz
    · split at hz
      · next v hv =>
        rcases List.mem_cons.1 hz with rfl | hz
        · have here : (s.onMitt d m fun y => { y with jobs := passed ++ rest }).Plain j := by
            have := hp j (List.mem_cons_self ..)
            cases j with
            | mma x => exact this
            | mdrain => trivial
          exact (framed_tryJob here hv).trans (framed_onMitt s d m _)
        · exact more z hz
      · exact more z hz

theorem framed_dispatchJob {d : Die} {m : Nat} (hp : ∀ y ∈ (s.die d).mitts, ∀ j ∈ y.2.jobs, s.Plain j) : (s.dispatchJob d m).framed = s.framed := by
  have here : ∀ j ∈ (s.mitt d m).jobs, s.Plain j := by
    intro j hj
    rcases Sparse.get_cases (d := ({} : Mitt)) m (s.die d).mitts with h | h
    · rw [show s.mitt d m = {} from h] at hj
      cases hj
    · exact hp _ h j hj
  have all : ∀ z ∈ s.readyOn d m, z.2.framed = s.framed := by
    intro z hz
    rcases List.mem_append.1 hz with hz | hz
    · exact framed_readyJobs here z hz
    · obtain ⟨y, hy, hz⟩ := List.mem_flatMap.1 hz
      exact framed_readyJobs (hp y (List.mem_filter.1 hy).1) z (List.mem_filter.1 hz).1
  unfold dispatchJob
  split
  · rfl
  · next z rest e => exact all z (mem_sortBy.1 (e ▸ List.mem_cons_self ..))

theorem framed_dispatch {d : Die} {m : Nat} (hp : ∀ y ∈ (s.die d).mitts, ∀ j ∈ y.2.jobs, s.Plain j)
    (hf : ∀ x ∈ (s.mitt d m).fx, s.Meek (fxRanges x.1)) : (s.dispatch d m).framed = s.framed := by
  have tap : (s.dispatchTap d m).framed = s.framed := by
    unfold dispatchTap
    split
    · exact (framed_onMitt _ d m _).trans ((framed_count _ _ _).trans (framed_onMitt s d m _))
    · exact framed_dispatchJob hp
  unfold dispatch
  split
  · next p rest e =>
    split
    · have meek : s.Meek (fxRanges p.1) := hf p (e ▸ List.mem_cons_self ..)
      exact (framed_openPass (s := s.onMitt d m fun y => { y with fx := rest }) meek p.2).1.trans (framed_onMitt s d m _)
    · exact tap
  · exact tap

/-! ## Combines and switches -/

theorem framed_combine (s : Device) (d : Die) (lm id part level : Nat) : (s.combine d lm id part level).framed = s.framed := by
  unfold combine
  dsimp only
  split
  · split
    · exact (framed_onMitt _ d _ _).trans (framed_placeTile s d _ _ _ _)
    · rfl
  · rfl

theorem framed_profileSwitch (s : Device) (d : Die) (m : Nat) : (s.profileSwitch d m).framed = s.framed := by
  unfold profileSwitch
  dsimp only
  split
  · exact (framed_setFld _ _ _).trans (framed_onMitt s d m _)
  · rfl

/-- What is left, part by part. -/
theorem parts_of_framed {t : Device} (h : t.framed = s.framed) : (∀ sp, t.memory sp = s.memory sp) ∧ t.fab = s.fab ∧ t.pwr = s.pwr ∧
    t.procs = s.procs ∧ t.frm.step = s.frm.step ∧ t.frm.count = s.frm.count := by
  simp only [framed, Prod.mk.injEq] at h
  obtain ⟨near, far, ilv, dies, fab, pwr, procs, step, count⟩ := h
  have die (d : Die) := congrArg (·.get d) dies
  simp only [Quad.get_map, Prod.mk.injEq] at die
  refine ⟨fun sp => ?_, fab, pwr, procs, step, count⟩
  cases sp with
  | tile d => exact (die d).1
  | scratch d => exact (die d).2
  | near => exact near
  | far =>
    show (if t.mem.ilv then _ else _) = if s.mem.ilv then _ else _
    rw [far, ilv]

end
end Device

/-- A command of the device whose work leaves memories, fabric and power. -/
theorem left_of_onDev {s t : State} {f : Device → Device} (hf : (f s.dev).framed = s.dev.framed) (h : onDev s f = .next t) :
    (∀ sp, t.dev.memory sp = s.dev.memory sp) ∧ t.dev.fab = s.dev.fab ∧ t.dev.pwr = s.dev.pwr ∧ t.dev.procs = s.dev.procs ∧
      t.dev.frm.step = s.dev.frm.step ∧ t.dev.frm.count = s.dev.frm.count ∧ t.nv = s.nv ∧ t.tap = s.tap := by
  rcases onDev_cases h with rfl | rfl
  · exact ⟨fun _ => rfl, rfl, rfl, rfl, rfl, rfl, rfl, rfl⟩
  · obtain ⟨mem, fab, pwr, procs, step, count⟩ := Device.parts_of_framed hf
    exact ⟨mem, fab, pwr, procs, step, count, rfl, rfl⟩

theorem framed_issue {s v : Device} {d : Die} (hv : v.framed = s.framed) : (if s.issues d then v else s).framed = s.framed := by
  split
  · exact hv
  · rfl

/-- Settles O12: what each of these commands does keeps the parts that `Device.framed` collects. -/
theorem tileCommandsKeepMemory : Obligations.TileCommandsKeepMemory := by
  intro s t d i good free goodFx quiet kind run
  cases i with
  | mma e x =>
    obtain ⟨rfl, ht, hfree⟩ := kind
    refine left_of_onDev (f := fun v => if v.issues e then v.issueInOrder (byEngine e x.engine x.iaddr) (.mma x) else v) ?_ run
    refine framed_issue ?_
    rw [issueInOrder_free _ hfree]
    exact Device.framed_mma ht quiet
  | mmaFx e x =>
    obtain ⟨rfl, hfree⟩ := kind
    have work : (s.dev.mmaFx e x).framed = s.dev.framed := Device.framed_mmaFx quiet
    replace run : execMmaFx e x s = .next t := run
    unfold execMmaFx at run
    split at run
    · next hp =>
      refine left_of_onDev (f := fun v => if v.issues e then v.issueInOrder (byEngine e x.engine x.iaddr) (.mmaFx x) else v) ?_ run
      refine framed_issue ?_
      rw [issueInOrder_free _ (hfree hp)]
      exact work
    · exact left_of_onDev (f := fun v => if v.issues e then v.mmaFx e x else v) (framed_issue work) run
  | mdrain e y lm tile =>
    obtain ⟨rfl, hfree⟩ := kind
    refine left_of_onDev (f := fun v => if v.issues e then v.issueInOrder (byEngine e y.engine y.iaddr) (.mdrain lm tile) else v) ?_ run
    refine framed_issue ?_
    rw [issueInOrder_free _ hfree]
    exact Device.framed_mdrain _ _ _ _ _
  | tileDispatch e lm =>
    obtain ⟨rfl, ht⟩ := kind
    refine left_of_onDev (f := fun v => if v.issues e then v.dispatch e lm.val else v) (framed_issue (Device.framed_dispatch ?_ ?_)) run
    · intro y hy j hj
      cases j with
      | mma x => exact ⟨ht y hy x hj, quiet.imp_right fun g => g.1 y hy x hj⟩
      | mdrain => trivial
    · exact fun x hx => quiet.imp_right fun g => g.2 x hx
  | longSplitCombine e lm tile part level =>
    exact left_of_onDev (f := fun v => v.combine e lm.val tile.toNat part level) (Device.framed_combine _ _ _ _ _ _) run
  | profileSwitch e lm =>
    refine left_of_onDev (f := fun v =>
      if (v.mitt e lm.val).switching ∧ (v.mitt e lm.val).tiles = [] then (v.profileSwitch e lm.val).mittApplied e lm.val else v) ?_ run
    split
    · exact (Device.framed_mittApplied _ _ _).trans (Device.framed_profileSwitch _ _ _)
    · rfl
  | _ => exact absurd kind id

end Sys2Proof.Machine
end

section
/-! What Band takes in, and the end of a wipe. -/

set_option Elab.async false

namespace Sys2Proof.Machine
open Sys2Proof.Safety

namespace Device.Tame

variable {P : Device → Prop} (h : Tame P)

section
variable (hf : ∀ s x, x.ports = s.fab.ports → P s → P { s with fab := x })
include hf

/-! ### The peer table -/

theorem setPeer {s : Device} (p o n v : Nat) : P s → P (s.setPeer p o n v) := hf s _ rfl

theorem setRoutes {s : Device} (hs : P s) : P s.setRoutes := by
  obtain ⟨peers, e, -⟩ := onlyRoutes_setRoutes s
  rw [e]
  exact hf s _ rfl hs

theorem mapLink {s : Device} (x : LinkEnds) (up : Bool) (hs : P s) : P (s.mapLink x up) :=
  setRoutes hf (setPeer hf _ _ _ _ (setPeer hf _ _ _ _ (hf s _ rfl hs)))

include h

theorem peerGone {s : Device} (p st : Nat) (ws : Waits) (hs : P s) : P (s.peerGone p st ws) := by
  unfold Device.peerGone
  refine ite hs ?_
  have master : P (if s.master = some p then s.onFab fun f => { f with oldMaster := some p } else s) := ite (hf s _ rfl hs) hs
  exact h.afterGone p st ws (setPeer hf p 8 1 st (hf _ _ rfl master))

theorem declareLost {s : Device} (ps : List Nat) (ws : Waits) (hs : P s) : P (s.declareLost ps ws) := by
  unfold Device.declareLost
  exact ite hs (h.partition (foldl (fun v p hv => ite (h.send _ (peerGone h hf p 2 ws hv)) hv) _ hs))

end

section
variable (hf : ∀ s x, P s → P { s with fab := x })
include h hf

/-! ### What Band answers and takes in -/

theorem setVersion {s : Device} (e : Nat) (v : W32) (g : W64) (hs : P s) : P (s.setVersion e v g) := by
  unfold Device.setVersion
  extract_lets old was s1
  have h1 : P s1 := hf s _ hs
  refine h.recording _ _ (fun u hu => ?_) h1
  have first := h.setNear (u.entryAddr e + 0x20) 4 v.toNat hu
  exact h.setNear _ _ _ first

theorem sendLate {s : Device} (x : Sum) (hs : P s) : P (s.sendLate x) :=
  h.send _ (hf _ _ (foldl (fun _ m hv => h.send m hv) _ hs))

theorem notice {s : Device} (e : Nat) (v : W32) (g : W64) (hs : P s) : P (s.notice e v g) := by
  have heard {u : Device} (hu : P u) : P (u.heard (s.entryOwner e)) := by
    unfold Device.heard
    exact ite hu (hf u _ hu)
  unfold Device.notice
  refine ite hs ?_
  extract_lets s1
  have late : P s1 := foldl (fun _ x hv => sendLate h hf x hv) _ (heard (setVersion h hf e v g hs))
  split
  · exact ite (hf _ _ (hf _ _ late)) late
  · exact late

theorem stageDirectory {s : Device} (epoch : Byte) (hs : P s) : P (s.stageDirectory epoch) := by
  unfold Device.stageDirectory
  refine ite hs ?_
  dsimp only
  split
  · exact h.send _ (hf _ _ hs)
  · exact hf _ _ hs

theorem takeOver {s : Device} (lost spare : Nat) (hs : P s) : P (s.takeOver lost spare) := by
  have routes {u : Device} (hu : P u) : P u.setRoutes := setRoutes (fun s x _ hs => hf s x hs) hu
  unfold Device.takeOver
  refine ite hs ?_
  extract_lets at_ s1 name s2 s3
  have h1 : P s1 := hf _ _ (hf _ _ (hf _ _ (hf _ _ (h.event _ hs))))
  have h2 : P s2 := hf _ _ h1
  exact routes (ite (hf _ _ (h.setFld _ _ h2)) h2)

/-! ### Restored shards -/

omit hf in
theorem clearRemainders {s : Device} (e : Nat) (hs : P s) : P (s.clearRemainders e) := by
  unfold Device.clearRemainders
  exact ite hs (h.setMemory _ _ hs)

omit hf in
theorem restoreSegment {s : Device} (e : Nat) (w : List Byte) (x : Nat × Nat × Nat × Nat × Nat × List Byte) (hs : P s) :
    P (s.restoreSegment e w x).1 := by
  obtain ⟨kind, stream, index, enc, region, payload⟩ := x
  unfold Device.restoreSegment
  dsimp only
  split
  · exact hs
  · dsimp only
    exact h.writeBytes _ _ _ hs
  · dsimp only
    exact h.writeBytes _ _ _ hs
  · dsimp only
    exact h.setNear _ _ _ (h.writeBytes _ _ _ hs)

theorem restoreShard {s t : Device} (r : Restored) (hs : P s) (ht : s.restoreShard r = .ok t) : P t := by
  unfold Device.restoreShard at ht
  extract_lets e step at ht
  have kept : ∀ y, step = some y → P y.1 := by
    refine List.foldlRecOn (motive := fun z : Option (Device × Option W32 × List Byte × W64) => ∀ y, z = some y → P y.1) _ _ ?_ fun z hz b _ => ?_
    · intro y hy
      have e1 := Option.some.inj hy
      rw [← e1]
      dsimp only
      exact clearRemainders h e hs
    · intro y hy
      split at hy
      · cases hy
      · split at hy
        · cases hy
        · rw [← Option.some.inj hy]
          dsimp only
          exact List.foldlRecOn (motive := fun q : Device × List Byte => P q.1) _ _ (hz _ rfl) fun q hq x _ => restoreSegment h e q.2 x hq
  clear_value step
  split at ht
  · next u v w g =>
    split at ht
    · cases ht
    · split at ht
      · obtain rfl := Except.ok.inj ht
        exact hf _ _ (h.writeBytes _ _ _ (kept _ rfl))
      · cases ht
  · cases ht
  · cases ht

theorem restore {s : Device} (x : RestoreOutcome) (hs : P s) : P (s.restore x) := by
  have failed {u : Device} (c : W16) (hu : P u) : P (u.takeoverFailed c) := by
    unfold Device.takeoverFailed
    split
    · exact ite (h.post _ _ _ _ hu) (h.send _ hu)
    · exact hu
  unfold Device.restore
  refine ite hs ?_
  split
  · exact failed _ hs
  · exact failed _ hs
  · exact failed _ hs
  · next rs =>
    refine ite hs ?_
    split
    · next t e =>
      refine List.foldlRecOn (motive := fun z : Except W16 Device => ∀ t, z = .ok t → P t) rs _ ?_ ?_ t e
      · intro t ht
        obtain rfl := Except.ok.inj ht
        exact hs
      · intro z hz r _ t ht
        split at ht
        · exact restoreShard h hf r (hz _ rfl) ht
        · cases ht
    · exact failed _ hs

theorem bandReturns {s : Device} (hs : P s) : P s.bandReturns := by
  refine foldl (fun v x hv => ?_) _ (hf s _ hs)
  split
  · exact notice h hf _ _ _ hv
  · exact stageDirectory h hf _ hv
  · exact takeOver h hf _ _ hv
  · exact restore h hf _ hv

theorem fetch {s : Device} (f : Fetch) (epoch : Byte) (hs : P s) : P (s.fetch f epoch) := by
  have stand : P (s.answerFor f) := by
    unfold Device.answerFor
    split <;> exact h.send _ hs
  have own : P (s.answer f) := by
    unfold Device.answer
    exact ite (hf _ _ (h.send _ hs)) (h.send _ hs)
  unfold Device.fetch
  exact ite (h.send _ hs) (ite (ite stand hs) (ite (hf _ _ hs) (ite (h.send _ hs) own)))

theorem publishLate {s : Device} (hs : P s) : P s.publishLate := by
  unfold Device.publishLate Device.publish
  refine ite hs ?_
  dsimp only
  exact foldl (fun _ f hv => fetch h hf f _ hv) _ (hf _ _ (hf _ _ (foldl (fun _ r hv => h.send _ (setVersion h hf _ _ _ hv)) _ hs)))

end

/-! ### Memory, and the end of a wipe -/

section
include h

theorem onCmd {s : Device} {f : Command → Command} (hs : P s) (ha : (f s.cmd).activation = s.cmd.activation := by rfl) : P (s.onCmd f) :=
  h.cmd s _ ha hs

theorem markLane {s : Device} (pending : Bool) (stack chan lane : Nat) (hs : P s) : P (s.markLane pending stack chan lane) := by
  unfold Device.markLane
  refine ite hs ?_
  split
  · exact h.setLining _ _ hs
  · exact hs

theorem laneDecide {s : Device} (stack chan lane : Nat) (hs : P s) : P (s.laneDecide stack chan lane) := by
  unfold Device.laneDecide
  exact ite hs (h.post _ _ _ _ (h.memLog _ (h.count _ _ (h.markLane true stack chan lane hs))))

theorem bonnetReturns {s : Device} (hs : P s) : P s.bonnetReturns :=
  foldl (fun _ _ hv => h.post _ _ _ _ (h.memLog _ hv)) _ (h.mem s _ hs)

theorem wipeSet {s : Device} (hs : P s) : P s.wipeSet := by
  have whole : P ((s.onCmd fun c => { c with retained := 0 }).wipeWhole) := h.mem _ _ (h.cmd s _ rfl hs)
  exact h.setFld _ _ (h.mem _ _ whole)

theorem decayAll {s : Device} (hs : P s) : P s.decayAll := h.cmd s _ rfl hs

theorem takeJob {s : Device} (hs : P s) : P s.takeJob := by
  unfold Device.takeJob
  extract_lets s1
  have h1 : P s1 := h.decayAll hs
  split
  · exact h1
  · extract_lets kept wipes j s2
    have h2 : P s2 := h.setDState _ (h.onCmd h1 (by dsimp only))
    exact ite (h.wipeSet h2) h2

theorem afterWipe {s : Device} (hs : P s) : P s.afterWipe := by
  have start : P s.startWipe := by
    unfold Device.startWipe
    split
    · exact h.wipeSet (h.onJob _ hs)
    · exact h.onJob _ (h.onCmd hs)
    · exact hs
  have charge : P s.chargeJob := by
    unfold Device.chargeJob
    split
    · refine ite hs ?_
      extract_lets s1 a s2
      have h2 : P s2 := h.onCmd (h.decayAll hs) (by dsimp only)
      exact ite (h.takeJob h2) (h.setDState _ h2)
    · exact hs
  unfold Device.afterWipe
  exact ite hs (ite start charge)

end
end Device.Tame
end Sys2Proof.Machine
end

section
/-! Recovery (O47). -/

set_option Elab.async false

namespace Sys2Proof.Machine
open Sys2Proof.Safety

namespace Device

/-! ## A processor that is ready -/

/-- What the events of a processor that reports ready leave: the four processors, and that no activation runs. -/
def ProcsAre (x : Quad ProcState) (s : Device) : Prop := s.procs = x ∧ s.cmd.activation = none

theorem procsAre_tame (x : Quad ProcState) : Tame (ProcsAre x) where
  regs _ _ h := h
  err _ _ h := h
  cmd _ _ ha h := ⟨h.1, ha.trans h.2⟩
  lining _ _ h := h
  host _ _ h := h
  free _ _ h := h
  i3c _ _ h := h
  frm _ _ h := h
  dies _ _ h := h
  mem _ _ h := h
  fab _ _ _ _ h := h
  ports s t ht h := by
    obtain ⟨p, n, rfl, -⟩ := ht
    exact h

theorem procsAre_clampReturns {x : Quad ProcState} {s : Device} (h : s.ProcsAre x) : (s.setCause 0 false).ProcsAre x := by
  unfold setCause
  dsimp only
  rw [if_pos (by simp)]
  exact Tame.ite h h

/-- The processors once one of them has reported ready. -/
def readied (s : Device) (p : Proc) (x : ProcState) : Quad ProcState :=
  s.procs.set (procIdx p) { x with up := true, restarting := false, activating := false, readyUs := s.clockUs }

/-- What waits for a processor goes on, and leaves the processors as they are. -/
theorem procsAre_processorReady {s : Device} {p : Proc} {x : ProcState} {ws : Waits} (hd : s.cmd.dstate ≠ .hold)
    (hx : x = s.procs.get (procIdx p)) (hr : x.restarting = true) (hi : s.images ≠ []) (ha : s.cmd.activation = none) :
    (s.processorReady p ws).ProcsAre (s.readied p x) := by
  have go : ¬ (s.cmd.dstate = .hold ∨ ¬ ((s.procs.get (procIdx p)).restarting = true ∨ (s.procs.get (procIdx p)).activating = true) ∨
      s.images = []) := by
    rw [← hx, hr]
    simp [hd, hi]
  unfold processorReady
  dsimp only
  rw [if_neg go, ← hx]
  have tame := procsAre_tame (s.readied p x)
  have start : (s.setProc (procIdx p) { x with up := true, restarting := false, activating := false, readyUs := s.clockUs }).ProcsAre
      (s.readied p x) := ⟨rfl, ha⟩
  cases p with
  | crown => exact procsAre_clampReturns start
  | band =>
    have any : ∀ v y, ProcsAre (s.readied .band x) v → ProcsAre (s.readied .band x) { v with fab := y } := fun _ _ h => h
    exact tame.publishLate any (tame.bandReturns any (tame.declareLost (fun v y _ h => any v y h) _ ws (Tame.setRoutes (fun v y _ h => any v y h) start)))
  | peak => exact tame.flushAll start
  | bonnet => exact tame.bonnetReturns (Tame.foldl (fun _ _ hv => tame.laneDecide _ _ _ hv) _ start)

end Device

/-- A calibration that waited for Crown and Peak leaves the processors too. -/
theorem procsAre_calRestored {x : Quad ProcState} {t : State} (h : t.dev.ProcsAre x) : t.calRestored.dev.ProcsAre x := by
  have tame := Device.procsAre_tame x
  unfold State.calRestored
  split
  · exact h
  · split
    · exact h
    · exact tame.replyFree _ _ (s := { t.dev with cmd := { t.dev.cmd with calRestore := none, calDone := false } }) h

/-- A processor reports ready while no activation runs. -/
theorem procs_procReady {t : State} {p : Proc} {x : ProcState} {ws : Waits} (hd : t.dev.cmd.dstate ≠ .hold)
    (hx : x = t.dev.procs.get (procIdx p)) (hr : x.restarting = true) (hi : t.dev.images ≠ []) (ha : t.dev.cmd.activation = none) :
    (t.procReady ⟨p, ws⟩).dev.procs =
      t.dev.readied p x := by
  unfold State.procReady
  extract_lets u
  have first := (Device.procsAre_tame _).afterWipe (Device.procsAre_processorReady (ws := ws) hd hx hr hi ha)
  have second : (if u.dev.cmd.calDone then u.calRestored else u).dev.ProcsAre (t.dev.readied p x) := by
    split
    · exact procsAre_calRestored first
    · exact first
  obtain ⟨procs, none⟩ := second
  rw [← procs, State.advanceActivation, none]

/-- Settles O47: each event of recovery on the path its conditions choose. -/
theorem recoveryCommandsComplete : Obligations.RecoveryCommandsComplete := by
  intro s hl
  refine ⟨fun q v hv => ⟨fun h => ?_, fun h => ?_⟩, fun i hr => ?_, fun k i hm => ?_, fun p x v hd hx hv =>
    ⟨fun h => ⟨?_, ?_⟩, fun h => ?_, fun hr hi ws => ?_, fun h => ?_, fun hc => ?_, fun hc => ?_⟩⟩
  · subst hv
    show execErrRetire q s = _
    exact onDev_into hl (if_neg (by rw [h]; nofun))
  · subst hv
    show execErrRetire q s = _
    exact onDev_into hl (if_pos h)
  · have reset (k : Nat) (hb : s.dev.blockIdle k i.toNat = true) :
        s.dev.blockReset k i.toNat = { s.dev.clearBlock k i.toNat with blocks := s.dev.blocks ++ [(k, i.toNat)] } := if_pos ⟨hr, hb⟩
    intro ends
    refine ⟨fun hb => ?_, fun hb => ?_, fun hb => ?_, fun hb => ?_, fun hb => ?_, fun hb => ?_, fun hb => ?_, fun hb => ?_⟩
    · show execMittBlockReset i s = _
      exact onDev_into hl (reset 1 hb)
    · show execCuffBlockReset i s = _
      exact onDev_into hl (reset 2 hb)
    · show execGauntletBlockReset i s = _
      exact onDev_into hl (reset 3 hb)
    · show execPalmBlockReset i s = _
      exact onDev_into hl (reset 4 hb)
    · show execVectorBlockReset i s = _
      exact onDev_into hl (reset 5 hb)
    · show execVisorBlockReset i s = _
      exact onDev_into hl (reset 6 hb)
    · show execWashaPortReset i s = _
      exact onDev_into hl (reset 7 hb)
    · show execCxlPortReset i s = _
      exact onDev_into hl (reset 8 hb)
  · show execBlockResetDone k i s = _
    exact onDev_into hl (if_pos (List.contains_iff_mem.2 hm))
  all_goals subst hx
  · show execWatchdogExpiry p s = _
    exact onDev_into hl ((if_pos ⟨hd, h⟩).trans hv.symm)
  · show execProcessorFailure p s = _
    exact onDev_into hl ((if_pos ⟨hd, h⟩).trans hv.symm)
  · show execRestartTimeout p s = _
    exact onDev_into hl ((if_pos ⟨hd, h⟩).trans hv.symm)
  · refine ⟨s.procReady ⟨p, ws⟩, show execProcessorReady ⟨p, ws⟩ s = _ from if_neg (by rw [hl]; nofun), procs_procReady hd rfl hr hi⟩
  · show execFwStable p s = _
    exact onDev_into hl (if_pos h)
  · show execRefclkLost s = _
    exact (if_neg (by rw [hc]; nofun)).trans (onManagement_into (s := { s with refclk := false }) (inReset_of_live hl) (if_neg hd))
  · show execRefclkLost s = _
    exact if_pos (by rw [hc]; nofun)

end Sys2Proof.Machine
end

section
/-! Supplies, the release and lost clocks (O56). -/

set_option Elab.async false

namespace Sys2Proof.Machine
open Sys2Proof.Safety

namespace Device

/-! ## Ports that a lost clock takes down -/

/-- Certain ports are down. -/
def Down (q : Nat → Prop) (s : Device) : Prop := ∀ p, q p → (s.port p).up = false

theorem down_tame (q : Nat → Prop) : Tame (Down q) where
  regs _ _ h := h
  err _ _ h := h
  cmd _ _ _ h := h
  lining _ _ h := h
  host _ _ h := h
  free _ _ h := h
  i3c _ _ h := h
  frm _ _ h := h
  dies _ _ h := h
  mem _ _ h := h
  fab s x _ hx h p hp := (congrArg (fun m => (Sparse.get {} p m).up) hx).trans (h p hp)
  ports s t ht h p hp := by
    obtain ⟨_, _, -, only⟩ := ht
    by_contra hu
    rw [Bool.not_eq_false] at hu
    exact absurd (only p hu) (by rw [h p hp]; nofun)

theorem down_portDown {q : Nat → Prop} {s : Device} (h : s.Down q) (p : Nat) (ws : Waits) : (s.portDown' p ws).Down fun i => q i ∨ i = p := by
  have tame := down_tame fun i => q i ∨ i = p
  have fab : ∀ v x, x.ports = v.fab.ports → Down (fun i => q i ∨ i = p) v → Down (fun i => q i ∨ i = p) { v with fab := x } :=
    fun _ _ hx hv i hi => (congrArg (fun m => (Sparse.get {} i m).up) hx).trans (hv i hi)
  unfold portDown'
  extract_lets was x s1 s2 s3 s4
  split
  · next hu =>
    rw [Bool.not_eq_true] at hu
    rintro i (hi | rfl)
    · exact h i hi
    · exact hu
  · have h1 : s1.Down fun i => q i ∨ i = p := by
      intro i hi
      by_cases e : i = p
      · subst e
        exact congrArg PortSt.up (port_setPort_self s i _)
      · rw [show s1.port i = s.port i from port_setPort_ne s _ e]
        exact h i (hi.resolve_right e)
    have h3 : s3.Down fun i => q i ∨ i = p :=
      tame.send _ (tame.ports _ _ (OnlyPorts.pump _) (tame.ports _ _ (OnlyPorts.foldl OnlyPorts.reroute _ _) (Tame.mapLink fab x false h1)))
    have h4 : s4.Down fun i => q i ∨ i = p := Tame.ite (tame.post _ _ _ _ h3) h3
    exact tame.declareLost fab _ ws h4

theorem down_portsDown (f : Nat → Nat) (ws : Waits) : ∀ (l : List Nat) {q : Nat → Prop} {s : Device}, s.Down q →
    (l.foldl (fun v i => v.portDown' (f i) ws) s).Down fun p => q p ∨ ∃ i ∈ l, p = f i
  | [], _, _, h => fun p hp => h p (hp.resolve_right nofun)
  | i :: l, q, s, h => fun p hp => down_portsDown f ws l (down_portDown h (f i) ws) p <| by
    rcases hp with hp | ⟨j, hj, rfl⟩
    · exact .inl (.inl hp)
    · rcases List.mem_cons.1 hj with rfl | hj
      · exact .inl (.inr rfl)
      · exact .inr ⟨j, hj, rfl⟩

/-- The eight ports of an I/O die. -/
theorem port_portsDown (s : Device) (n : Nat) (ws : Waits) {i : Nat} (h : i < 8) :
    (((List.range 8).foldl (fun v i => v.portDown' (8 * n + i) ws) s).port (8 * n + i)).up = false := by
  have start : s.Down fun _ => False := fun _ h => h.elim
  generalize hl : List.range 8 = l
  exact down_portsDown (fun i => 8 * n + i) ws l start (8 * n + i) (.inr ⟨i, hl ▸ List.mem_range.2 h, rfl⟩)

/-! ## The release -/

/-- Out of reset, with the cause and the firmware store as they were. -/
def Freed (c : Nat) (b : List Byte) (s : Device) : Prop := s.inReset = false ∧ s.cause = c ∧ s.store = b

theorem freed_deaf (c : Nat) (b : List Byte) : Deaf (Freed c b) :=
  ⟨fun _ _ h => h, fun _ _ h => h, fun _ _ h => h, fun _ _ h => h, fun _ _ h => h, fun _ _ h => h, fun _ _ h => h,
    fun _ _ _ h => h, fun _ h => h⟩

theorem freed_checkLining {c : Nat} {b : List Byte} {s : Device} (h : s.Freed c b) (bad : List Nat) : (s.checkLining bad).Freed c b := by
  have deaf := freed_deaf c b
  have cleared : (bad.foldl clearArea s).Freed c b := by
    refine Deaf.foldl _ (fun v i hv => ?_) _ h
    unfold clearArea
    split
    · exact deaf.post _ _ _ _ (deaf.lining _ _ hv)
    · exact hv
  unfold checkLining
  exact Tame.ite cleared (deaf.setFld _ _ (deaf.lining _ _ cleared))

/-- What a reply to the host leaves of a device that starts. -/
def started (s : Device) : Bool × Bool × Bool × Quad ProcState := (s.inReset, s.pwr.clamp, s.booting, s.procs)

/-- Replies leave that. -/
theorem started_deaf (u : Device) : Deaf fun s => s.started = u.started :=
  ⟨fun _ _ h => h, fun _ _ h => h, fun _ _ h => h, fun _ _ h => h, fun _ _ h => h, fun _ _ h => h, fun _ _ h => h,
    fun _ _ _ h => h, fun _ h => h⟩

theorem started_flushAll (s : Device) : s.flushAll.started = s.started ∧ s.flushAll.wiping = s.wiping := by
  unfold flushAll
  constructor
  · exact Deaf.foldl (P := fun t => t.started = s.started) _ (fun _ r hv => (started_deaf s).flush r hv) _ rfl
  · have same := Same.foldl (s := s) (off := R.MEM_STAT_WIPING.off) (f := fun s r => s.flush r)
      (fun _ r hu => Same.flushN ⟨by decide, by decide⟩ r _ hu) [0, 1, 2, 3] rfl
    exact congrArg (fun c : RegCopy => bitsOf c.val.toNat _ _ == 1) same

theorem started_clampReturns (s : Device) : (s.setCause 0 false).started = s.started ∧ (s.setCause 0 false).wiping = s.wiping := by
  unfold setCause
  dsimp only
  rw [if_pos (by simp)]
  split <;> exact ⟨rfl, rfl⟩

/-- What the start of the processors leaves, and what it makes of them. -/
theorem startProcessors_spec (s : Device) : s.startProcessors.inReset = s.inReset ∧ s.startProcessors.pwr.clamp = s.pwr.clamp ∧
    s.startProcessors.booting = s.booting ∧ s.startProcessors.wiping = s.wiping ∧
    ∀ p : Fin 4, (s.startProcessors.procs.get p).up = true ∧ (s.startProcessors.procs.get p).code = image s.store p.val := by
  unfold startProcessors
  extract_lets s1
  obtain ⟨e1, w1⟩ := started_clampReturns s1
  obtain ⟨e2, w2⟩ := started_flushAll (s1.setCause 0 false)
  have e := e2.trans e1
  simp only [started, Prod.mk.injEq] at e
  obtain ⟨reset, clamp, booting, procs⟩ := e
  refine ⟨reset, clamp, booting, w2.trans w1, fun p => ?_⟩
  rw [procs]
  match p with
  | 0 | 1 | 2 | 3 => exact ⟨rfl, rfl⟩

theorem runBundle_spec (s : Device) (b : List Byte) : (s.runBundle b).inReset = s.inReset ∧ (s.runBundle b).pwr.clamp = s.pwr.clamp ∧
    (s.runBundle b).booting = false ∧ (s.runBundle b).wiping = s.wiping ∧
    ∀ p : Fin 4, ((s.runBundle b).procs.get p).up = true ∧ ((s.runBundle b).procs.get p).code = image b p.val := by
  unfold runBundle
  exact startProcessors_spec { s with booting := false, store := b, images := measurements b, running := b }

end Device

theorem freed_repairFuses {c : Nat} {b : List Byte} {t : State} (h : t.dev.Freed c b) :
    t.repairFuses.dev.Freed c b ∧ t.repairFuses.nv.draws = t.nv.draws := by
  have deaf := Device.freed_deaf c b
  unfold State.repairFuses
  split
  · have posted := deaf.post 0x0703 1 (unitCode 0x15 4) 0 (deaf.event R.SEC_STAT_FUSE_REPAIRED (deaf.lining t.dev t.dev.wipeLining.lining h))
    exact ⟨posted, rfl⟩
  · exact ⟨h, rfl⟩

theorem freed_takeCal {c : Nat} {b : List Byte} {t : State} (h : t.dev.Freed c b) :
    t.takeCal.dev.Freed c b ∧ t.takeCal.nv.draws = t.nv.draws := by
  unfold State.takeCal
  dsimp only
  split
  · exact ⟨h, rfl⟩
  · exact ⟨(Device.freed_deaf c b).post _ _ _ _ (s := { t.dev with calUse := { invalid := true } }) h, rfl⟩

/-- The device is freed and its wipe begun. -/
def freeing (u : State) (x : Release) : State :=
  (u.onDevice fun s => (Device.checkLining { s with inReset := false } x.badLining).setFld R.GLB_RST_STAT_CAUSE s.cause).repairFuses.takeCal.renewNonce.onDevice
    fun s => s.armPower.beginWipe none

/-- A release that finds what it needs: the verified copies or the boot chain. -/
theorem release_ready {t u : State} {x : Release} (hu : u = (if x.clock then t.clockReturns else t).seesReset x.high)
    (hm : u.mayRelease = true) : t.release x = if (freeing u x).dev.cause = 3 ∧ (freeing u x).dev.store ≠ []
      then (freeing u x).onDevice fun s => s.runBundle s.store else (freeing u x).onDevice fun s => { s with booting := true } := by
  unfold State.release
  rw [← hu]
  exact if_neg (by rw [hm]; nofun)

theorem freeing_spec (u : State) (x : Release) : (freeing u x).dev.Freed u.dev.cause u.dev.store ∧ (freeing u x).dev.pwr.clamp = true ∧
    (freeing u x).dev.wiping = true ∧ (freeing u x).nv.draws = u.nv.draws + 1 := by
  have checked : ((Device.checkLining { u.dev with inReset := false } x.badLining).setFld R.GLB_RST_STAT_CAUSE u.dev.cause).Freed
      u.dev.cause u.dev.store := Device.freed_checkLining ⟨rfl, rfl, rfl⟩ x.badLining
  obtain ⟨repaired, draws1⟩ := freed_repairFuses
    (t := u.onDevice fun s => (Device.checkLining { s with inReset := false } x.badLining).setFld R.GLB_RST_STAT_CAUSE s.cause) checked
  obtain ⟨taken, draws2⟩ := freed_takeCal repaired
  unfold freeing
  generalize State.takeCal _ = v at taken draws2 ⊢
  refine ⟨taken, rfl, ?_, congrArg (· + 1) (draws2.trans draws1)⟩
  exact congrArg (· == 1) (RegFile.fld_setFld_self _ R.MEM_STAT_WIPING 1 (by decide) (by decide))

/-- The state in which a release looks at what it needs, but for the pin. -/
theorem clocked_spec {t u : State} {x : Release} (hu : u = if x.clock then t.clockReturns else t) (hr : t.dev.inReset = true) :
    u.dev.inReset = true ∧ u.vaux = t.vaux ∧ u.rails = t.rails ∧ u.refclk = (t.refclk || x.clock) ∧ u.resetHigh = t.resetHigh ∧
      u.nv = t.nv ∧ u.tap = t.tap ∧ (u.dev.cause = 1 ∨ u.dev = t.dev) ∧ (t.refclk = true → u.dev = t.dev) := by
  cases hc : x.clock with
  | false =>
    rw [hc] at hu
    subst hu
    exact ⟨hr, rfl, rfl, (Bool.or_false _).symm, rfl, rfl, rfl, .inr rfl, fun _ => rfl⟩
  | true =>
    rw [hc, if_pos rfl] at hu
    rw [Bool.or_true]
    unfold State.clockReturns at hu
    dsimp only at hu
    split at hu
    · subst hu
      exact ⟨hr, rfl, rfl, rfl, rfl, rfl, rfl, .inr rfl, fun _ => rfl⟩
    · next h =>
      subst hu
      exact ⟨rfl, rfl, rfl, rfl, rfl, rfl, rfl, .inl rfl, fun hc => absurd (.inl hc) h⟩

/-- The state in which a release looks at what it needs. -/
theorem releasing_spec {t u : State} {x : Release} (hu : u = (if x.clock then t.clockReturns else t).seesReset x.high)
    (hr : t.dev.inReset = true) (hh : t.tap.holds = false) :
    u.dev.inReset = true ∧ u.vaux = t.vaux ∧ u.rails = t.rails ∧ u.refclk = (t.refclk || x.clock) ∧ u.resetHigh = (t.resetHigh || x.high) ∧
      u.nv = t.nv ∧ (u.dev.cause = 1 ∨ u.dev = t.dev) ∧ (t.refclk = true → u.dev = t.dev) := by
  obtain ⟨reset, vaux, rails, clock, high, nv, tap, cause, dev⟩ := clocked_spec (u := if x.clock then t.clockReturns else t) rfl hr
  unfold State.seesReset at hu
  rw [if_neg (by rw [tap, hh]; nofun)] at hu
  subst hu
  exact ⟨reset, vaux, rails, clock, congrArg (· || x.high) high, nv, cause, dev⟩

/-- A release that finds what it needs frees the device. -/
theorem release_frees {t : State} {x : Release} (hi : t.dev.inReset = true) (hh : t.tap.holds = false) (hv : t.vaux = true) (hr : t.rails = true)
    (hn : t.resetHigh = true ∨ x.high = true) (hc : t.refclk = true ∨ x.clock = true) :
    (t.release x).dev.inReset = false ∧ (t.release x).dev.pwr.clamp = true ∧ (t.release x).dev.wiping = true ∧
      (t.release x).nv.draws ≥ t.nv.draws + 1 ∧ (t.dev.cause ≠ 3 ∨ t.dev.store = [] → (t.release x).dev.booting = true) ∧
      (t.refclk = true → t.dev.cause = 3 → t.dev.store ≠ [] → (t.release x).dev.booting = false ∧
        ∀ p : Fin 4, ((t.release x).dev.procs.get p).up = true ∧ ((t.release x).dev.procs.get p).code = image t.dev.store p.val) := by
  obtain ⟨u, hu⟩ : ∃ u, u = (if x.clock then t.clockReturns else t).seesReset x.high := ⟨_, rfl⟩
  obtain ⟨reset, vaux, rails, clock, high, nv, cause, dev⟩ := releasing_spec hu hi hh
  have ready : u.mayRelease = true := by
    unfold State.mayRelease
    rw [reset, vaux, rails, clock, high, hv, hr]
    simp [hn, hc]
  obtain ⟨⟨free, cause', store⟩, clamp, wiping, draws⟩ := freeing_spec u x
  rw [release_ready hu ready]
  generalize freeing u x = v at free cause' store clamp wiping draws ⊢
  have drawn : v.nv.draws ≥ t.nv.draws + 1 := by rw [draws, nv]
  split
  · next h =>
    dsimp only [State.onDevice]
    obtain ⟨r, c, b, w, procs⟩ := Device.runBundle_spec v.dev v.dev.store
    refine ⟨r.trans free, c.trans clamp, w.trans wiping, drawn, fun g => ?_, fun hc _ _ => ⟨b, fun p => ?_⟩⟩
    · rcases cause with e | e
      · exact absurd (e.symm.trans (cause'.symm.trans h.1)) (by decide)
      · rw [cause', store, e] at h
        exact absurd h (not_and_or.2 (g.imp_right not_not_intro))
    · rw [← show u.dev.store = t.dev.store from congrArg _ (dev hc), ← store]
      exact procs p
  · next h =>
    refine ⟨free, clamp, wiping, drawn, fun _ => rfl, fun hc h3 hs => absurd ?_ h⟩
    rw [cause', store, dev hc]
    exact ⟨h3, hs⟩

/-- The boot chain of a device that waits for it. -/
theorem bootVerify_booting {s : State} (hl : Live s) (hb : s.dev.booting = true) : exec .bootVerify s = .next
    (if s.nv.verifies s.nv.boot then s.bootSlot s.nv.boot
      else if s.nv.verifies (otherSlot s.nv.boot) then
        if !s.nv.noBoot then (s.bootSlot (otherSlot s.nv.boot)).onDevice fun v =>
          ({ v with fellBack := true }.event R.SEC_STAT_BOOT_FALLBACK).post 0x0701 1 (unitCode 0x15 4) 0
        else s.bootSlot (otherSlot s.nv.boot)
      else s.bootFailed) := by
  have run : exec .bootVerify s = .next s.bootVerify := (if_neg (by rw [inReset_of_live hl]; nofun) : execBootVerify s = _)
  rw [run, State.bootVerify, if_neg (not_not_intro hb)]

/-- Settles O56: each event of the supplies on the path its conditions choose. -/
theorem supplyCommandsComplete : Obligations.SupplyCommandsComplete := by
  intro s
  refine ⟨fun hr hc hh => ?_, fun h hh => ?_, fun hr => ?_, rfl, fun hv => ?_, fun hv => ?_, fun x hi hh => ⟨fun hn hx => ?_, fun hv hr hn hc => ?_⟩,
    fun hl hb => ⟨fun hv => ?_, fun hv ho t ht => ⟨fun hn => ?_, fun hn => ?_⟩, fun hv ho => ?_⟩, fun hi => ⟨?_, fun n ws => ?_⟩⟩
  · show Host.Outcome.next s.resetN = _
    rw [State.resetN, if_neg (by rw [hh]; nofun)]
    exact congrArg _ (if_neg (by rw [hr, hc]; simp))
  · show Host.Outcome.next s.resetN = _
    rw [State.resetN, if_neg (by rw [hh]; nofun)]
    exact congrArg _ (if_pos (by simpa using h))
  · show Host.Outcome.next s.vinShutdown = _
    exact congrArg _ (if_pos hr)
  · show Host.Outcome.next s.powerOn = _
    exact congrArg _ (if_pos (by rw [hv]; nofun))
  · show Host.Outcome.next s.powerOn = _
    exact congrArg _ (if_neg (not_not_intro hv))
  · refine ⟨_, rfl, ?_⟩
    obtain ⟨u, hu⟩ : ∃ u, u = (if x.clock then s.clockReturns else s).seesReset x.high := ⟨_, rfl⟩
    obtain ⟨reset, -, -, -, high, -, -, -⟩ := releasing_spec hu hi hh
    rw [hn, hx] at high
    show (s.release x).dev.inReset = true
    rw [State.release, ← hu]
    dsimp only
    rw [if_pos (by simp [State.mayRelease, high])]
    exact reset
  · exact ⟨s.release x, rfl, release_frees hi hh hv hr hn hc⟩
  · rw [bootVerify_booting hl hb]
    exact congrArg _ (if_pos hv)
  · rw [bootVerify_booting hl hb, if_neg (by rw [hv]; nofun), if_pos ho, ← ht, hn]
    rfl
  · rw [bootVerify_booting hl hb, if_neg (by rw [hv]; nofun), if_pos ho, ← ht, hn]
    rfl
  · rw [bootVerify_booting hl hb, if_neg (by rw [hv]; nofun), if_neg (by rw [ho]; nofun)]
  · show execRefclkPcieLost s = _
    exact onManagement_into hi rfl
  · refine ⟨into s ((List.range 8).foldl (fun v i => v.portDown' (8 * n.val + i) ws) s.dev),
      show execRefclkWashaLost ⟨n, ws⟩ s = _ from onManagement_into hi rfl, fun i hlt => ?_⟩
    dsimp only [into]
    exact Device.port_portsDown s.dev n.val ws hlt

end Sys2Proof.Machine
end

section
/-! Shards, contributions and micro-batches (O38). -/

set_option Elab.async false

namespace Sys2Proof.Machine
open Sys2Proof.Safety

namespace Device

/-! ## What an access that fails leaves of the fabric -/

theorem fab_deaf (x : Fabric) : Deaf fun s => s.fab = x :=
  ⟨fun _ _ h => h, fun _ _ h => h, fun _ _ h => h, fun _ _ h => h, fun _ _ h => h, fun _ _ h => h, fun _ _ h => h,
    fun _ _ _ h => h, fun _ h => h⟩

theorem fab_post (s : Device) (code : W16) (sev : Nat) (unit : W16) (detail : W64) : (s.post code sev unit detail).fab = s.fab :=
  (fab_deaf s.fab).post code sev unit detail rfl

theorem fab_memLog (s : Device) (x : LogItem) : (s.memLog x).fab = s.fab := by
  unfold memLog
  dsimp only
  split
  · exact fab_post _ _ _ _ _
  · split
    · unfold ringLog
      dsimp only
      split
      · rfl
      · split <;> rfl
    · split <;> rfl

theorem fab_failAccess (s : Device) (far : Bool) (a : Nat) (unit : W16) (sev : Nat) : (s.failAccess far a unit sev).fab = s.fab := by
  have fails (u : Device) (x : LogItem) : (u.uncorrectable x sev).fab = u.fab := (fab_post _ _ _ _ _).trans (fab_memLog u x)
  unfold failAccess
  split
  · refine (fails _ _).trans ?_
    split <;> rfl
  · exact fails s _

theorem fab_recording (s : Device) (unit : W16) (xs : List (Space × Nat × Nat)) {f : Device → Device} (hf : ∀ u, (f u).fab = u.fab) :
    (s.recording unit xs f).fab = s.fab := by
  unfold recording
  split
  · exact fab_failAccess _ _ _ _ _
  · exact hf s

/-! ## Publish notices -/

/-- What a new version of a shard leaves: whether a takeover runs. -/
theorem takeover_setVersion (s : Device) (e : Nat) (v : W32) (g : W64) : (s.setVersion e v g).fab.takeover = s.fab.takeover := by
  unfold setVersion
  extract_lets old was s1
  have kept : (s1.recording fabUnit [(.near, s1.entryAddr e, 64)] fun s =>
      (s.setNear (s.entryAddr e + 0x20) 4 v.toNat).setNear (s.entryAddr e + 0x28) 8 g.toNat).fab = s1.fab := fab_recording _ _ _ fun _ => rfl
  rw [kept]

theorem takeover_onlyPorts {s t : Device} (h : OnlyPorts s t) : t.fab.takeover = s.fab.takeover := by
  obtain ⟨p, n, rfl, -⟩ := h
  rfl

theorem takeover_sendLate (s : Device) (x : Sum) : (s.sendLate x).fab.takeover = s.fab.takeover := by
  unfold sendLate
  extract_lets n s1 s2
  have taps : s1.fab.takeover = s.fab.takeover := takeover_onlyPorts (OnlyPorts.foldl OnlyPorts.send (s.tapsOf x) s)
  exact (takeover_onlyPorts (OnlyPorts.send s2 _)).trans taps

theorem takeover_sendLateSums (s : Device) : s.sendLateSums.fab.takeover = s.fab.takeover :=
  List.foldlRecOn (motive := fun u => u.fab.takeover = s.fab.takeover) _ _ rfl fun u hu x _ => (takeover_sendLate u x).trans hu

theorem takeover_heard (s : Device) (p : Nat) : (s.heard p).fab.takeover = s.fab.takeover := by
  unfold heard
  split <;> rfl

/-- A notice of another owner, while no takeover runs. -/
theorem notice_other {s : Device} {e : Nat} {v : W32} {g : W64} (ho : s.entryOwner e ≠ s.selfIdx) (ht : s.fab.takeover = none) :
    s.notice e v g = ((s.setVersion e v g).heard (s.entryOwner e)).sendLateSums := by
  have kept : (((s.setVersion e v g).heard (s.entryOwner e)).sendLateSums).fab.takeover = none := by
    rw [takeover_sendLateSums, takeover_heard, takeover_setVersion, ht]
  unfold notice
  rw [if_neg ho]
  dsimp only
  rw [kept]

/-! ## Fetches -/

theorem after_iff {v u : W32} {n : Nat} (h : n = (v - u).toNat) : after v u = true ↔ 0 < n ∧ n < 2 ^ 31 := by
  subst h
  exact decide_eq_true_iff

/-- A fetch under the epoch in force at the shard's owner. -/
theorem fetch_owned {s : Device} {f : Fetch} (ho : s.entryOwner f.entry = s.selfIdx) : s.fetch f s.fab.epoch =
    if after f.version (s.entryVersion f.entry) ∨ s.fab.migrating.contains f.entry then
      s.onFab fun x => { x with fetchHeld := x.fetchHeld ++ [f] }
    else if s.goneVersion f.entry f.version then s.send (.versionGone f.peer f.entry f.version) else s.answer f := by
  unfold fetch
  rw [if_neg (not_not_intro rfl), if_neg (not_not_intro ho)]

theorem ownStandIn_none {s : Device} {e : Nat} (h : s.peerDead (s.entryOwner e) = false) : s.ownStandIn e = none :=
  if_neg fun g => by rw [h] at g; exact absurd g.1 (by decide)

theorem fetchFrom_standIn {s : Device} {e p : Nat} (h : s.peerDead (s.entryOwner e) = true) (hp : s.standIn e = some p) : s.fetchFrom e = p := by
  unfold fetchFrom
  dsimp only
  rw [if_neg (not_not_intro h), hp]
  rfl

section
variable {s : Device} {t : TDesc} {e : Nat} {f : Device → Device} (ht : t.shard = some e) (ho : s.entryOwner e ≠ s.selfIdx)
  (hr : s.replicaAt e t.addr = false) (ha : (e, s.forwardVersion) ∉ s.fab.asked)
include ht ho hr ha

/-- A weight of a peer that is not here and has not been asked for is asked for. -/
theorem reading_asks (hn : s.ownStandIn e = none) : s.reading t f =
    (s.onFab fun f => { f with asked := f.asked ++ [(e, s.forwardVersion)] }).send
      (.fetch (s.fetchFrom e) e s.forwardVersion s.fab.epoch true) := by
  unfold reading
  rw [ht]
  dsimp only
  rw [if_neg ho, if_neg (by rw [hr]; nofun), if_neg (by simpa using ha), hn]

/-- Where this device stands in for its owner, its own replica serves. -/
theorem reading_standsIn {r : Replica} (hs : s.ownStandIn e = some r) (hb : s.bad [(.near, t.addr, (s.shardAt e r.addr).length)] = none) :
    s.reading t f = f (s.keepReplica e s.forwardVersion t.addr (s.shardAt e r.addr)) := by
  unfold reading
  rw [ht]
  dsimp only
  rw [if_neg ho, if_neg (by rw [hr]; nofun), if_neg (by simpa using ha), hs]
  exact recording_good _ hb

end

/-! ## Migrations -/

/-- A shard that migrates, once what moves within this device is folded. -/
theorem migrate_ready {s : Device} {x : Migrated} {e : Nat} {here : List Leaving} (he : x.entry = e) (hm : e ∈ s.fab.migrating)
    (hh : here = s.movingHere e) (hf : ∀ l ∈ here, l.folded = true)
    (hp : x.parts = [] ∨ ∀ z ∈ s.layerSides (s.entryLayer e), s.foldDone z.1 z.2 = true) : s.migrate x =
      ((here.map Leaving.part ++ x.parts).foldl (putPart e)
        (s.onFab fun f => { f with leaving := f.leaving.filter fun l => !here.contains l })).arrived e := by
  subst he hh
  unfold migrate
  dsimp only
  rw [if_neg, if_neg]
  · exact fun h => hp.elim h.1 fun g => h.2 (List.all_eq_true.2 g)
  · exact fun h => h.elim (fun g => g (List.any_eq_true.2 ⟨_, hm, beq_self_eq_true _⟩)) fun g => g (List.all_eq_true.2 hf)

/-! ## Copy runs -/

/-- The place of a bank in near memory is as the directory and the update table say. -/
theorem bankAddr_congr {s t : Device} (hm : t.mem.near = s.mem.near) (hd : t.fld R.FAB_DIR_BASE_UNITS = s.fld R.FAB_DIR_BASE_UNITS)
    (hu : ∀ d : Die, t.fld (R.PALM_UDT_BASE_UNITS.die d) = s.fld (R.PALM_UDT_BASE_UNITS.die d)) (e v : Nat) : t.bankAddr e v = s.bankAddr e v := by
  have near (a n : Nat) : t.near a n = s.near a n := congrArg (fun m : Memory => m.readLE a n) hm
  have addr : t.entryAddr e = s.entryAddr e := congrArg (fun b => b * 4096 + 0x40000 + 64 * e) hd
  unfold bankAddr entryBank bankBytes entryDie entryLayer entryRows entryCols
  rw [addr]
  simp only [near, hu]

theorem bankAddr_breakPins (s : Device) (e f v : Nat) (st : W32) : (s.breakPins e st).bankAddr f v = s.bankAddr f v := by
  have place : ∀ d : Die, (R.PALM_UDT_BASE_UNITS.die d).off ≠ R.FAB_PIN_BROKEN_COUNT.off := by decide
  refine bankAddr_congr (s := s) (t := s.breakPins e st) rfl ?_ (fun d => ?_) f v
  · exact RegFile.fld_setFld_ne _ _ _ _ (by decide)
  · exact RegFile.fld_setFld_ne _ _ _ _ (place d)

theorem entryDigest_onFab (s : Device) (f : Fabric → Fabric) (e : Nat) : (s.onFab f).entryDigest e = s.entryDigest e := rfl
theorem readBytes_onFab (s : Device) (f : Fabric → Fabric) (sp : Space) (a n : Nat) : (s.onFab f).readBytes sp a n = s.readBytes sp a n := by
  cases sp <;> rfl
theorem readBytes_breakPins (s : Device) (e : Nat) (st : W32) (sp : Space) (a n : Nat) :
    (s.breakPins e st).readBytes sp a n = s.readBytes sp a n := by
  cases sp <;> rfl

/-- A copy inside near memory reads as its source did. -/
theorem readBytes_copied (s : Device) {a : Nat} (b : Nat) {n : Nat} (h : a + n ≤ 2 ^ 40) :
    (s.writeBytes .near a (s.readBytes .near b n)).readBytes .near a n = s.readBytes .near b n := by
  have len : (s.readBytes .near b n).length = n := Memory.readBytes_length ..
  have back := readBytes_writeBytes_append s (sp := .near) nofun (a := a) (bs := []) (cs := s.readBytes .near b n)
    (by rw [List.nil_append, len]; exact h)
  simpa only [List.nil_append, len, List.length_nil, Nat.add_zero] using back

theorem copyRun_due {s : Device} {e : Nat} (hc : e ∈ s.fab.copyDue) (hx : e ∉ s.fab.exportDue) (hr : s.cmd.dstate = .running) :
    (s.copyRun e).fab.copyDue = s.fab.copyDue.filter (· != e) ∧ (s.copyRun e).fab.copied = s.fab.copied ++ [e] ∧
    (s.copyRun e).fab.ran = s.fab.ran ++ [{ entry := e, step := s.frm.step, digest := (s.copyRun e).entryDigest e }] ∧
    ∀ n, n = s.bankBytes (s.entryDie e) (s.entryLayer e) (s.entryRows e) (s.entryCols e) →
      s.bankAddr e s.frm.step.toNat + n ≤ 2 ^ 40 →
      (s.copyRun e).readBytes .near (s.bankAddr e s.frm.step.toNat) n = s.readBytes .near (s.bankAddr e (s.frm.step.toNat + 2)) n := by
  have go : ¬ (¬ s.fab.copyDue.any (· == e) ∨ s.fab.exportDue.any (· == e) ∨ s.cmd.dstate ≠ .running) := by
    simp [hc, hx, hr]
  unfold copyRun
  rw [if_neg go]
  extract_lets st n s1 s2 s3 g
  refine ⟨rfl, rfl, ?_, fun k hk hb => ?_⟩
  · rw [entryDigest_onFab]
    rfl
  · have place (v : Nat) : s2.bankAddr e v = s.bankAddr e v := bankAddr_breakPins s1 e e v st
    rw [← place] at hb
    rw [readBytes_onFab, ← place, ← place, hk]
    rw [hk] at hb
    exact (readBytes_copied s2 (s2.bankAddr e (st.toNat + 2)) hb).trans (readBytes_breakPins s1 e st .near _ n)

/-! ## Skip notices -/

/-- Of the sums, only the one just skipped may be due. -/
theorem sendLateSums_one {v : Device} {others : List Sum} {x : Sum} (hs : v.fab.sums = others ++ [x]) (ho : ∀ y ∈ others, v.lateDue y = false) :
    v.sendLateSums = if v.lateDue x then v.sendLate x else v := by
  unfold sendLateSums
  rw [hs, List.filter_append, List.filter_eq_nil_iff.2 fun y hy => by rw [ho y hy]; nofun, List.nil_append]
  cases h : v.lateDue x <;> simp [h]

/-- A skip notice of the owner of the shard. -/
theorem skipNotice_owned {s : Device} {owner e k n : Nat} {step : W32} {ep : Byte} (hd : s.peerDead owner = false) (ho : s.entryOwner e = owner) :
    s.skipNotice owner e k n true step ep = s.onFab fun f => { f with sums := f.sums.filter fun x =>
      !(x.entry == e && (x.key == n + k || (x.key == k && x.skipped && x.step + 1 == step))) } := by
  unfold skipNotice
  rw [if_neg (by rw [hd, ho]; simp), if_pos rfl]

/-- Another skip notice of the owner, for a sum that is kept. -/
theorem skipNotice_kept {s : Device} {owner e k n : Nat} {step : W32} {ep : Byte} {x : Sum} {others : List Sum} (hd : s.peerDead owner = false)
    (ho : s.entryOwner e = owner) (hf : (s.fab.sums.find? fun y => y.entry == e && y.key == k && y.step == step) = some x)
    (hothers : others = s.fab.sums.filter fun y => !(y.entry == e && y.key == k && y.step == step)) :
    s.skipNotice owner e k n false step ep = if ep ≠ s.fab.epoch then (s.onFab fun f => { f with sums := others }).count R.FAB_OLD_EPOCH_CNT_COUNT 1
      else (s.onFab fun f => { f with sums := others ++ [{ x with skipped := true }] }).sendLateSums := by
  unfold skipNotice
  rw [if_neg (by rw [hd, ho]; simp), if_neg (by nofun)]
  dsimp only
  rw [hf, ← hothers]
  rfl

/-- The sum just skipped goes out where its keys have ended and its owner has published its step. -/
theorem sendLateSums_skipped {s v : Device} {e k : Nat} {step : W32} {x : Sum} {others : List Sum}
    (hf : (s.fab.sums.find? fun y => y.entry == e && y.key == k && y.step == step) = some x)
    (hv : v = s.onFab fun f => { f with sums := others ++ [{ x with skipped := true }] }) (hy : ∀ y ∈ others, s.lateDue y = false) :
    v.sendLateSums = if x.ended = true ∧ s.entryVersion e = step then v.sendLate { x with skipped := true } else v := by
  have hx := List.find?_some hf
  simp only [Bool.and_eq_true, beq_iff_eq] at hx
  obtain ⟨⟨he, -⟩, hs⟩ := hx
  have due : v.lateDue { x with skipped := true } = (x.ended && s.entryVersion e == step) := by
    subst hv he hs
    rfl
  rw [sendLateSums_one (by rw [hv]; rfl) (by rw [hv]; exact hy), due]
  simp only [Bool.and_eq_true, beq_iff_eq]

end Device

/-- The command of such a notice. -/
theorem exec_skipNotice_kept {s : State} {owner : Peer} {e : Nat} {k n : W16} {step : W32} {ep : Byte} {x : Sum} {others : List Sum} (hl : Live s)
    (hd : s.dev.peerDead owner.val = false) (ho : s.dev.entryOwner e = owner.val)
    (hf : (s.dev.fab.sums.find? fun y => y.entry == e && y.key == k.toNat && y.step == step) = some x)
    (hot : others = s.dev.fab.sums.filter fun y => !(y.entry == e && y.key == k.toNat && y.step == step)) :
    exec (.skipNotice owner e k n false step ep) s = .next (into s
      (if ep ≠ s.dev.fab.epoch then (s.dev.onFab fun f => { f with sums := others }).count R.FAB_OLD_EPOCH_CNT_COUNT 1
        else (s.dev.onFab fun f => { f with sums := others ++ [{ x with skipped := true }] }).sendLateSums)) := by
  show execSkipNotice owner e k n false step ep s = _
  exact onDev_into hl (Device.skipNotice_kept hd ho hf hot)

/-- Settles O38: each event of a shard on the path its conditions choose. -/
theorem shardCommandsComplete : Obligations.ShardCommandsComplete := by
  intro s e hl
  refine ⟨fun d x hf hx ho hr ha => ⟨fun hn => ?_, fun r w hs hw hb => ?_⟩, fun v g hb ho ht => ?_, fun peer v ep pin x n hx hn => ⟨fun he => ?_, fun he ho => ⟨fun h => ?_, fun h hm => ⟨fun hg => ?_, fun hg => ?_⟩⟩⟩,
    fun v mb a data => ?_, fun peer v => ?_, fun peer x hx => ?_, fun x here v g he hm hh hfold hp hv hg => ?_, fun hc hx hr => ?_, fun hc => ?_,
    fun owner k n step ep x hd ho => ⟨?_, fun hf others hot => ⟨fun he => ?_, fun he v hv hy => ⟨fun hxe hve => ?_, fun h => ?_⟩⟩⟩, fun peer ep => ?_⟩
  · show execVcvt d x s = _
    refine issueOp_into hf ?_
    show s.dev.reading x.src (fun v => v.vcvt d x) = _
    exact Device.reading_asks hx ho hr ha hn
  · show execVcvt d x s = _
    refine issueOp_into hf ?_
    subst hw
    show s.dev.reading x.src (fun v => v.vcvt d x) = _
    exact Device.reading_standsIn hx ho hr ha hs hb
  · show execPublishNotice e v g s = _
    exact onDev_into hl ((if_pos hb).trans (Device.notice_other ho ht))
  · show execShardFetch peer e v ep pin s = _
    exact onDev_into hl (if_pos he)
  · subst he hx
    show execShardFetch peer e v _ pin s = _
    refine onDev_into hl ((Device.fetch_owned (f := { peer := peer.val, entry := e, version := v, pin }) ho).trans (if_pos ?_))
    exact h.imp (Device.after_iff hn).2 List.contains_iff_mem.2
  · subst he hx
    show execShardFetch peer e v _ pin s = _
    refine onDev_into hl ((Device.fetch_owned (f := { peer := peer.val, entry := e, version := v, pin }) ho).trans ((if_neg ?_).trans (if_neg ?_)))
    · exact not_or.2 ⟨fun ha => by have := (Device.after_iff hn).1 ha; omega, fun hc => hm (List.contains_iff_mem.1 hc)⟩
    · rw [hg]; nofun
  · subst he hx
    show execShardFetch peer e v _ pin s = _
    refine onDev_into hl ((Device.fetch_owned (f := { peer := peer.val, entry := e, version := v, pin }) ho).trans ((if_neg ?_).trans (if_pos hg)))
    exact not_or.2 ⟨fun ha => by have := (Device.after_iff hn).1 ha; omega, fun hc => hm (List.contains_iff_mem.1 hc)⟩
  · refine ⟨fun hd => ?_, fun t p ht hd hn hp => ?_, ?_, fun hg hb => ?_⟩
    · show execFetchResponse e v mb a data .gone s = _
      refine onDev_into hl ?_
      have none := Device.ownStandIn_none (s := s.dev.onFab fun f => { f with passed := f.passed ++ [(e, s.dev.fetchFrom e)] }) (e := e) hd
      show s.dev.askNext e v mb = _
      unfold Device.askNext
      dsimp only
      rw [none, if_neg (by nofun), if_neg (by rw [hd]; nofun)]
      rfl
    · show execFetchResponse e v mb a data .gone s = _
      refine onDev_into hl ?_
      show s.dev.askNext e v mb = _
      unfold Device.askNext
      rw [← ht]
      dsimp only
      have hd' : t.peerDead (t.entryOwner e) = true := by rw [ht]; exact hd
      rw [hn, if_neg (by nofun), if_pos ⟨hd, by rw [hp]; rfl⟩, Device.fetchFrom_standIn hd' hp]
      rfl
    · show execFetchResponse e v mb a data .wrongEpoch s = _
      exact onDev_into hl rfl
    · show execFetchResponse e v mb a data .data s = _
      refine onDev_into hl ?_
      show s.dev.fetched e v mb a data = _
      unfold Device.fetched
      rw [if_pos hg, Device.recording_good _ hb]
      rfl
  · show execPinRelease peer e v s = _
    exact onDev_into hl rfl
  · show execAbandon peer x s = _
    exact onDev_into hl (if_neg (by simpa using hx))
  · show execShardMigration x s = _
    refine onDev_into hl ?_
    rw [Device.migrate_ready he hm hh hfold hp, ← hv, hg]
    rfl
  · exact ⟨into s (s.dev.copyRun e), show execCopyRun e s = _ from onDev_into hl rfl, Device.copyRun_due hc hx hr⟩
  · show execCutoff s = _
    exact onDev_into hl (if_neg (not_not_intro hc))
  · show execSkipNotice owner e k n true step ep s = _
    exact onDev_into hl (Device.skipNotice_owned hd ho)
  · rw [exec_skipNotice_kept hl hd ho hf hot, if_pos he]
  · rw [exec_skipNotice_kept hl hd ho hf hot, if_neg (not_not_intro he), ← hv, Device.sendLateSums_skipped hf hv hy, if_pos ⟨hxe, hve⟩]
  · rw [exec_skipNotice_kept hl hd ho hf hot, if_neg (not_not_intro he), ← hv, Device.sendLateSums_skipped hf hv hy, if_neg]
    rintro ⟨hxe, hve⟩
    exact h.elim (fun h => by rw [h] at hxe; cases hxe) fun h => h hve
  · show execReshardAck peer ep s = _
    exact onDev_into hl rfl

end Sys2Proof.Machine
end
